-- ==== Sys2Proof/Word.lean ====
section
/-! DEFINITION. The word types of the S2140: what its links, frames and settings carry as bits
(spec 00 section 6, spec 11). -/

namespace Sys2Proof

/-- One byte of a record or frame (11). -/
abbrev Byte := BitVec 8

/-- A word of the configuration memory, a check code, an origin code (00 section 6, 11). -/
abbrev Word16 := BitVec 16

/-- An alert number (01 R1). -/
abbrev Word24 := BitVec 24

/-- A station tag, a cell id, a region code, a time in seconds on the wire (11). -/
abbrev Word32 := BitVec 32

end Sys2Proof
end

