-- ==== Sys2Proof/Syntax.lean ====
section
/-! DEFINITION. The commands of the S2140: one constructor for each row of spec/opcode_table.json. -/

namespace Sys2Proof

/-- The two keys (08 R165). -/
inductive KeyName where
  | ack | silence
  deriving DecidableEq, Repr

/-- What drives a key input from outside: a level, or nothing, so that the pull decides (08 R165). -/
inductive Drive where
  | high | low | nothing
  deriving DecidableEq, Repr

/-- The two attention outputs (08). -/
inductive Output where
  | tone | buzz
  deriving DecidableEq, Repr

/-- What the host sends on the application link: bytes with no gap between them, or more than 5 ms with no byte
(09 R180). -/
inductive HostInput where
  | bytes (bytes : List Byte)
  | gap
  deriving DecidableEq, Repr

/-- The commands.  `during` of a host request: what the host sent, in order, while this request was being worked on
(09 R182; log 8). -/
inductive Instr where
  -- power-on and the configuration memory (10)
  | powerOn
  | configProbe (answer : Option Word16)
  | configRecord (first value : Word16)
  | configCheckWord (word : Word16)
  | memorySilent
  -- records and line of the modem link (09, 11.4)
  | hello
  | cell (cell : Word32) (service quality : Byte)
  | fragment (record : List Byte)
  | region (cell : Word32) (answer : Byte) (code : Word32)
  | time (seconds : Word32)
  | uplinkResult (origin : Word16) (number : Word24) (revision outcome : Byte)
  | linkRecordDropped (bytes : List Byte)
  | modemGapTimeout (bytes : List Byte)
  | modemReadyRise
  | modemReadyFall
  | modemRecordSent
  -- requests of the application link (07, 09, 11.5)
  | claim (seq : Byte) (during : List HostInput)
  | read (seq index generation : Byte) (offset : Word16) (length : Byte) (during : List HostInput)
  | complete (seq index generation : Byte) (during : List HostInput)
  | release (seq index generation : Byte) (during : List HostInput)
  | ack (seq index generation : Byte) (during : List HostInput)
  | fetchNotice (seq : Byte) (during : List HostInput)
  | status (seq : Byte) (during : List HostInput)
  | restart (seq : Byte) (during : List HostInput)
  | setThreshold (seq n : Byte) (during : List HostInput)
  | setOptout (seq mask : Byte) (during : List HostInput)
  | badRequestRecord (bytes : List Byte) (during : List HostInput)
  | appGapTimeout (bytes : List Byte) (during : List HostInput)
  | heldRequest
  -- the radio port (04)
  | readyRise
  | readyFall
  | busyRise
  | busyFall
  /-- `busyRises`: BUSY rises at the same moment, and the slot's end is taken first (04 R83; log 19). -/
  | backoffSlotEnd (busyRises : Bool)
  | sent
  | lost
  | portTimeout
  | lateAnswerGuardEnd
  | badFrame (bytes : List Byte)
  | tagRedraw
  -- received relay frames: sender tag and body bytes (11.3)
  | offer (sender : Word32) (body : List Byte)
  | want (sender : Word32) (body : List Byte)
  | piece (sender : Word32) (body : List Byte)
  | tally (sender : Word32) (body : List Byte)
  | stand (sender : Word32) (body : List Byte)
  | covered (sender : Word32) (body : List Byte)
  | yield (sender : Word32) (body : List Byte)
  -- ends of timers and inner steps of the Alert Table, AR and RS
  | assemblyTimeout (entry : Nat)
  | expiryDeadline (entry : Nat)
  | huskHoldEnd (entry : Nat)
  | verdictProcedure (entry : Nat)
  | queryTimerEnd
  | offerPoint (entry : Nat)
  | offerIntervalEnd (entry : Nat)
  | gapFillTimerEnd (entry : Nat)
  -- ends of timers of RU
  | reportDelayEnd (tally : Nat)
  | standHoldEnd (tally : Nat)
  | collectionWindowEnd (tally : Nat)
  | contributorGuardEnd (tally : Nat)
  | uplinkTimeoutEnd
  -- attention outputs and keys (08)
  | cadencePhaseEnd (output : Output)
  | keyEdge (key : KeyName) (drive : Drive)
  | debounceEnd (key : KeyName)
  deriving DecidableEq, Repr

end Sys2Proof
end

