-- ==== Sys2Proof/Machine/Types.lean ====
section
/-! DEFINITION. The types of the parts of State: alerts, entries, frames, tallies, records, notices (spec 01 to 10). -/

namespace Sys2Proof.Machine

/-! ### Alerts (01) -/

/-- The key of an alert (01 R1). -/
structure Key where
  origin : Word16
  number : Word24
  deriving DecidableEq, Repr

/-- One issuance is named by its key and its revision 0..15 (01 R1). -/
structure Issue where
  key : Key
  revision : BitVec 4
  deriving DecidableEq, Repr

/-- The kind of an issuance (01 R1). -/
inductive Kind where
  | new | update | cancel
  deriving DecidableEq, Repr

/-- The eight categories (07 section 7.1). -/
inductive Category where
  | national | extreme | severe | safety | missingPerson | advisory | exercise | test
  deriving DecidableEq, Repr

/-- The states of an entry (01 section 1.3). -/
inductive EntryState where
  | free | assembling | locating | outside | pending | claimed | shown | closed
  deriving DecidableEq, Repr

/-- The closure reasons (01 R16). -/
inductive Reason where
  | acknowledged | withheld | cancelled | expired | malformed
  deriving DecidableEq, Repr

/-- The area verdicts (01 R2). -/
inductive Verdict where
  | undecided | inside | outside | unresolved
  deriving DecidableEq, Repr

/-- An area descriptor: a region code and the number of levels, 1..4, that must agree (03 section 3.2). -/
structure Descriptor where
  code : Word32
  depth : Nat
  deriving DecidableEq, Repr

/-- An entry index together with a generation (01 R3). -/
structure Handle where
  index : Nat
  generation : Byte
  deriving DecidableEq, Repr

/-- RS's offer record (05 R89).  `pointPassed`: the offer point of this interval has run out. -/
structure OfferRecord where
  interval : Nat
  start : Nat
  point : Nat
  pointPassed : Bool
  heard : Nat
  deriving DecidableEq, Repr

/-- RS's want record (05 R101): the end of the gap-fill timer and the last WANT sent time, in ms. -/
structure WantRecord where
  gapEnd : Nat
  lastSent : Option Nat
  deriving DecidableEq, Repr

/-- An entry of the Alert Table (01 R2), with the parts PU, AU and RS keep beside it. -/
structure Entry where
  state : EntryState
  generation : Byte
  issue : Option Issue
  kind : Option Kind
  category : Option Category
  total : Nat
  provisional : Bool
  map : List (Option Nat)
  bodyCheck : Option Word16
  checkFailures : Nat
  expandedLength : Option Nat
  issueTime : Option Word32
  duration : Option Word16
  areas : List Descriptor
  verdict : Verdict
  heardBroadcast : Bool
  heardRelay : Bool
  lastFragment : Option Nat
  /-- uptime at which the entry was taken into use (01 R29, class 4) -/
  takenAt : Option Nat
  deadline : Option Nat
  closureReason : Option Reason
  closureTime : Option Nat
  heldWhenAcknowledged : Bool
  followsAcknowledged : Bool
  replaces : Option Handle
  /-- end of the assembly timer in ms (01 R12) -/
  assemblyTimer : Option Nat
  /-- PU's parts (07 R136, R139, R140) -/
  precedence : Option Nat
  stamp : Option Nat
  claimSlot : Option Nat
  /-- AU's sounded flag (08 R158) -/
  sounded : Bool
  offer : Option OfferRecord
  want : Option WantRecord
  deriving DecidableEq, Repr

/-- The 160 store slots, each with its payload (02 R40), named by their place in the list. -/
abbrev Memory := List (List Byte)

/-- Where a fragment record came from (02 R31). -/
inductive Source where
  | broadcast | relay
  deriving DecidableEq, Repr

/-- The fields of a well-formed fragment record (11.2). -/
structure Fragment where
  issue : Issue
  index : Nat
  total : Nat
  kind : Kind
  category : Category
  issueTime : Word32
  duration : Word16
  bodyCheck : Word16
  areas : List Descriptor
  payload : List Byte
  deriving DecidableEq, Repr

/-! ### Location and the region map cache (03) -/

/-- The service of the location (03 R49). -/
inductive Service where
  | none | limited | full
  deriving DecidableEq, Repr

/-- One entry of the region map cache (03 R54). -/
structure CacheEntry where
  valid : Bool
  cell : Word32
  code : Word32
  deriving DecidableEq, Repr

/-- What the Area Resolver holds (03).  `queryTimer` runs while a query is outstanding; the query's cell id is the
modem link's query marker. -/
structure Resolver where
  cell : Word32
  service : Service
  quality : Nat
  cache : List CacheEntry
  queryTimer : Option Nat
  waiting : List Nat
  deriving DecidableEq, Repr

/-! ### Reports (06) -/

/-- How far a report has come; RECEIPT and ACK are also the two statuses of a tag (06 R108, R109). -/
inductive Level where
  | none | receipt | ack
  deriving DecidableEq, Repr

/-- One tag of a receipt set: whether it is also in the acknowledged set, and its covered level (06 R109). -/
structure Member where
  tag : Word32
  acked : Bool
  covered : Level
  deriving DecidableEq, Repr

/-- One item of a TALLY frame or a digest: a tag and its status. -/
structure Item where
  tag : Word32
  status : Level
  deriving DecidableEq, Repr

/-- The agent states of a tally (06 section 6.4). -/
inductive AgentState where
  | waiting | standing | collecting | uplinking | contributing | settled
  deriving DecidableEq, Repr

/-- A tally in use (06 R108).  `digest`: the items sent and not yet answered (R125).  `ended`: its entry has ended
while it was UPLINKING (R134). -/
structure Tally where
  issue : Issue
  state : AgentState
  ownTag : Word32
  ownLevel : Level
  reported : Level
  bid : Nat
  reporter : Option Word32
  failures : Nat
  superseded : Bool
  ended : Bool
  settleTime : Option Nat
  members : List Member
  timer : Option Nat
  digest : List Item
  deriving DecidableEq, Repr

/-- An item of the deferred list (06 R112); its arrival order is its place in the list. -/
structure Deferred where
  issue : Issue
  precedence : Nat
  level : Level
  deriving DecidableEq, Repr

/-- What the Report Unit holds (06). -/
structure Report where
  tallies : List (Option Tally)
  deferred : List Deferred
  uplinkQueue : List Nat
  deriving DecidableEq, Repr

/-! ### The relay channel (04) -/

/-- The relay frame kinds (04 section 4.4). -/
inductive FrameKind where
  | offer | want | piece | tally | stand | covered | yield
  deriving DecidableEq, Repr

/-- A received frame that has passed the filter (04 R76). -/
structure Frame where
  kind : FrameKind
  sender : Word32
  body : List Byte
  check : Word16
  deriving DecidableEq, Repr

/-- A queued frame: its body as the asking block gave it, with what its merge identity needs (04 R78). -/
inductive Payload where
  | offer (issue : Issue) (total : Nat) (category : Category)
  | want (issue : Issue) (wanted : Word16)
  | piece (issue : Issue) (index : Nat) (record : List Byte)
  | tally (issue : Issue) (items : List Item)
  | stand (issue : Issue) (bid size : Nat)
  | covered (issue : Issue) (level : Level) (part : Nat) (tags : List Word32)
  | yield (issue : Issue)
  deriving DecidableEq, Repr

/-- The two transmit queues (04 R78). -/
inductive Queue where
  | control | bulk
  deriving DecidableEq, Repr

/-- The port states (04 section 4.2). -/
inductive Port where
  | down | up | faulted
  deriving DecidableEq, Repr

/-- CS's answer to a request to queue a frame (04 R72, R79). -/
inductive Answer where
  | queued | merged | full | unavailable
  deriving DecidableEq, Repr

/-- An item of the echo list (04 R74). -/
structure EchoItem where
  sender : Word32
  kind : FrameKind
  check : Word16
  deriving DecidableEq, Repr

/-- The contender: the head of `queue`, its backoff count, and the end of the slot being counted (04 R82, R83). -/
structure Contender where
  queue : Queue
  count : Nat
  slotEnd : Option Nat
  deriving DecidableEq, Repr

/-- The frame in flight (04 R67, R70, R81), with the bytes handed to the radio. -/
structure InFlight where
  payload : Payload
  withdrawn : Bool
  timerEnd : Nat
  wire : List Byte
  deriving DecidableEq, Repr

/-- What the Channel Station holds (04), and the radio's two lines. -/
structure Station where
  port : Port
  ready : Bool
  busy : Bool
  tag : Word32
  tagMarked : Bool
  echo : List EchoItem
  control : List Payload
  bulk : List Payload
  contender : Option Contender
  inFlight : Option InFlight
  guardEnd : Option Nat
  cw : Nat
  controlRun : Nat
  timeoutRun : Nat
  deriving DecidableEq, Repr

/-! ### Presentation (07) and attention (08) -/

/-- The notice kinds (07 R151). -/
inductive NoticeKind where
  | cancelled | superseded | expired | keyAck | keySilence
  deriving DecidableEq, Repr

/-- A notice (07 R151). -/
structure Notice where
  kind : NoticeKind
  handle : Handle
  successor : Option Nat
  deriving DecidableEq, Repr

/-- What the Presentation Unit holds beside the entries (07). -/
structure Presentation where
  threshold : Nat
  optout : Byte
  slots : List (Option Handle)
  notices : List Notice
  deriving DecidableEq, Repr

/-- The attention owner (08 R156, R159). -/
structure Owner where
  index : Nat
  generation : Byte
  precedence : Nat
  deriving DecidableEq, Repr

/-- The phases of a cadence output (08 R156). -/
inductive Phase where
  | on | off | done | disabled
  deriving DecidableEq, Repr

/-- One output of the cadence (08 R156): the phase, the bursts done, the time the phase ends in ms. -/
structure OutputState where
  phase : Phase
  bursts : Nat
  phaseEnd : Option Nat
  deriving DecidableEq, Repr

/-- A running cadence (08 R156). -/
structure Cadence where
  profile : Nat
  tone : OutputState
  buzz : OutputState
  deriving DecidableEq, Repr

/-- One key (08 R156, R165, R166): what drives its input, the level on it, the accepted level (active or not), and
the debounce timer. -/
structure KeyState where
  drive : Drive
  levelHigh : Bool
  accepted : Bool
  timer : Option Nat
  deriving DecidableEq, Repr

/-- What the Attention Unit holds beside the sounded flags (08 R156). -/
structure Attention where
  owner : Option Owner
  cadence : Option Cadence
  ack : KeyState
  silence : KeyState
  deriving DecidableEq, Repr

/-- The level of an output pin (08 R164). -/
inductive PinLevel where
  | high | low | floating
  deriving DecidableEq, Repr

/-! ### Links (09) -/

/-- A receive framer (09 R172, R180). -/
inductive Framer where
  | idle
  | receiving (bytes : List Byte)
  | hunting
  deriving DecidableEq, Repr

/-- What a framer finds (09 R172): a whole record, a length that can belong to none, or a record cut short by a gap,
each with the bytes received. -/
inductive FramerEvent where
  | record (bytes : List Byte)
  | badLength (bytes : List Byte)
  | truncated (bytes : List Byte)
  deriving DecidableEq, Repr

/-- A record for the modem (09 section 9.2). -/
inductive ModemRecord where
  | regionQuery (cell : Word32)
  | uplink (issue : Issue) (reporter : Word32) (items : List Item)
  deriving DecidableEq, Repr

/-- What the Modem Link holds (09 R171), and the modem ready line.  `helloBegan`: the ms at which a HELLO had the record
being sent begun, kept for a fall of the line at that same moment (09 R179; log 36). -/
structure ModemLink where
  framer : Framer
  lastByte : Nat
  partReady : Bool
  modemReady : Bool
  hold : List ModemRecord
  sending : Option ModemRecord
  queryMarker : Option Word32
  uplinkMarker : Option Issue
  helloBegan : Option Nat
  deriving DecidableEq, Repr

/-- The result codes of the application link (07 section 7.3). -/
inductive Result where
  | ok | none | full | stale | range | empty | badRequest | notReady
  deriving DecidableEq, Repr

/-- A request with its parameters (07 section 7.3). -/
inductive Request where
  | claim
  | read (handle : Handle) (offset length : Nat)
  | complete (handle : Handle)
  | release (handle : Handle)
  | ack (handle : Handle)
  | fetchNotice
  | status
  | restart
  | setThreshold (n : Nat)
  | setOptout (mask : Byte)
  deriving DecidableEq, Repr

/-- A request that has ended: its bytes as received, and whether it ended before the end of start-up, so that it is
answered NOT_READY (09 R180, R182; 10 R185). -/
structure EndedRequest where
  bytes : List Byte
  early : Bool
  deriving DecidableEq, Repr

/-- The response buffer (09 R181), with the request worked on or the response held. -/
inductive Buffer where
  | empty
  | working (request : EndedRequest)
  | ready (response : List Byte)
  deriving DecidableEq, Repr

/-- What the Application Link holds (09 R180 to R182). -/
structure AppLink where
  framer : Framer
  lastByte : Nat
  buffer : Buffer
  held : Option EndedRequest
  deriving DecidableEq, Repr

/-! ### Start-up, time, faults (10) -/

/-- How far the Settings Loader has come (10 R186 to R189). -/
inductive LoaderPhase where
  | probing | reading | checking | finished
  deriving DecidableEq, Repr

/-- What the Settings Loader holds (10 R187, R189). -/
structure Loader where
  phase : LoaderPhase
  zones : List Nat
  address : Nat
  check : Word16
  deriving DecidableEq, Repr

/-- The settings (10 R190): the scalar ones by name, and the three tables by place: `precedences` for settings
48..54, `profiles` for 55..61, `cadence` for 64..95. -/
structure Settings where
  slotTime : Nat
  cwMin : Nat
  cwMax : Nat
  portTimeout : Nat
  offerMin : Nat
  offerMax : Nat
  redundancy : Nat
  gapFillDelay : Nat
  tagSeedHigh : Nat
  tagSeedLow : Nat
  reportStep : Nat
  reportSpread : Nat
  standHold : Nat
  collectionWindow : Nat
  contributorGuard : Nat
  uplinkTimeout : Nat
  areaCheck : Nat
  queryTimeout : Nat
  assemblyTimeout : Nat
  huskHold : Nat
  precedences : List Nat
  profiles : List Nat
  cadence : List Nat
  toneMode : Nat
  buzzMode : Nat
  ackActive : Nat
  ackPull : Nat
  silenceActive : Nat
  silencePull : Nat
  deriving DecidableEq, Repr

/-- The Time Base (10 R191, R192; 09 R176).  `draws` and `drawn` are the model's own (log 3): the raw values the random
source gives next, and how many it has given. -/
structure TimeBase where
  uptime : Nat
  milli : Nat
  alertClock : Option Nat
  draws : List Nat
  drawn : Nat
  deriving DecidableEq, Repr

/-- The nine fault flags (10 R193). -/
inductive Flag where
  | configDefaulted | configCrc | queryTimeout | uplinkTimeout | radioFault | tagClash | noticeLost | storeFull
  | tableFull
  deriving DecidableEq, Repr

/-- The fault flags as STATUS reads them (10 R193). -/
structure FaultFlags where
  configDefaulted : Bool
  configCrc : Bool
  queryTimeout : Bool
  uplinkTimeout : Bool
  radioFault : Bool
  tagClash : Bool
  noticeLost : Bool
  storeFull : Bool
  tableFull : Bool
  deriving DecidableEq, Repr

/-- The thirteen counters (10 R193). -/
inductive Counter where
  | malformed | stale | duplicate | inconsistent | checkFail | queueFull | linkError | lateResult | idleKey
  | configSkipped | fragmentsTaken | framesSent | framesLost
  deriving DecidableEq, Repr

/-- The counters' values, 0..65,535 (10 R193). -/
structure Counters where
  malformed : Nat
  stale : Nat
  duplicate : Nat
  inconsistent : Nat
  checkFail : Nat
  queueFull : Nat
  linkError : Nat
  lateResult : Nat
  idleKey : Nat
  configSkipped : Nat
  fragmentsTaken : Nat
  framesSent : Nat
  framesLost : Nat
  deriving DecidableEq, Repr

end Sys2Proof.Machine
end

