-- ==== Sys2Proof/Machine/Operands.lean ====
section
/-! DEFINITION. Every record and frame layout of chapter 11, read and built; the check code; the codes of enumerated
fields; the receive framer of chapter 9. -/

namespace Sys2Proof.Machine

/-! ### Bytes, most significant first (00 section 6) -/

/-- The two bytes of a 16-bit field. -/
def bytes16 (x : Word16) : List Byte := [x.extractLsb' 8 8, x.extractLsb' 0 8]

/-- The three bytes of a 24-bit field. -/
def bytes24 (x : Word24) : List Byte := [x.extractLsb' 16 8, x.extractLsb' 8 8, x.extractLsb' 0 8]

/-- The four bytes of a 32-bit field. -/
def bytes32 (x : Word32) : List Byte :=
  [x.extractLsb' 24 8, x.extractLsb' 16 8, x.extractLsb' 8 8, x.extractLsb' 0 8]

/-- A 16-bit field from its two bytes. -/
def word16 (a b : Byte) : Word16 := a ++ b

/-- A 24-bit field from its three bytes. -/
def word24 (a b c : Byte) : Word24 := a ++ b ++ c

/-- A 32-bit field from its four bytes. -/
def word32 (a b c d : Byte) : Word32 := a ++ b ++ c ++ d

/-- A number as one byte. -/
def byte (n : Nat) : Byte := BitVec.ofNat 8 n

/-- A number as a 16-bit field. -/
def num16 (n : Nat) : List Byte := bytes16 (BitVec.ofNat 16 n)

/-- One byte for a yes or no. -/
def bit (b : Bool) : Nat := if b then 1 else 0

/-! ### The check code (11 R194) -/

/-- One step of the check register. -/
def checkStep (r : Word16) : Word16 := if r.msb then (r <<< 1) ^^^ 0x8005#16 else r <<< 1

/-- The register after `n` steps. -/
def checkSteps : Nat → Word16 → Word16
  | 0, r => r
  | n + 1, r => checkSteps n (checkStep r)

/-- The register after one more byte. -/
def checkByte (r : Word16) (b : Byte) : Word16 := checkSteps 8 (r ^^^ (b ++ 0#8))

/-- The register after the bytes, from a given register. -/
def checkFrom (r : Word16) (bs : List Byte) : Word16 := bs.foldl checkByte r

/-- The check code over the bytes: the register preset to all ones (11 R194). -/
def checkCode (bs : List Byte) : Word16 := checkFrom 0xFFFF#16 bs

/-! ### Codes (11 R195) -/

/-- The category of a code (07 section 7.1). -/
def Category.ofCode (c : BitVec 3) : Category :=
  match c.toNat with
  | 0 => .national
  | 1 => .extreme
  | 2 => .severe
  | 3 => .safety
  | 4 => .missingPerson
  | 5 => .advisory
  | 6 => .exercise
  | _ => .test

/-- The code of a category (07 section 7.1). -/
def Category.code : Category → Nat
  | .national => 0
  | .extreme => 1
  | .severe => 2
  | .safety => 3
  | .missingPerson => 4
  | .advisory => 5
  | .exercise => 6
  | .test => 7

/-- NEW 0, UPDATE 1, CANCEL 2; code 3 is malformed (11 R195). -/
def Kind.ofCode (c : BitVec 2) : Option Kind :=
  match c.toNat with
  | 0 => some .new
  | 1 => some .update
  | 2 => some .cancel
  | _ => none

/-- The code of a kind (11 R195). -/
def Kind.code : Kind → BitVec 2
  | .new => 0
  | .update => 1
  | .cancel => 2

/-- RECEIPT 1, ACK 2, the others bad (11 R195). -/
def Level.ofStatus (b : Byte) : Option Level :=
  if b = 1 then some .receipt else if b = 2 then some .ack else Option.none

/-- The code of a status or level (11 R195).  NONE is never sent. -/
def Level.code : Level → Byte
  | .none => 0
  | .receipt => 1
  | .ack => 2

/-- NONE 0, LIMITED 1, FULL 2, the others bad (11 R195, 03 R49). -/
def Service.ofCode (b : Byte) : Option Service :=
  if b = 0 then some .none else if b = 1 then some .limited else if b = 2 then some .full else Option.none

/-- The code of a service (11 R195). -/
def Service.code : Service → Nat
  | .none => 0
  | .limited => 1
  | .full => 2

/-- The code of a port state (11 R195). -/
def Port.code : Port → Nat
  | .down => 0
  | .up => 1
  | .faulted => 2

/-- The code of a notice kind (11 R195). -/
def NoticeKind.code : NoticeKind → Nat
  | .cancelled => 1
  | .superseded => 2
  | .expired => 3
  | .keyAck => 4
  | .keySilence => 5

/-- The code of a result (11 R195). -/
def Result.code : Result → Nat
  | .ok => 0
  | .none => 1
  | .full => 2
  | .stale => 3
  | .range => 4
  | .empty => 5
  | .badRequest => 6
  | .notReady => 7

/-- The code of a relay frame kind (04 section 4.4). -/
def FrameKind.code : FrameKind → BitVec 4
  | .offer => 1
  | .want => 2
  | .piece => 3
  | .tally => 4
  | .stand => 5
  | .covered => 6
  | .yield => 7

/-- The relay frame kind of a code, for the codes 1..7 (04 R76). -/
def FrameKind.ofCode (c : BitVec 4) : Option FrameKind :=
  match c.toNat with
  | 1 => some .offer
  | 2 => some .want
  | 3 => some .piece
  | 4 => some .tally
  | 5 => some .stand
  | 6 => some .covered
  | 7 => some .yield
  | _ => none

/-! ### The fragment record (11.2) -/

/-- `n` area descriptors and what follows them. -/
def parseAreas : Nat → List Byte → Option (List Descriptor × List Byte)
  | 0, rest => some ([], rest)
  | n + 1, a :: b :: c :: d :: e :: rest =>
    match parseAreas n rest with
    | some (ds, rest') => some (⟨word32 a b c d, e.toNat⟩ :: ds, rest')
    | none => none
  | _ + 1, _ => none

/-- The bytes of an area descriptor. -/
def Descriptor.bytes (d : Descriptor) : List Byte := bytes32 d.code ++ [byte d.depth]

/-- A descriptor's depth is 1..4 (02 R32). -/
def Descriptor.good (d : Descriptor) : Bool := 1 ≤ d.depth && d.depth ≤ 4

/-- A fragment record read by 11.2, or none when it is malformed by the table of 02 R32. -/
def parseFragment (bs : List Byte) : Option Fragment :=
  match bs with
  | o0 :: o1 :: n0 :: n1 :: n2 :: ri :: tk :: ca :: pl :: t0 :: t1 :: t2 :: t3 :: d0 :: d1 :: c0 :: c1 :: rest =>
    let origin := word16 o0 o1
    let index := (ri.extractLsb' 0 4).toNat
    let total := (tk.extractLsb' 4 4).toNat + 1
    let duration := word16 d0 d1
    let areaCount := (ca.extractLsb' 1 4).toNat
    match Kind.ofCode (tk.extractLsb' 2 2), parseAreas areaCount rest with
    | some kind, some (areas, payload) =>
      if origin ≠ 0 ∧ index < total ∧ duration ≠ 0 ∧ areaCount ≤ 8 ∧ (areaCount = 0 ∨ index = 0)
          ∧ areas.all Descriptor.good ∧ pl.toNat ≤ 48 ∧ payload.length = pl.toNat
          ∧ tk.extractLsb' 0 2 = 0#2 ∧ ca.extractLsb' 0 1 = 0#1 then
        some { issue := ⟨⟨origin, word24 n0 n1 n2⟩, ri.extractLsb' 4 4⟩, index, total, kind
               category := Category.ofCode (ca.extractLsb' 5 3), issueTime := word32 t0 t1 t2 t3, duration
               bodyCheck := word16 c0 c1, areas, payload }
      else none
    | _, _ => none
  | _ => none

/-- The bytes of a fragment record (11.2; 02 R47). -/
def Fragment.bytes (f : Fragment) : List Byte :=
  bytes16 f.issue.key.origin ++ bytes24 f.issue.key.number
    ++ [f.issue.revision ++ BitVec.ofNat 4 f.index,
        BitVec.ofNat 4 (f.total - 1) ++ f.kind.code ++ 0#2,
        BitVec.ofNat 3 f.category.code ++ BitVec.ofNat 4 f.areas.length ++ 0#1,
        byte f.payload.length]
    ++ bytes32 f.issueTime ++ bytes16 f.duration ++ bytes16 f.bodyCheck
    ++ f.areas.flatMap Descriptor.bytes ++ f.payload

/-! ### Relay frames (11.3) -/

/-- Key and revision byte, as every relay body but PIECE and the modem's records of an alert begin. -/
def Issue.bytes (i : Issue) : List Byte := bytes16 i.key.origin ++ bytes24 i.key.number ++ [0#4 ++ i.revision]

/-- The key and revision a body begins with; none when the origin is 0 or the upper bits of the revision byte are not
zero (05 R94, 06 R130). -/
def parseIssue (bs : List Byte) : Option Issue :=
  match bs with
  | o0 :: o1 :: n0 :: n1 :: n2 :: r :: _ =>
    if word16 o0 o1 ≠ 0 ∧ r.extractLsb' 4 4 = 0#4 then
      some ⟨⟨word16 o0 o1, word24 n0 n1 n2⟩, r.extractLsb' 0 4⟩
    else none
  | _ => none

/-- The bytes of an item of tag and status. -/
def Item.bytes (i : Item) : List Byte := bytes32 i.tag ++ [i.status.code]

/-- The kind of a queued frame. -/
def Payload.kind : Payload → FrameKind
  | .offer .. => .offer
  | .want .. => .want
  | .piece .. => .piece
  | .tally .. => .tally
  | .stand .. => .stand
  | .covered .. => .covered
  | .yield .. => .yield

/-- The key and revision of a queued frame. -/
def Payload.issue : Payload → Issue
  | .offer i _ _ => i
  | .want i _ => i
  | .piece i _ _ => i
  | .tally i _ => i
  | .stand i _ _ => i
  | .covered i _ _ _ => i
  | .yield i => i

/-- The body of a queued frame (11.3). -/
def Payload.body : Payload → List Byte
  | .offer i total cat => i.bytes ++ [byte total, byte cat.code]
  | .want i wanted => i.bytes ++ bytes16 wanted
  | .piece _ _ record => record
  | .tally i items => i.bytes ++ [byte items.length] ++ items.flatMap Item.bytes
  | .stand i bid size => i.bytes ++ num16 bid ++ [byte size]
  | .covered i level _ tags => i.bytes ++ [level.code, byte tags.length] ++ tags.flatMap bytes32
  | .yield i => i.bytes

/-- The header of a frame: kind, version 1, zero, sender tag, body length (11.3; 04 R76). -/
def frameHeader (kind : FrameKind) (sender : Word32) (body : List Byte) : List Byte :=
  [kind.code ++ 1#4, 0#8] ++ bytes32 sender ++ num16 body.length

/-- The frame check, over header and body (04 R76). -/
def frameCheck (kind : FrameKind) (sender : Word32) (body : List Byte) : Word16 :=
  checkCode (frameHeader kind sender body ++ body)

/-- A whole frame (11.3). -/
def frameBytes (kind : FrameKind) (sender : Word32) (body : List Byte) : List Byte :=
  frameHeader kind sender body ++ body ++ bytes16 (frameCheck kind sender body)

/-- 0 and 0xFFFFFFFF are no station tags (04 R73, R76). -/
def tagGood (t : Word32) : Bool := t != 0#32 && t != 0xFFFFFFFF#32

/-- The body lengths a kind allows, and for TALLY and COVERED a count in range that agrees with it (04 R76). -/
def bodyGood (kind : FrameKind) (body : List Byte) : Bool :=
  match kind with
  | .offer => body.length == 8
  | .want => body.length == 8
  | .piece => 17 ≤ body.length && body.length ≤ 105
  | .tally =>
    let n := (body.getD 6 0).toNat
    1 ≤ n && n ≤ 16 && body.length == 7 + 5 * n
  | .stand => body.length == 9
  | .covered =>
    let n := (body.getD 7 0).toNat
    1 ≤ n && n ≤ 24 && body.length == 8 + 4 * n
  | .yield => body.length == 6

/-- The reception filter of 04 R76: the frame, or none when it is to be dropped. -/
def parseFrame (bs : List Byte) : Option Frame :=
  match bs with
  | h :: z :: t0 :: t1 :: t2 :: t3 :: l0 :: l1 :: rest =>
    let body := rest.take (rest.length - 2)
    match FrameKind.ofCode (h.extractLsb' 4 4), rest.drop (rest.length - 2) with
    | some kind, [c0, c1] =>
      let sender := word32 t0 t1 t2 t3
      if bs.length ≤ 128 ∧ word16 c0 c1 = checkCode (bs.take (bs.length - 2)) ∧ h.extractLsb' 0 4 = 1#4 ∧ z = 0#8
          ∧ (word16 l0 l1).toNat = body.length ∧ bodyGood kind body ∧ tagGood sender then
        some ⟨kind, sender, body, word16 c0 c1⟩
      else none
    | _, _ => none
  | _ => none

/-- The items of a TALLY body; none when a status or a tag is bad (06 R130). -/
def parseItems : List Byte → Option (List Item)
  | [] => some []
  | a :: b :: c :: d :: e :: rest =>
    match Level.ofStatus e, parseItems rest with
    | some l, some items => if tagGood (word32 a b c d) then some (⟨word32 a b c d, l⟩ :: items) else none
    | _, _ => none
  | _ => none

/-- The tags of a COVERED body; none when one is bad (06 R130). -/
def parseTags : List Byte → Option (List Word32)
  | [] => some []
  | a :: b :: c :: d :: rest =>
    match parseTags rest with
    | some tags => if tagGood (word32 a b c d) then some (word32 a b c d :: tags) else none
    | none => none
  | _ => none

/-- An OFFER body: issue, total, category; none when RS drops it (05 R94). -/
def parseOffer (body : List Byte) : Option (Issue × Nat × Category) :=
  match parseIssue body, body.drop 6 with
  | some i, [t, c] =>
    if 1 ≤ t.toNat ∧ t.toNat ≤ 16 ∧ c.extractLsb' 3 5 = 0#5 then
      some (i, t.toNat, Category.ofCode (c.extractLsb' 0 3))
    else none
  | _, _ => none

/-- A WANT body: issue and wanted-index map; none when RS drops it (05 R94). -/
def parseWant (body : List Byte) : Option (Issue × Word16) :=
  match parseIssue body, body.drop 6 with
  | some i, [a, b] => if word16 a b ≠ 0 then some (i, word16 a b) else none
  | _, _ => none

/-- The issue and index a PIECE body names, at the places the fragment record gives them (05 R102). -/
def pieceName (body : List Byte) : Option (Issue × Nat) :=
  match body with
  | o0 :: o1 :: n0 :: n1 :: n2 :: ri :: _ =>
    some (⟨⟨word16 o0 o1, word24 n0 n1 n2⟩, ri.extractLsb' 4 4⟩, (ri.extractLsb' 0 4).toNat)
  | _ => none

/-- A TALLY body: issue and items; none when RU drops it (06 R130). -/
def parseTally (body : List Byte) : Option (Issue × List Item) :=
  match parseIssue body, parseItems (body.drop 7) with
  | some i, some items => some (i, items)
  | _, _ => none

/-- A STAND body: issue, bid, tally size; none when RU drops it (06 R130). -/
def parseStand (body : List Byte) : Option (Issue × Nat × Nat) :=
  match parseIssue body, body.drop 6 with
  | some i, [a, b, c] =>
    if 1 ≤ c.toNat ∧ c.toNat ≤ 64 then some (i, (word16 a b).toNat, c.toNat) else none
  | _, _ => none

/-- A COVERED body: issue, level, tags; none when RU drops it (06 R130). -/
def parseCovered (body : List Byte) : Option (Issue × Level × List Word32) :=
  match parseIssue body, Level.ofStatus (body.getD 6 0), parseTags (body.drop 8) with
  | some i, some l, some tags => some (i, l, tags)
  | _, _, _ => none

/-! ### Link records (09 section 9.2, 11.4, 11.5) -/

/-- A record of either link: length of kind and body, kind, body, check. -/
def linkRecord (kind : Byte) (body : List Byte) : List Byte :=
  let head := num16 (body.length + 1) ++ kind :: body
  head ++ bytes16 (checkCode head)

/-- The length field that a record's bytes begin with, 0 while it is not there. -/
def lengthField (bs : List Byte) : Nat :=
  match bs with
  | a :: b :: _ => (word16 a b).toNat
  | _ => 0

/-- The framer takes one byte (09 R172); `most` is the largest length the link allows. -/
def Framer.take (most : Nat) (f : Framer) (b : Byte) : Framer × List FramerEvent :=
  match f with
  | .idle => (.receiving [b], [])
  | .receiving bs =>
    let bs' := bs ++ [b]
    if bs'.length = 2 ∧ (lengthField bs' = 0 ∨ most < lengthField bs') then (.hunting, [.badLength bs'])
    else if 2 < bs'.length ∧ bs'.length = lengthField bs' + 4 then (.idle, [.record bs'])
    else (.receiving bs', [])
  | .hunting => (.hunting, [])

/-- The framer takes bytes that follow each other with no gap. -/
def Framer.feed (most : Nat) : Framer → List Byte → Framer × List FramerEvent
  | f, [] => (f, [])
  | f, b :: bs =>
    let one := f.take most b
    let more := Framer.feed most one.1 bs
    (more.1, one.2 ++ more.2)

/-- More than 5 ms pass with no byte (09 R172). -/
def Framer.gap (f : Framer) : Framer × List FramerEvent :=
  match f with
  | .idle => (.idle, [])
  | .receiving bs => (.idle, [.truncated bs])
  | .hunting => (.idle, [])

/-- The largest length of a record from the modem (09 R172). -/
def modemMost : Nat := 106

/-- The largest length of a request record (09 R180). -/
def requestMost : Nat := 7

/-- The body of a whole record. -/
def recordBody (bs : List Byte) : List Byte := (bs.drop 3).take (lengthField bs - 1)

/-- The check of a whole record matches (09 R173, R180). -/
def recordCheckGood (bs : List Byte) : Bool :=
  bs.drop (lengthField bs + 2) == bytes16 (checkCode (bs.take (lengthField bs + 2)))

/-- A record of the modem, by 11.4. -/
inductive FromModem where
  | hello
  | cell (cell : Word32) (service quality : Byte)
  | fragment (body : List Byte)
  | region (cell : Word32) (code : Option Word32)
  | time (seconds : Word32)
  | uplinkResult (issue : Issue) (accepted : Bool)
  deriving DecidableEq, Repr

/-- The record a kind and a body stand for; none when it is to be dropped: kind, body length, and the answer of a
REGION or the outcome of an UPLINK_RESULT (09 R173).  The region code of UNKNOWN and the upper bits of the revision
byte are not read (11 R195). -/
def modemRecord (kind : Byte) (body : List Byte) : Option FromModem :=
  if kind = 1 then (match body with
    | [] => some .hello
    | _ => none)
  else if kind = 2 then (match body with
    | [a, b, c, d, s, q] => some (.cell (word32 a b c d) s q)
    | _ => none)
  else if kind = 3 then (if 17 ≤ body.length ∧ body.length ≤ 105 then some (.fragment body) else none)
  else if kind = 4 then (match body with
    | [a, b, c, d, k, e, f, g, h] =>
      if k = 1 then some (.region (word32 a b c d) (some (word32 e f g h)))
      else if k = 0 then some (.region (word32 a b c d) none) else none
    | _ => none)
  else if kind = 5 then (match body with
    | [a, b, c, d] => some (.time (word32 a b c d))
    | _ => none)
  else if kind = 6 then (match body with
    | [a, b, c, d, e, r, o] =>
      let issue : Issue := ⟨⟨word16 a b, word24 c d e⟩, r.extractLsb' 0 4⟩
      if o = 1 then some (.uplinkResult issue true)
      else if o = 2 then some (.uplinkResult issue false) else none
    | _ => none)
  else none

/-- A whole record of the modem judged (09 R173). -/
def judgeModem (bs : List Byte) : Option FromModem :=
  if recordCheckGood bs then modemRecord (bs.getD 2 0) (recordBody bs) else none

/-- The bytes of a record for the modem (11.4). -/
def ModemRecord.bytes : ModemRecord → List Byte
  | .regionQuery cell => linkRecord 0x11#8 (bytes32 cell)
  | .uplink issue reporter items =>
    linkRecord 0x12#8 (issue.bytes ++ bytes32 reporter
      ++ [byte items.length, byte (items.countP (·.status == .ack))] ++ items.flatMap Item.bytes)

/-- The kind byte of a request as received, 0 when it was not received (09 R180). -/
def requestKind (bs : List Byte) : Byte := bs.getD 2 0

/-- The sequence byte of a request as received, 0 when it was not received (09 R180); so too for a request received whole
with no sequence byte in it, its length being 1, for which the spec gives no sequence (log 40). -/
def requestSeq (bs : List Byte) : Byte := if 2 ≤ lengthField bs then bs.getD 3 0 else 0

/-- The request a kind and a body stand for; none when the kind is not one of the ten or the body length is not the one
the kind has (09 section 9.6, R180). -/
def requestOf (kind : Byte) (body : List Byte) : Option Request :=
  if kind = 0x21 then (match body with
    | [_] => some .claim
    | _ => none)
  else if kind = 0x22 then (match body with
    | [_, i, g, o0, o1, l] => some (.read ⟨i.toNat, g⟩ (word16 o0 o1).toNat l.toNat)
    | _ => none)
  else if kind = 0x23 then (match body with
    | [_, i, g] => some (.complete ⟨i.toNat, g⟩)
    | _ => none)
  else if kind = 0x24 then (match body with
    | [_, i, g] => some (.release ⟨i.toNat, g⟩)
    | _ => none)
  else if kind = 0x25 then (match body with
    | [_, i, g] => some (.ack ⟨i.toNat, g⟩)
    | _ => none)
  else if kind = 0x26 then (match body with
    | [_] => some .fetchNotice
    | _ => none)
  else if kind = 0x27 then (match body with
    | [_] => some .status
    | _ => none)
  else if kind = 0x28 then (match body with
    | [_] => some .restart
    | _ => none)
  else if kind = 0x29 then (match body with
    | [_, n] => some (.setThreshold n.toNat)
    | _ => none)
  else if kind = 0x2A then (match body with
    | [_, m] => some (.setOptout m)
    | _ => none)
  else none

/-- An ended request judged by 09 R180: none when it is bad. -/
def judgeRequest (bs : List Byte) : Option Request :=
  let n := lengthField bs
  if 1 ≤ n ∧ n ≤ requestMost ∧ bs.length = n + 4 ∧ recordCheckGood bs then requestOf (requestKind bs) (recordBody bs)
  else none

/-- A response record: the request's kind; sequence, result and, for OK, the answer (11.5). -/
def responseRecord (kind seq : Byte) (result : Result) (answer : List Byte) : List Byte :=
  linkRecord kind ([seq, byte result.code] ++ answer)

/-- The bytes of a handle: index, generation (11.5). -/
def Handle.bytes (h : Handle) : List Byte := [byte h.index, h.generation]

/-- The bytes of a notice record (11.5). -/
def Notice.bytes (n : Notice) : List Byte := byte n.kind.code :: n.handle.bytes ++ [byte (n.successor.getD 0)]

/-! ### The configuration image (11.6) -/

/-- The signature of the header word (10 R186). -/
def headerSignature : BitVec 11 := 0b10110011101#11

/-- The header is right (10 R186). -/
def headerGood (w : Word16) : Bool := w.extractLsb' 5 11 == headerSignature && w.extractLsb' 0 1 == 0#1

/-- The zones a header marks present, in zone order (10 R187). -/
def headerZones (w : Word16) : List Nat := [1, 2, 3, 4].filter fun z => w.getLsbD z

/-- The setting number of a record's first word. -/
def recordSetting (w : Word16) : Nat := (w.extractLsb' 8 8).toNat

/-- The last-in-zone flag of a record's first word. -/
def recordLast (w : Word16) : Bool := w.getLsbD 7

/-- The bits of a record's first word that must be zero are zero. -/
def recordZeroGood (w : Word16) : Bool := w.extractLsb' 0 7 == 0#7

end Sys2Proof.Machine
end

