-- ==== Sys2Proof/Config.lean ====
section
/-! DEFINITION. The free values of the model: constants without a body, which nothing in Lean can evaluate. -/

namespace Sys2Proof.Config

/-- The `n`-th raw value of the Time Base's random source (10 R192), before it is brought into the range of
the draw.  FREE VALUE: no statement may rest on what it is (log 3). -/
opaque freeDraw : Nat → Nat

/-- The level found on a key input that nothing drives and no pull holds (08 R165, Note: a floating input).
FREE VALUE (log 13). -/
opaque freeLevel : Nat → Bool

end Sys2Proof.Config
end

