-- ==== Sys2Proof/Machine/Settings.lean ====
section
/-! DEFINITION. The settings table of 10 R190: defaults, zones, ranges, and the value each block reads. -/

namespace Sys2Proof.Machine

/-- The built-in defaults (10 R190; the cadence values 08 R161, in the order of settings 64 to 95). -/
def Settings.defaults : Settings where
  slotTime := 2
  cwMin := 8
  cwMax := 256
  portTimeout := 50
  offerMin := 2
  offerMax := 64
  redundancy := 2
  gapFillDelay := 10
  tagSeedHigh := 0
  tagSeedLow := 0
  reportStep := 4
  reportSpread := 4
  standHold := 1500
  collectionWindow := 8
  contributorGuard := 40
  uplinkTimeout := 20
  areaCheck := 1
  queryTimeout := 3
  assemblyTimeout := 90
  huskHold := 3600
  precedences := [6, 5, 4, 4, 3, 2, 1]
  profiles := [3, 3, 2, 2, 1, 1, 0]
  cadence := [10, 80, 20, 10, 10, 50, 50, 10, 10, 50, 50, 8, 10, 50, 50, 8,
    10, 30, 70, 4, 10, 30, 70, 4, 0, 0, 0, 0, 10, 40, 60, 1]
  toneMode := 1
  buzzMode := 1
  ackActive := 0
  ackPull := 1
  silenceActive := 0
  silencePull := 1

/-- The zone of a setting number; none when it names no setting (10 R190). -/
def settingZone (n : Nat) : Option Nat :=
  if 1 ≤ n ∧ n ≤ 10 then some 1
  else if 16 ≤ n ∧ n ≤ 21 then some 2
  else if 32 ≤ n ∧ n ≤ 35 then some 3
  else if 48 ≤ n ∧ n ≤ 61 then some 4
  else if 64 ≤ n ∧ n ≤ 101 then some 4
  else none

/-- A value lies between two ends, both included. -/
def within (lo hi v : Nat) : Bool := lo ≤ v && v ≤ hi

/-- The value is in the setting's range (10 R190).  The tests that join settings 5 and 6 are in `Settings.accepts`. -/
def settingInRange (n v : Nat) : Bool :=
  match n with
  | 1 => within 1 8 v
  | 2 => v == 4 || v == 8 || v == 16 || v == 32
  | 3 => v == 64 || v == 128 || v == 256 || v == 512
  | 4 => within 10 500 v
  | 5 => within 1 16 v
  | 6 => within 8 512 v
  | 7 => within 1 8 v
  | 8 => within 2 60 v
  | 9 => within 0 65535 v
  | 10 => within 0 65535 v
  | 16 => within 1 30 v
  | 17 => within 1 30 v
  | 18 => within 200 5000 v
  | 19 => within 2 60 v
  | 20 => within 10 300 v
  | 21 => within 5 120 v
  | 32 => within 0 1 v
  | 33 => within 1 30 v
  | 34 => within 30 600 v
  | 35 => within 60 65535 v
  | 96 => within 0 2 v
  | 97 => within 0 2 v
  | 98 => within 0 1 v
  | 99 => within 0 2 v
  | 100 => within 0 1 v
  | 101 => within 0 2 v
  | _ =>
    if 48 ≤ n ∧ n ≤ 54 then within 1 6 v
    else if 55 ≤ n ∧ n ≤ 61 then within 0 3 v
    else if 64 ≤ n ∧ n ≤ 95 then
      if (n - 64) % 4 = 0 ∨ (n - 64) % 4 = 3 then within 0 255 v else within 0 4095 v
    else false

/-- A record is loaded, not skipped: its setting is in the table and in the zone being read, its value in range, and
the two tests that join settings 5 and 6 hold against their current values (10 R188). -/
def Settings.accepts (s : Settings) (zone n v : Nat) : Bool :=
  settingZone n == some zone && settingInRange n v && !(n == 6 && v < s.offerMin) && !(n == 5 && s.offerMax < v)

/-- The value becomes the setting's current value (10 R188). -/
def Settings.load (s : Settings) (n v : Nat) : Settings :=
  match n with
  | 1 => { s with slotTime := v }
  | 2 => { s with cwMin := v }
  | 3 => { s with cwMax := v }
  | 4 => { s with portTimeout := v }
  | 5 => { s with offerMin := v }
  | 6 => { s with offerMax := v }
  | 7 => { s with redundancy := v }
  | 8 => { s with gapFillDelay := v }
  | 9 => { s with tagSeedHigh := v }
  | 10 => { s with tagSeedLow := v }
  | 16 => { s with reportStep := v }
  | 17 => { s with reportSpread := v }
  | 18 => { s with standHold := v }
  | 19 => { s with collectionWindow := v }
  | 20 => { s with contributorGuard := v }
  | 21 => { s with uplinkTimeout := v }
  | 32 => { s with areaCheck := v }
  | 33 => { s with queryTimeout := v }
  | 34 => { s with assemblyTimeout := v }
  | 35 => { s with huskHold := v }
  | 96 => { s with toneMode := v }
  | 97 => { s with buzzMode := v }
  | 98 => { s with ackActive := v }
  | 99 => { s with ackPull := v }
  | 100 => { s with silenceActive := v }
  | 101 => { s with silencePull := v }
  | _ =>
    if 48 ≤ n ∧ n ≤ 54 then { s with precedences := s.precedences.set (n - 48) v }
    else if 55 ≤ n ∧ n ≤ 61 then { s with profiles := s.profiles.set (n - 55) v }
    else if 64 ≤ n ∧ n ≤ 95 then { s with cadence := s.cadence.set (n - 64) v }
    else s

/-- The tag seed: settings 9 and 10 as the upper and the lower 16 bits (04 R73). -/
def Settings.tagSeed (s : Settings) : Word32 := BitVec.ofNat 16 s.tagSeedHigh ++ BitVec.ofNat 16 s.tagSeedLow

/-- The configured precedence of a category: its setting, or 7 for NATIONAL (07 section 7.1). -/
def Settings.configured (s : Settings) (c : Category) : Nat :=
  match c with
  | .national => 7
  | .extreme => s.precedences.getD 0 0
  | .severe => s.precedences.getD 1 0
  | .safety => s.precedences.getD 2 0
  | .missingPerson => s.precedences.getD 3 0
  | .advisory => s.precedences.getD 4 0
  | .exercise => s.precedences.getD 5 0
  | .test => s.precedences.getD 6 0

/-- The profile mapped from a precedence 1..7 (08 R162). -/
def Settings.profileOf (s : Settings) (precedence : Nat) : Nat := s.profiles.getD (precedence - 1) 0

/-- Value `v` (0 prescale, 1 on-time, 2 off-time, 3 bursts) of an output in a profile (08 R161). -/
def Settings.cadenceValue (s : Settings) (profile : Nat) (o : Output) (v : Nat) : Nat :=
  s.cadence.getD (8 * profile + (match o with
    | .tone => 0
    | .buzz => 4) + v) 0

/-- The output is enabled in the profile: prescale, on-time and off-time are not 0 (08 R161). -/
def Settings.enabled (s : Settings) (profile : Nat) (o : Output) : Bool :=
  s.cadenceValue profile o 0 != 0 && s.cadenceValue profile o 1 != 0 && s.cadenceValue profile o 2 != 0

/-- The output is counted in the profile: enabled, with bursts 1..255 (08 R161). -/
def Settings.counted (s : Settings) (profile : Nat) (o : Output) : Bool :=
  s.enabled profile o && s.cadenceValue profile o 3 != 0

/-- The length of the on period in ms (08 R161). -/
def Settings.onLength (s : Settings) (profile : Nat) (o : Output) : Nat :=
  s.cadenceValue profile o 1 * s.cadenceValue profile o 0

/-- The length of the off period in ms (08 R161). -/
def Settings.offLength (s : Settings) (profile : Nat) (o : Output) : Nat :=
  s.cadenceValue profile o 2 * s.cadenceValue profile o 0

/-- A key's active level is HIGH (08 R165). -/
def Settings.activeHigh (s : Settings) : KeyName → Bool
  | .ack => s.ackActive == 1
  | .silence => s.silenceActive == 1

/-- A key's pull: 0 NONE, 1 UP, 2 DOWN (08 R165, 10 R190). -/
def Settings.pull (s : Settings) : KeyName → Nat
  | .ack => s.ackPull
  | .silence => s.silencePull

end Sys2Proof.Machine
end

