-- ==== Sys2Proof/Machine/State.lean ====
section
/-! DEFINITION. The state of the S2140, as plain data, and the state right after reset. -/

namespace Sys2Proof.Machine

/-- The reasons the machine could stop with a fault.  It has NO constructor: the part never stops (its fault flags
are state, 10 R193), so no command faults (log 18).  Safe: every command answers a next state. -/
inductive Fault where
  deriving DecidableEq, Repr

/-- The reasons a command could be refused. -/
inductive Refusal where
  /-- Raised by an arm of `exec` whose command has no meaning yet.  No arm raises it: every row is modelled.  Safe. -/
  | notModelled (mnemonic : String)
  deriving DecidableEq, Repr

/-- An empty segment map: 16 empty positions (01 R2). -/
def emptyMap : List (Option Nat) := List.replicate 16 none

/-- A FREE entry of a given generation: every other field absent, empty, zero or false (01 R2). -/
def Entry.freed (generation : Byte) : Entry where
  state := .free
  generation := generation
  issue := none
  kind := none
  category := none
  total := 0
  provisional := false
  map := emptyMap
  bodyCheck := none
  checkFailures := 0
  expandedLength := none
  issueTime := none
  duration := none
  areas := []
  verdict := .undecided
  heardBroadcast := false
  heardRelay := false
  lastFragment := none
  takenAt := none
  deadline := none
  closureReason := none
  closureTime := none
  heldWhenAcknowledged := false
  followsAcknowledged := false
  replaces := none
  assemblyTimer := none
  precedence := none
  stamp := none
  claimSlot := none
  sounded := false
  offer := none
  want := none

/-- Everything the spec gives the part, and the queue of commands that wait. -/
structure State where
  /-- Time Base -/
  tb : TimeBase
  /-- Settings Loader -/
  sl : Loader
  settings : Settings
  /-- Alert Table -/
  table : List Entry
  /-- Body Store: the slots' payloads and the free list -/
  store : Memory
  free : List Nat
  /-- Area Resolver -/
  ar : Resolver
  /-- Channel Station -/
  cs : Station
  /-- Report Unit -/
  ru : Report
  /-- Presentation Unit -/
  pu : Presentation
  /-- Attention Unit -/
  au : Attention
  /-- Modem Link -/
  ml : ModemLink
  /-- Application Link -/
  al : AppLink
  flags : FaultFlags
  counters : Counters
  /-- the commands waiting, first in, first out -/
  pending : List Instr
  deriving DecidableEq, Repr

/-- Every fault flag clear (10 R193). -/
def FaultFlags.clear : FaultFlags := ⟨false, false, false, false, false, false, false, false, false⟩

/-- Every counter 0 (10 R193). -/
def Counters.zero : Counters := ⟨0, 0, 0, 0, 0, 0, 0, 0, 0, 0, 0, 0, 0⟩

/-- A key that nothing drives, not active, its debounce timer stopped (log 6). -/
def KeyState.atReset : KeyState := ⟨.nothing, true, false, none⟩

/-- The part right after power-on, start-up running (10 R184), with nothing waiting.  What the spec leaves open is in
log 3 (draws), 5 (tag), 6 (outside lines), 7 (store contents), 21 (gap timers), 31 (cell id and code of the invalid cache
entries), 36 (the noted HELLO), 38 (the application link's framer). -/
def State.reset : State where
  tb := { uptime := 0, milli := 0, alertClock := none, draws := [], drawn := 0 }
  sl := { phase := .probing, zones := [], address := 0, check := 0xFFFF#16 }
  settings := Settings.defaults
  table := List.replicate 32 (Entry.freed 0)
  store := List.replicate 160 []
  free := List.range 160
  ar := { cell := 0, service := .none, quality := 0, cache := List.replicate 8 ⟨false, 0, 0⟩, queryTimer := none
          waiting := [] }
  cs := { port := .down, ready := false, busy := false, tag := 0, tagMarked := false, echo := [], control := []
          bulk := [], contender := none, inFlight := none, guardEnd := none, cw := 8, controlRun := 0
          timeoutRun := 0 }
  ru := { tallies := List.replicate 8 none, deferred := [], uplinkQueue := [] }
  pu := { threshold := 0, optout := 0, slots := List.replicate 4 none, notices := [] }
  au := { owner := none, cadence := none, ack := KeyState.atReset, silence := KeyState.atReset }
  ml := { framer := .idle, lastByte := 0, partReady := false, modemReady := false, hold := [], sending := none
          queryMarker := none, uplinkMarker := none, helloBegan := none }
  al := { framer := .idle, lastByte := 0, buffer := .empty, held := none }
  flags := FaultFlags.clear
  counters := Counters.zero
  pending := []

end Sys2Proof.Machine
end

