-- ==== Sys2Proof/Machine/Ops.lean ====
section
/-! DEFINITION. The named operations over State that every block uses: one update per field, time and timers, random
draws, the entries of the Alert Table, the store slots. -/

namespace Sys2Proof.Machine

/-! ### One update per field -/

/-- The state with another `tb`. -/
def State.withTb (s : State) (x : TimeBase) : State := { s with tb := x }

/-- The state with another `sl`. -/
def State.withSl (s : State) (x : Loader) : State := { s with sl := x }

/-- The state with another `settings`. -/
def State.withSettings (s : State) (x : Settings) : State := { s with settings := x }

/-- The state with another `table`. -/
def State.withTable (s : State) (x : List Entry) : State := { s with table := x }

/-- The state with another `store`. -/
def State.withStore (s : State) (x : Memory) : State := { s with store := x }

/-- The state with another `free`. -/
def State.withFree (s : State) (x : List Nat) : State := { s with free := x }

/-- The state with another `ar`. -/
def State.withAr (s : State) (x : Resolver) : State := { s with ar := x }

/-- The state with another `cs`. -/
def State.withCs (s : State) (x : Station) : State := { s with cs := x }

/-- The state with another `ru`. -/
def State.withRu (s : State) (x : Report) : State := { s with ru := x }

/-- The state with another `pu`. -/
def State.withPu (s : State) (x : Presentation) : State := { s with pu := x }

/-- The state with another `au`. -/
def State.withAu (s : State) (x : Attention) : State := { s with au := x }

/-- The state with another `ml`. -/
def State.withMl (s : State) (x : ModemLink) : State := { s with ml := x }

/-- The state with another `al`. -/
def State.withAl (s : State) (x : AppLink) : State := { s with al := x }

/-- The state with another `flags`. -/
def State.withFlags (s : State) (x : FaultFlags) : State := { s with flags := x }

/-- The state with another `counters`. -/
def State.withCounters (s : State) (x : Counters) : State := { s with counters := x }

/-- The state with another `pending`. -/
def State.withPending (s : State) (x : List Instr) : State := { s with pending := x }

/-! ### Time (10 R191) -/

/-- The time in ms since power-on: the uptime x 1,000 plus the millisecond (10 R191). -/
def TimeBase.ms (b : TimeBase) : Nat := b.uptime * 1000 + b.milli

/-- The last ms the part can count: the uptime counter stops at 4,294,967,295 (10 R191; log 9). -/
def lastMs : Nat := 4294967295 * 1000 + 999

/-- Time runs on to `t` ms, where that is later and can be counted; the alert clock, once set, advances by the seconds
the uptime counter advances by (09 R176, 10 R191). -/
def TimeBase.runTo (b : TimeBase) (t : Nat) : TimeBase :=
  if b.ms < t ∧ t ≤ lastMs then
    { b with uptime := t / 1000, milli := t % 1000, alertClock := b.alertClock.map (· + (t / 1000 - b.uptime)) }
  else b

/-- The time in ms. -/
def State.now (s : State) : Nat := s.tb.ms

/-- The uptime in seconds. -/
def State.uptime (s : State) : Nat := s.tb.uptime

/-- Time runs on to `t` ms. -/
def State.runTo (s : State) (t : Nat) : State := s.withTb (s.tb.runTo t)

/-- A timer that ends at `t` ms runs out: time runs on to its end, and the block acts.  Nothing happens where that
moment cannot be reached (log 2). -/
def State.runsOut (s : State) (t : Nat) (act : State → State) : State :=
  if t ≤ (s.runTo t).now then act (s.runTo t) else s

/-- Start-up has finished (10 R185). -/
def State.started (s : State) : Bool := s.sl.phase == .finished

/-! ### Random draws (10 R192; log 3) -/

/-- The raw value the random source gives next. -/
def TimeBase.raw (b : TimeBase) : Nat :=
  match b.draws with
  | [] => Config.freeDraw b.drawn
  | x :: _ => x

/-- The source after one draw. -/
def TimeBase.afterDraw (b : TimeBase) : TimeBase := { b with draws := b.draws.tail, drawn := b.drawn + 1 }

/-- A draw in 0..n − 1. -/
def State.draw (s : State) (n : Nat) : Nat := s.tb.raw % n

/-- The state after one draw. -/
def State.drew (s : State) : State := s.withTb s.tb.afterDraw

/-! ### Entries (01) -/

/-- The entry at an index; a FREE one where the table has none. -/
def State.entry (s : State) (i : Nat) : Entry := s.table.getD i (Entry.freed 0)

/-- The entry at an index is replaced. -/
def State.setEntry (s : State) (i : Nat) (e : Entry) : State := s.withTable (s.table.set i e)

/-- The entry at an index is changed. -/
def State.modEntry (s : State) (i : Nat) (f : Entry → Entry) : State := s.setEntry i (f (s.entry i))

/-- The entry belongs to the key (FREE entries belong to none, 02 section 2.2). -/
def Entry.ofKey (e : Entry) (k : Key) : Bool :=
  match e.issue with
  | some i => e.state != .free && i.key == k
  | none => false

/-- The entry holds this issuance. -/
def Entry.ofIssue (e : Entry) (i : Issue) : Bool := e.state != .free && e.issue == some i

/-- The entry's revision; 0 where it has none. -/
def Entry.revision (e : Entry) : Nat :=
  match e.issue with
  | some i => i.revision.toNat
  | none => 0

/-- Complete: LOCATING, OUTSIDE, PENDING, CLAIMED, SHOWN or CLOSED (02 section 2.2). -/
def Entry.isComplete (e : Entry) : Bool :=
  match e.state with
  | .free => false
  | .assembling => false
  | .locating => true
  | .outside => true
  | .pending => true
  | .claimed => true
  | .shown => true
  | .closed => true

/-- CLAIMED or SHOWN: the host holds the alert or has shown it. -/
def Entry.isHeld (e : Entry) : Bool := e.state == .claimed || e.state == .shown

/-- A CLOSED(CANCELLED) entry (01 R27). -/
def Entry.isTombstone (e : Entry) : Bool := e.state == .closed && e.closureReason == some .cancelled

/-- The store slots the map names, in ascending order of position. -/
def Entry.slots (e : Entry) : List Nat := e.map.filterMap id

/-- The map position of an index below the total names a slot (05 R99). -/
def Entry.holdsIndex (e : Entry) (index : Nat) : Bool := index < e.total && (e.map.getD index none).isSome

/-- The body is held: every position below the total names a slot (01 R4). -/
def Entry.bodyHeld (e : Entry) : Bool := 0 < e.total && (List.range e.total).all fun k => (e.map.getD k none).isSome

/-- A husk: CLOSED with its body not held (01 R4). -/
def Entry.isHusk (e : Entry) : Bool := e.state == .closed && !e.bodyHeld

/-- Sources heard are exactly RELAY (01 R4). -/
def Entry.relayedOnly (e : Entry) : Bool := e.heardRelay && !e.heardBroadcast

/-- The wanted-index map of the indexes below the total whose position is empty (05 R97, R103). -/
def Entry.missing (e : Entry) : Word16 :=
  (List.range 16).foldl
    (fun w k => if k < e.total ∧ (e.map.getD k none).isNone then w ||| (1#16 <<< k) else w) 0#16

/-- The handle of an entry as it stands (01 R3). -/
def State.handle (s : State) (i : Nat) : Handle := ⟨i, (s.entry i).generation⟩

/-- The indexes whose entries pass a test, ascending. -/
def State.indexes (s : State) (p : Entry → Bool) : List Nat :=
  (List.range s.table.length).filter fun i => p (s.entry i)

/-- The lowest index whose entry passes a test. -/
def State.findEntry (s : State) (p : Entry → Bool) : Option Nat := s.table.findIdx? p

/-- Ranks are compared by their first part, then by their second. -/
def rankLess (a b : Nat × Nat) : Bool := a.1 < b.1 || (a.1 == b.1 && a.2 < b.2)

/-- Among the elements that have a rank, the place of the one with the least rank, ties going to the lowest place. -/
def leastFrom {α : Type} (rank : α → Option (Nat × Nat)) : Nat → List α → Option (Nat × (Nat × Nat))
  | _, [] => none
  | i, x :: xs =>
    match rank x, leastFrom rank (i + 1) xs with
    | none, r => r
    | some k, none => some (i, k)
    | some k, some (j, l) => if rankLess l k then some (j, l) else some (i, k)

/-- The index of the entry of least rank, ties going to the lowest index. -/
def State.leastEntry (s : State) (rank : Entry → Option (Nat × Nat)) : Option Nat :=
  (leastFrom rank 0 s.table).map (·.1)

/-! ### Store slots (02 R40) -/

/-- The payload in a slot. -/
def Memory.read (m : Memory) (slot : Nat) : List Byte := m.getD slot []

/-- A payload is written into a slot, which holds up to 48 bytes. -/
def Memory.write (m : Memory) (slot : Nat) (payload : List Byte) : Memory := m.set slot (payload.take 48)

/-- The one form the store is held in: 160 slots of at most 48 bytes (02 R40). -/
def Memory.wf (m : Memory) : Bool := m.length == 160 && m.all fun p => decide (p.length ≤ 48)

end Sys2Proof.Machine
end

