-- ==== Sys2Proof/Machine/Flags.lean ====
section
/-! DEFINITION. The nine fault flags and thirteen counters (10 R193), how they are set and advanced, and how STATUS
lays them out (11.5). -/

namespace Sys2Proof.Machine

/-- The flag is set. -/
def FaultFlags.set (f : FaultFlags) : Flag → FaultFlags
  | .configDefaulted => { f with configDefaulted := true }
  | .configCrc => { f with configCrc := true }
  | .queryTimeout => { f with queryTimeout := true }
  | .uplinkTimeout => { f with uplinkTimeout := true }
  | .radioFault => { f with radioFault := true }
  | .tagClash => { f with tagClash := true }
  | .noticeLost => { f with noticeLost := true }
  | .storeFull => { f with storeFull := true }
  | .tableFull => { f with tableFull := true }

/-- A counter advances by one and stays at 65,535 (10 R193). -/
def bump (n : Nat) : Nat := if n < 65535 then n + 1 else n

/-- The counter advances. -/
def Counters.advance (c : Counters) : Counter → Counters
  | .malformed => { c with malformed := bump c.malformed }
  | .stale => { c with stale := bump c.stale }
  | .duplicate => { c with duplicate := bump c.duplicate }
  | .inconsistent => { c with inconsistent := bump c.inconsistent }
  | .checkFail => { c with checkFail := bump c.checkFail }
  | .queueFull => { c with queueFull := bump c.queueFull }
  | .linkError => { c with linkError := bump c.linkError }
  | .lateResult => { c with lateResult := bump c.lateResult }
  | .idleKey => { c with idleKey := bump c.idleKey }
  | .configSkipped => { c with configSkipped := bump c.configSkipped }
  | .fragmentsTaken => { c with fragmentsTaken := bump c.fragmentsTaken }
  | .framesSent => { c with framesSent := bump c.framesSent }
  | .framesLost => { c with framesLost := bump c.framesLost }

/-- A cause of the fault flag occurs (10 R193). -/
def State.flag (s : State) (f : Flag) : State := s.withFlags (s.flags.set f)

/-- A cause of the counter occurs (10 R193). -/
def State.count (s : State) (c : Counter) : State := s.withCounters (s.counters.advance c)

/-- The fault flags as STATUS sends them: bit 0 CONFIG_DEFAULTED to bit 8 TABLE_FULL (11.5). -/
def FaultFlags.word (f : FaultFlags) : Nat :=
  (if f.configDefaulted then 1 else 0) + (if f.configCrc then 2 else 0) + (if f.queryTimeout then 4 else 0)
    + (if f.uplinkTimeout then 8 else 0) + (if f.radioFault then 16 else 0) + (if f.tagClash then 32 else 0)
    + (if f.noticeLost then 64 else 0) + (if f.storeFull then 128 else 0) + (if f.tableFull then 256 else 0)

/-- The counters in the order of 07 R149, as STATUS sends them (11.5). -/
def Counters.inOrder (c : Counters) : List Nat :=
  [c.malformed, c.stale, c.duplicate, c.inconsistent, c.checkFail, c.queueFull, c.linkError, c.lateResult, c.idleKey,
    c.configSkipped, c.fragmentsTaken, c.framesSent, c.framesLost]

end Sys2Proof.Machine
end

