-- ==== Sys2Proof/Machine/Channel.lean ====
section
/-! DEFINITION. The Channel Station's shared operations (04): the tag, the queues, merging and removal, the contender,
the hand-over. -/

namespace Sys2Proof.Machine

/-! ### Availability and the tag -/

/-- The channel is available while the port is UP (04 R72). -/
def State.channelUp (s : State) : Bool := s.cs.port == .up

/-- A tag the draw may keep: not 0, not 0xFFFFFFFF, not the tag being replaced (04 R73, R75). -/
def tagAllowed (old t : Word32) : Bool := tagGood t && t != old

/-- How many tags the draw may keep. -/
def allowedTags (old : Word32) : Nat := if tagGood old then 4294967293 else 4294967294

/-- The `i`-th of the tags the draw may keep, in ascending order. -/
def nthTag (old : Word32) (i : Nat) : Word32 :=
  if tagGood old ∧ old.toNat ≤ i + 1 then BitVec.ofNat 32 (i + 2) else BitVec.ofNat 32 (i + 1)

/-- The tag drawn: a 32-bit random value combined with the tag seed by exclusive or; when that is thrown away, the
draw made again until it is kept, which is one draw over the tags that may be kept (04 R73, R75; log 4). -/
def State.newTag (s : State) : Word32 :=
  let first := BitVec.ofNat 32 (s.draw 4294967296) ^^^ s.settings.tagSeed
  if tagAllowed s.cs.tag first then first else nthTag s.cs.tag (s.drew.draw (allowedTags s.cs.tag))

/-- The random source after the tag's draws. -/
def State.afterTagDraw (s : State) : State :=
  if tagAllowed s.cs.tag (BitVec.ofNat 32 (s.draw 4294967296) ^^^ s.settings.tagSeed) then s.drew else s.drew.drew

/-- The new station tag is drawn, and no draw is marked any more (04 R73, R75). -/
def State.drawTag (s : State) : State :=
  s.afterTagDraw.withCs { s.afterTagDraw.cs with tag := s.newTag, tagMarked := false }

/-! ### Queues (04 R78) -/

/-- The queue a frame goes to. -/
def Payload.queue : Payload → Queue
  | .piece .. => .bulk
  | .offer .. => .control
  | .want .. => .control
  | .tally .. => .control
  | .stand .. => .control
  | .covered .. => .control
  | .yield .. => .control

/-- The frames waiting in a queue. -/
def Station.waiting (c : Station) : Queue → List Payload
  | .control => c.control
  | .bulk => c.bulk

/-- The frames waiting in a queue are replaced. -/
def Station.setWaiting (c : Station) : Queue → List Payload → Station
  | .control, l => { c with control := l }
  | .bulk, l => { c with bulk := l }

/-- The capacity of a queue. -/
def Queue.capacity : Queue → Nat
  | .control => 8
  | .bulk => 24

/-- How many frames may wait: the frame in flight counts against its queue until it is answered. -/
def Station.room (c : Station) (q : Queue) : Nat :=
  match c.inFlight with
  | some f => if f.payload.queue = q then q.capacity - 1 else q.capacity
  | none => q.capacity

/-- Two frames have the same merge identity (04 R78). -/
def Payload.sameIdentity : Payload → Payload → Bool
  | .piece i k _, .piece i' k' _ => i == i' && k == k'
  | .covered i l p _, .covered i' l' p' _ => i == i' && l == l' && p == p'
  | .offer i _ _, .offer i' _ _ => i == i'
  | .want i _, .want i' _ => i == i'
  | .tally i _, .tally i' _ => i == i'
  | .stand i _ _, .stand i' _ _ => i == i'
  | .yield i, .yield i' => i == i'
  | _, _ => false

/-- A waiting frame merged with a new one: the union of two WANT maps, the waiting PIECE, else the new body (04 R79). -/
def Payload.merge (waiting new : Payload) : Payload :=
  match waiting, new with
  | .want i m, .want _ m' => .want i (m ||| m')
  | .piece i k r, _ => .piece i k r
  | _, p => p

/-- A lost frame merged with one of its identity queued meanwhile: the union of two WANT maps, else the queued frame's
contents (04 R85). -/
def Payload.mergeLost (lost queued : Payload) : Payload :=
  match lost, queued with
  | .want _ m, .want i m' => .want i (m ||| m')
  | _, p => p

/-! ### The contender and the hand-over (04 R82, R83) -/

/-- The echo list with one more item: the last four frames handed over (04 R74). -/
def pushEcho (l : List EchoItem) (e : EchoItem) : List EchoItem := (if l.length < 4 then l else l.tail) ++ [e]

/-- The control run after a hand-over (04 R82). -/
def nextRun (run : Nat) : Queue → Nat
  | .control => if run < 4 then run + 1 else 4
  | .bulk => 0

/-- The head of a queue is handed over: header and check are filled in with the tag of this moment, it becomes the
frame in flight, joins the echo list and starts the port timer (04 R76, R83). -/
def State.handOver (s : State) (q : Queue) : State :=
  match s.cs.waiting q with
  | [] => s.withCs { s.cs with contender := none }
  | p :: rest =>
    let c := s.cs.setWaiting q rest
    s.withCs { c with
      contender := none
      inFlight := some { payload := p, withdrawn := false, timerEnd := s.now + s.settings.portTimeout
                         wire := frameBytes p.kind s.cs.tag p.body }
      echo := pushEcho s.cs.echo ⟨s.cs.tag, p.kind, frameCheck p.kind s.cs.tag p.body⟩
      controlRun := nextRun s.cs.controlRun q }

/-- The contender may go at once: its count is 0, BUSY is low, the late-answer guard is not running (04 R83). -/
def Station.mayGo (c : Station) : Bool :=
  match c.contender with
  | some k => c.port == .up && c.inFlight.isNone && k.count == 0 && !c.busy && c.guardEnd.isNone
  | none => false

/-- The contender is handed over where it may go at once. -/
def State.tryHandOver (s : State) : State :=
  if s.cs.mayGo then
    match s.cs.contender with
    | some k => s.handOver k.queue
    | none => s
  else s

/-- The head of a queue becomes the contender and draws its backoff count in 0..CW − 1; counting begins where BUSY is
low, and a count of 0 goes at once where it may (04 R82, R83). -/
def State.contend (s : State) (q : Queue) : State :=
  let count := s.draw s.cs.cw
  let slotEnd := if count = 0 ∨ s.cs.busy then none else some (s.now + s.settings.slotTime)
  (s.drew.withCs { s.cs with contender := some ⟨q, count, slotEnd⟩ }).tryHandOver

/-- The queue the arbiter chooses from (04 R82). -/
def Station.choice (c : Station) : Option Queue :=
  if c.controlRun = 4 ∧ c.bulk ≠ [] then some .bulk
  else if c.control ≠ [] then some .control
  else if c.bulk ≠ [] then some .bulk
  else none

/-- The arbiter: a contender is chosen when the port is UP, no frame is in flight, no contender stands, and a frame
waits (04 R82). -/
def State.arbitrate (s : State) : State :=
  if s.cs.port = .up ∧ s.cs.inFlight = none ∧ s.cs.contender = none then
    match s.cs.choice with
    | some q => s.contend q
    | none => s
  else s

/-! ### Requests to queue and to remove (04 R79 to R81) -/

/-- CS's answer to a request to queue a frame (04 R72, R79). -/
def State.answerTo (s : State) (p : Payload) : Answer :=
  if s.cs.port ≠ .up then .unavailable
  else if (s.cs.waiting p.queue).any (fun w => w.sameIdentity p) then .merged
  else if s.cs.room p.queue ≤ (s.cs.waiting p.queue).length then .full
  else .queued

/-- A request to queue a frame is refused, merged in place, refused as full and counted, or queued at the tail
(04 R72, R79, R80). -/
def State.request (s : State) (p : Payload) : State :=
  match s.answerTo p with
  | .unavailable => s
  | .merged =>
    s.withCs (s.cs.setWaiting p.queue
      ((s.cs.waiting p.queue).map fun w => if w.sameIdentity p then w.merge p else w))
  | .full => s.count .queueFull
  | .queued => (s.withCs (s.cs.setWaiting p.queue (s.cs.waiting p.queue ++ [p]))).arbitrate

/-- The frame is one of our PIECE frames for this issuance, at the index where one is named. -/
def Payload.isPieceOf (i : Issue) (index : Option Nat) : Payload → Bool
  | .piece i' k _ => i' == i && (match index with
    | some n => k == n
    | none => true)
  | _ => false

/-- The contender is a bulk frame that the removal names. -/
def Station.contenderNamed (c : Station) (i : Issue) (index : Option Nat) : Bool :=
  match c.contender, c.bulk with
  | some k, p :: _ => k.queue == .bulk && p.isPieceOf i index
  | _, _ => false

/-- PIECE frames of an issuance leave the bulk queue, at one index or at every index; one in flight is marked
withdrawn; a removed contender gives up its count and the arbiter chooses anew (04 R81). -/
def State.removePieces (s : State) (i : Issue) (index : Option Nat) : State :=
  (s.withCs { s.cs with
    bulk := s.cs.bulk.filter fun p => !p.isPieceOf i index
    inFlight := s.cs.inFlight.map fun f => if f.payload.isPieceOf i index then { f with withdrawn := true } else f
    contender := if s.cs.contenderNamed i index then none else s.cs.contender }).arbitrate

/-! ### Lost frames (04 R85) -/

/-- CW after a loss: doubled, up to CWmax (04 R86). -/
def doubledWindow (cw most : Nat) : Nat := min (2 * cw) most

/-- Where a lost frame goes: merged with a waiting frame of its identity that moves to the head, or back to the head
itself (04 R85). -/
def requeued (waiting : List Payload) (lost : Payload) : List Payload :=
  match waiting.find? (fun w => lost.sameIdentity w) with
  | some w => lost.mergeLost w :: waiting.filter (fun v => !lost.sameIdentity v)
  | none => lost :: waiting

/-- A lost frame that is not withdrawn goes back to the head of its queue; a withdrawn one is discarded (04 R85). -/
def State.putBack (s : State) (f : InFlight) : State :=
  let c := { s.cs with inFlight := none }
  if f.withdrawn then s.withCs c
  else s.withCs (c.setWaiting f.payload.queue (requeued (c.waiting f.payload.queue) f.payload))

/-- After a loss with the port UP: the frame put back is the contender, and draws under the doubled CW; where it was
discarded, the arbiter chooses (04 R85). -/
def State.contendAfterLoss (s : State) (f : InFlight) : State :=
  if f.withdrawn then s.arbitrate else s.contend f.payload.queue

end Sys2Proof.Machine
end

