-- ==== Sys2Proof/Machine/Records.lean ====
section
/-! DEFINITION. The Relay Scheduler's offer records and want records (05 R89 to R93, R101, R103). -/

namespace Sys2Proof.Machine

/-- A new offer interval of the given length begins now: the offer point is drawn in its second half, the heard count
is cleared (05 R90). -/
def State.beginInterval (s : State) (i interval : Nat) : State :=
  s.drew.modEntry i fun e =>
    { e with offer := some { interval := interval, start := s.now
                             point := interval * 500 + s.draw (interval * 500), pointPassed := false, heard := 0 } }

/-- The offer record starts (05 R89) or is reset (05 R93): the interval is the offer interval min, and begins now. -/
def State.startOffer (s : State) (i : Nat) : State := s.beginInterval i s.settings.offerMin

/-- A reset of the entry's offer record, if it has one (05 R93). -/
def State.resetOffer (s : State) (i : Nat) : State :=
  match (s.entry i).offer with
  | some _ => s.startOffer i
  | none => s

/-- One more OFFER heard, in the entry's offer record if it has one; the count saturates at 255 (05 R89, R95). -/
def State.heardOffer (s : State) (i : Nat) : State :=
  s.modEntry i fun e => { e with offer := e.offer.map fun r => { r with heard := if r.heard < 255 then r.heard + 1 else 255 } }

/-- The end of a gap-fill timer that starts now (05 R101). -/
def State.gapEnd (s : State) : Nat := s.now + s.settings.gapFillDelay * 1000

/-- The want record starts: the gap-fill timer runs, no WANT sent yet (05 R101). -/
def State.startWant (s : State) (i : Nat) : State := s.modEntry i fun e => { e with want := some ⟨s.gapEnd, none⟩ }

/-- The gap-fill timer of the entry's want record is restarted (05 R101). -/
def State.restartGap (s : State) (i : Nat) : State :=
  s.modEntry i fun e => { e with want := e.want.map fun w => { w with gapEnd := s.gapEnd } }

/-- CS is asked to queue a WANT for the entry's issuance, naming the indexes it misses (05 R97, R103). -/
def State.requestWant (s : State) (i : Nat) : State :=
  match (s.entry i).issue with
  | some issue => s.request (.want issue (s.entry i).missing)
  | none => s

/-- CS is asked to queue an OFFER for the entry (05 R91). -/
def State.requestOffer (s : State) (i : Nat) : State :=
  match (s.entry i).issue, (s.entry i).category with
  | some issue, some cat => s.request (.offer issue (s.entry i).total cat)
  | _, _ => s

/-- RS is told that a WANT of this issuance has been sent: in the ASSEMBLING entry of that issuance the last WANT sent
time is set and the gap-fill timer restarted (05 R101). -/
def State.wantSent (s : State) (issue : Issue) : State :=
  match s.findEntry (fun e => e.state == .assembling && e.ofIssue issue) with
  | some i => s.modEntry i fun e => { e with want := e.want.map fun _ => ⟨s.gapEnd, some s.now⟩ }
  | none => s

/-- A WANT is held off: the last one went out within the gap-fill delay (05 R97). -/
def State.heldOff (s : State) (i : Nat) : Bool :=
  match (s.entry i).want with
  | some w => (match w.lastSent with
    | some t => s.now < t + s.settings.gapFillDelay * 1000
    | none => false)
  | none => false

/-- RS is told that the channel is available again: every offer record is reset, and each ASSEMBLING entry asks for
its missing indexes and restarts its gap-fill timer (05 R105); the model takes each in ascending index (log 12). -/
def State.relayAvailable (s : State) : State :=
  let s1 := (s.indexes fun e => e.offer.isSome).foldl (fun s i => s.resetOffer i) s
  (s1.indexes fun e => e.state == .assembling).foldl (fun s i => (s.requestWant i).restartGap i) s1

end Sys2Proof.Machine
end

