-- ==== Sys2Proof/Machine/Notices.lean ====
section
/-! DEFINITION. What the Presentation Unit keeps: claimability, the pending order, claim slots, notices, the alert
request line (07). -/

namespace Sys2Proof.Machine

/-- A category's place in an opt-out mask: bit c for category c (11.5). -/
def optedOut (mask : Byte) (c : Category) : Bool := mask.getLsbD c.code

/-- The precedence PU would give an entry of a category now: 0 when the category is opted out (07 R136). -/
def State.precedenceOf (s : State) (c : Category) : Nat :=
  if optedOut s.pu.optout c then 0 else s.settings.configured c

/-- Claimable: PENDING with its precedence above the threshold (07 R138). -/
def Entry.claimable (e : Entry) (threshold : Nat) : Bool := e.state == .pending && threshold < e.precedence.getD 0

/-- The pending order as a rank: the higher precedence, then the earlier stamp; ties go to the lower index
(07 R139). -/
def Entry.pendingRank (e : Entry) : Nat × Nat := (7 - e.precedence.getD 0, e.stamp.getD 0)

/-- The first claimable entry in the pending order (07 R143). -/
def State.firstClaimable (s : State) : Option Nat :=
  s.leastEntry fun e => if e.claimable s.pu.threshold then some e.pendingRank else none

/-- The alert request line: asserted while an entry is claimable or a notice waits; deasserted through start-up
(07 R153). -/
def State.alertRequestLine (s : State) : Bool :=
  s.started && (s.table.any (fun e => e.claimable s.pu.threshold) || !s.pu.notices.isEmpty)

/-- A notice joins the tail of the notice queue, or is lost with NOTICE_LOST set when the queue holds 16
(07 R151). -/
def State.post (s : State) (n : Notice) : State :=
  if s.pu.notices.length < 16 then s.withPu { s.pu with notices := s.pu.notices ++ [n] } else s.flag .noticeLost

/-- A notice for an entry the host holds or has shown, naming its handle as it stands (01 R8). -/
def State.postIfHeld (s : State) (i : Nat) (kind : NoticeKind) (successor : Option Nat) : State :=
  if (s.entry i).isHeld then s.post ⟨kind, s.handle i, successor⟩ else s

/-- The claim slot of an entry that leaves CLAIMED is emptied (07 R140). -/
def State.emptySlot (s : State) (i : Nat) : State :=
  match (s.entry i).claimSlot with
  | some k => s.withPu { s.pu with slots := s.pu.slots.set k none }
  | none => s

/-- The parts of an entry that PU and AU drop when it leaves PENDING, CLAIMED and SHOWN (07 R136, 08 R158). -/
def Entry.dropPresented (e : Entry) : Entry :=
  { e with precedence := none, stamp := none, claimSlot := none, sounded := false }

end Sys2Proof.Machine
end

