-- ==== Sys2Proof/Machine/Attend.lean ====
section
/-! DEFINITION. The Attention Unit's owner, cadences and pins (08). -/

namespace Sys2Proof.Machine

/-- In the attention set: claimable, CLAIMED or SHOWN (07 R155, 08 R157). -/
def Entry.inAttentionSet (e : Entry) (threshold : Nat) : Bool := e.claimable threshold || e.isHeld

/-- Eligible: in the attention set with the sounded flag clear (08 R157). -/
def Entry.eligible (e : Entry) (threshold : Nat) : Bool := e.inAttentionSet threshold && !e.sounded

/-- The first eligible entry in the pending order (08 R159). -/
def State.firstEligible (s : State) : Option Nat :=
  s.leastEntry fun e => if e.eligible s.pu.threshold then some e.pendingRank else none

/-- The owner AU would hold for the entry (08 R159). -/
def State.ownerOf (s : State) (i : Nat) : Owner := ⟨i, (s.entry i).generation, (s.entry i).precedence.getD 0⟩

/-- The entry is the owner, by index and generation (08 R156). -/
def State.isOwner (s : State) (i : Nat) : Bool :=
  match s.au.owner with
  | some o => o.index == i && o.generation == (s.entry i).generation
  | none => false

/-- An output as its cadence starts: ON where the profile enables it, else DISABLED (08 R162). -/
def State.startOutput (s : State) (profile : Nat) (o : Output) : OutputState :=
  if s.settings.enabled profile o then ⟨.on, 0, some (s.now + s.settings.onLength profile o)⟩ else ⟨.disabled, 0, none⟩

/-- The cadence of a profile, started now (08 R162). -/
def State.startCadence (s : State) (profile : Nat) : Cadence :=
  ⟨profile, s.startOutput profile .tone, s.startOutput profile .buzz⟩

/-- No output of the profile is enabled, so its cadence completes as it starts (08 R163). -/
def Settings.silent (c : Settings) (profile : Nat) : Bool := !c.enabled profile .tone && !c.enabled profile .buzz

/-- The sounded flag of an entry is set (08 R158). -/
def State.setSounded (s : State) (i : Nat) : State := s.modEntry i fun e => { e with sounded := true }

/-- The profile mapped from the precedence of an entry (08 R162). -/
def State.profileFor (s : State) (i : Nat) : Nat := s.settings.profileOf ((s.entry i).precedence.getD 0)

/-- The entry becomes the owner, and its cadence starts from the beginning (08 R160, R162). -/
def State.becomeOwner (s : State) (i : Nat) : State :=
  s.withAu { s.au with owner := some (s.ownerOf i), cadence := some (s.startCadence (s.profileFor i)) }

/-- AU re-evaluates the owner (08 R160): the same entry first goes on unchanged; another becomes owner and its cadence
starts; with none eligible the owner goes.  A cadence with no enabled output completes at once: the owner's flag is set
and the next is looked at, for at most the number of entries given. -/
def State.reevaluate : Nat → State → State
  | 0, s => s.withAu { s.au with owner := none, cadence := none }
  | n + 1, s =>
    match s.firstEligible with
    | none => s.withAu { s.au with owner := none, cadence := none }
    | some i =>
      if s.isOwner i then s
      else
        let s1 := s.becomeOwner i
        if s.settings.silent (s.profileFor i) then State.reevaluate n (s1.setSounded i) else s1

/-- PU tells AU that the attention set may have changed (07 R155, 08 R160). -/
def State.attend (s : State) : State := State.reevaluate (s.table.length + 1) s

/-- The output of a cadence. -/
def Cadence.output (c : Cadence) : Output → OutputState
  | .tone => c.tone
  | .buzz => c.buzz

/-- The output of a cadence is replaced. -/
def Cadence.setOutput (c : Cadence) : Output → OutputState → Cadence
  | .tone, x => { c with tone := x }
  | .buzz, x => { c with buzz := x }

/-- An output is active: in the ON phase of a running cadence (08 R164). -/
def State.outputActive (s : State) (o : Output) : Bool :=
  match s.au.cadence with
  | some c => (c.output o).phase == .on
  | none => false

/-- An output's mode: 0 OFF, 1 DRIVE, 2 SINK (08 R164, 10 R190). -/
def Settings.mode (c : Settings) : Output → Nat
  | .tone => c.toneMode
  | .buzz => c.buzzMode

/-- The level of an attention output pin; not driven from power-on to the end of start-up (08 R164). -/
def State.pin (s : State) (o : Output) : PinLevel :=
  if !s.started then .floating
  else match s.settings.mode o, s.outputActive o with
    | 1, true => .high
    | 1, false => .low
    | 2, true => .low
    | _, _ => .floating

/-- What a phase end makes of an output (08 R163). -/
def State.nextPhase (s : State) (profile : Nat) (o : Output) (x : OutputState) : OutputState :=
  match x.phase with
  | .on => ⟨.off, x.bursts, some (s.now + s.settings.offLength profile o)⟩
  | .off =>
    let bursts := if x.bursts < 255 then x.bursts + 1 else 255
    if s.settings.counted profile o ∧ bursts = s.settings.cadenceValue profile o 3 then ⟨.done, bursts, none⟩
    else ⟨.on, bursts, some (s.now + s.settings.onLength profile o)⟩
  | .done => x
  | .disabled => x

/-- Every counted output is DONE, and one at least is counted (08 R163). -/
def State.cadenceDone (s : State) (c : Cadence) : Bool :=
  (s.settings.counted c.profile .tone || s.settings.counted c.profile .buzz)
    && (!s.settings.counted c.profile .tone || c.tone.phase == .done)
    && (!s.settings.counted c.profile .buzz || c.buzz.phase == .done)

/-- The owner's cadence completes: its sounded flag is set and the owner is re-evaluated (08 R163). -/
def State.completeCadence (s : State) : State :=
  match s.au.owner with
  | some o => (s.setSounded o.index).attend
  | none => s

end Sys2Proof.Machine
end

