-- ==== Sys2Proof/Machine/ModemSend.lean ====
section
/-! DEFINITION. The Modem Link's sending side: hand-over, transmit hold, markers, withdrawal (09 R177, R178). -/

namespace Sys2Proof.Machine

/-- The record is a region query. -/
def ModemRecord.isQuery : ModemRecord → Bool
  | .regionQuery _ => true
  | .uplink .. => false

/-- Sending begins with the head of the hold when no record is being sent and the modem ready line is high
(09 R177); a fall of the line at the moment of a HELLO is met by `ModemLink.lineFalls` (log 36). -/
def ModemLink.trySend (m : ModemLink) : ModemLink :=
  match m.sending, m.hold with
  | none, r :: rest => if m.modemReady then { m with sending := some r, hold := rest } else m
  | _, _ => m

/-- A record is still owed to its marker: the marker names it, and no other of its kind waits in the hold (09 R177,
R178). -/
def ModemLink.owes (m : ModemLink) (r : ModemRecord) : Bool :=
  (match r with
    | .regionQuery cell => m.queryMarker == some cell
    | .uplink i _ _ => m.uplinkMarker == some i) && !m.hold.any (fun x => x.isQuery == r.isQuery)

/-- A HELLO at `now` has led from `before` to here: where it has had a record begun, that moment is noted (log 36). -/
def ModemLink.noteHello (m before : ModemLink) (now : Nat) : ModemLink :=
  if before.sending = none ∧ m.sending ≠ none then { m with helloBegan := some now } else m

/-- The modem ready line falls: a record being sent goes on to its end (09 R177), but that one which a HELLO of this
very ms had begun waits in the hold for the line (09 R179; log 36). -/
def ModemLink.lineFalls (m : ModemLink) (now : Nat) : ModemLink :=
  match m.sending with
  | some r =>
    if m.helloBegan = some now ∧ m.owes r then
      { m with modemReady := false, sending := none, hold := r :: m.hold, helloBegan := none }
    else { m with modemReady := false }
  | none => { m with modemReady := false }

/-- AR hands over a REGION_QUERY: its marker is set, it joins the tail of the hold (09 R177). -/
def State.sendQuery (s : State) (cell : Word32) : State :=
  s.withMl (ModemLink.trySend { s.ml with queryMarker := some cell, hold := s.ml.hold ++ [.regionQuery cell] })

/-- RU hands over an UPLINK: its marker is set, it joins the tail of the hold (09 R177). -/
def State.sendUplink (s : State) (i : Issue) (reporter : Word32) (items : List Item) : State :=
  s.withMl (ModemLink.trySend { s.ml with uplinkMarker := some i, hold := s.ml.hold ++ [.uplink i reporter items] })

/-- The query marker is cleared, and a query still in the hold is withdrawn (09 R178). -/
def State.clearQuery (s : State) : State :=
  s.withMl { s.ml with queryMarker := none, hold := s.ml.hold.filter fun r => !r.isQuery }

/-- The uplink marker is cleared, and an uplink still in the hold is withdrawn (09 R178). -/
def State.clearUplink (s : State) : State :=
  s.withMl { s.ml with uplinkMarker := none, hold := s.ml.hold.filter fun r => r.isQuery }

end Sys2Proof.Machine
end

