-- ==== Sys2Proof/Machine/Report.lean ====
section
/-! DEFINITION. The Report Unit's tallies: receipts, acknowledgements, the election, the digest uplink, settling and
the end of a tally (06). -/

namespace Sys2Proof.Machine

/-! ### Levels and members (06 R108, R109) -/

/-- NONE below RECEIPT below ACK. -/
def Level.rank : Level → Nat
  | .none => 0
  | .receipt => 1
  | .ack => 2

/-- The higher of two levels. -/
def Level.raise (a b : Level) : Level := if a.rank < b.rank then b else a

/-- The status of a tag: ACK when it is in the acknowledged set (06 R109). -/
def Member.status (m : Member) : Level := if m.acked then .ack else .receipt

/-- A tag is due when its covered level is below its status (06 R109). -/
def Member.due (m : Member) : Bool := m.covered.rank < m.status.rank

/-- The item that reports a member. -/
def Member.item (m : Member) : Item := ⟨m.tag, m.status⟩

/-- A tag joins the sets: an absent one joins the receipt set while it holds fewer than 64 tags, covered level NONE;
one entered as ACK is also put in the acknowledged set, and none leaves it (06 R109, R121). -/
def joinTag (ms : List Member) (tag : Word32) (acked : Bool) : List Member :=
  if ms.any (fun m => m.tag == tag) then
    ms.map fun m => if m.tag = tag then { m with acked := m.acked || acked } else m
  else if ms.length < 64 then ms ++ [⟨tag, acked, .none⟩]
  else ms

/-- The covered level of a tag rises to a level, where the set holds it (06 R122, R126). -/
def coverTag (ms : List Member) (tag : Word32) (level : Level) : List Member :=
  ms.map fun m => if m.tag = tag then { m with covered := m.covered.raise level } else m

/-- The due tags with their statuses, in set order (06 R125). -/
def Tally.dueItems (y : Tally) : List Item := (y.members.filter Member.due).map Member.item

/-- The items of our TALLY frame: the own tag with its status, then up to 15 other due tags in set order (06 R119). -/
def Tally.tallyItems (y : Tally) : List Item :=
  ((y.members.filter fun m => m.tag == y.ownTag).map Member.item)
    ++ (((y.members.filter fun m => m.due && m.tag != y.ownTag).map Member.item).take 15)

/-! ### The pool (06 R108) -/

/-- The tally of a number, absent when it is free. -/
def State.tally (s : State) (t : Nat) : Option Tally := s.ru.tallies.getD t none

/-- A tally is replaced, or freed. -/
def State.setTally (s : State) (t : Nat) (y : Option Tally) : State :=
  s.withRu { s.ru with tallies := s.ru.tallies.set t y }

/-- A tally in use is changed. -/
def State.modTally (s : State) (t : Nat) (f : Tally → Tally) : State :=
  match s.tally t with
  | some y => s.setTally t (some (f y))
  | none => s

/-- The number of the tally of an issuance. -/
def State.findTally (s : State) (i : Issue) : Option Nat :=
  s.ru.tallies.findIdx? fun y => (match y with
    | some y => y.issue == i
    | none => false)

/-- A tally in one of the states that hold back the drawing of a marked tag (04 R75, 06 R133). -/
def Tally.inRound (y : Tally) : Bool :=
  y.state == .standing || y.state == .collecting || y.state == .uplinking

/-- Some tally is in STANDING, COLLECTING or UPLINKING (04 R75, 06 R133). -/
def State.roundRuns (s : State) : Bool :=
  s.ru.tallies.any fun y => (match y with
    | some y => y.inRound
    | none => false)

/-- Reporting service: a serving cell, FULL service, and the modem ready line high (06 R115). -/
def State.reportingService (s : State) : Bool :=
  s.ar.cell != 0 && s.ar.service == .full && s.ml.modemReady

/-- The report delay a draw gives at a failure count, in ms (06 R113). -/
def State.reportDelay (s : State) (failures : Nat) : Nat :=
  (3 - s.ar.quality) * s.settings.reportStep * (failures + 1) * 1000
    + s.draw (s.settings.reportSpread * 1000 + 1)

/-- The bid of a delay: units of 10 ms, saturating at 65,535 (06 R114). -/
def bidOf (delay : Nat) : Nat := min 65535 (delay / 10)

/-- The tally enters WAITING and draws its report delay and bid (06 R113, R114). -/
def State.enterWaiting (s : State) (t : Nat) : State :=
  match s.tally t with
  | some y =>
    let delay := s.reportDelay y.failures
    s.drew.setTally t (some { y with
      state := .waiting, bid := bidOf delay, reporter := none, settleTime := none, timer := some (s.now + delay)
      digest := [] })
  | none => s

/-- The tally a receipt or a deferred item takes, before it draws its delay (06 R110, R111). -/
def freshTally (i : Issue) (tag : Word32) (level : Level) : Tally where
  issue := i
  state := .waiting
  ownTag := tag
  ownLevel := level
  reported := .none
  bid := 0
  reporter := none
  failures := 0
  superseded := false
  ended := false
  settleTime := none
  members := [⟨tag, level == .ack, .none⟩]
  timer := none
  digest := []

/-- A tally is taken for an issuance, with the station tag as its own tag at a level, and enters WAITING (06 R110). -/
def State.takeTally (s : State) (t : Nat) (i : Issue) (level : Level) : State :=
  (s.setTally t (some (freshTally i s.cs.tag level))).enterWaiting t

/-- The place of the deferred item of highest precedence, ties going to the earliest arrival (06 R112). -/
def State.deferredChoice (s : State) : Option Nat :=
  (leastFrom (fun d : Deferred => some (7 - d.precedence, 0)) 0 s.ru.deferred).map (·.1)

/-- A tally just freed is given to the deferred item chosen, if there is one (06 R112, R134). -/
def State.serveDeferred (s : State) (t : Nat) : State :=
  match s.deferredChoice with
  | some k =>
    match s.ru.deferred[k]? with
    | some d => (s.withRu { s.ru with deferred := s.ru.deferred.eraseIdx k }).takeTally t d.issue d.level
    | none => s
  | none => s

/-- A tally is freed: its fields and timers go, it leaves the uplink queue, and a deferred item is served at once
(06 R108, R112, R134). -/
def State.freeTally (s : State) (t : Nat) : State :=
  (s.withRu { s.ru with
    tallies := s.ru.tallies.set t none
    uplinkQueue := s.ru.uplinkQueue.filter fun n => n != t }).serveDeferred t

/-- A tally settles: it goes to SETTLED; superseded, or with items deferred, it is freed at the same move
(06 R129). -/
def State.settle (s : State) (t : Nat) : State :=
  match s.tally t with
  | some y =>
    if y.superseded ∨ s.ru.deferred ≠ [] then s.freeTally t
    else s.setTally t (some { y with
      state := .settled, timer := none, reporter := none, settleTime := some s.now, digest := [] })
  | none => s

/-- The tally number a new alert takes: a free one, lowest first, else the SETTLED one with the oldest settle time,
ties going to the lowest number (06 R110, R112). -/
def State.tallyToTake (s : State) : Option Nat :=
  match s.ru.tallies.findIdx? (fun y => y.isNone) with
  | some t => some t
  | none =>
    (leastFrom (fun y : Option Tally => (match y with
      | some y => if y.state = .settled then some (y.settleTime.getD 0, 0) else none
      | none => none)) 0 s.ru.tallies).map (·.1)

/-- A tally is taken for the issuance at a level, or the item is deferred (06 R110 to R112). -/
def State.takeOrDefer (s : State) (i : Issue) (precedence : Nat) (level : Level) : State :=
  match s.tallyToTake with
  | some t => s.takeTally t i level
  | none => s.withRu { s.ru with deferred := s.ru.deferred ++ [⟨i, precedence, level⟩] }

/-- The issuance is on the deferred list. -/
def State.isDeferred (s : State) (i : Issue) : Bool := s.ru.deferred.any fun d => d.issue == i

/-! ### Receipts and acknowledgements (06 R110, R111, R133) -/

/-- The receipt event of an issuance (06 R110). -/
def State.receiptEvent (s : State) (i : Issue) (precedence : Nat) : State :=
  match s.findTally i with
  | some t => s.modTally t fun y =>
    { y with members := joinTag y.members y.ownTag false, ownLevel := y.ownLevel.raise .receipt }
  | none => if s.isDeferred i then s else s.takeOrDefer i precedence .receipt

/-- One receipt event to come: the issuance, its precedence, and the entry's index. -/
abbrev Receipt := Issue × Nat × Nat

/-- A receipt event comes before another: the higher precedence, then the lower index (06 R110). -/
def receiptFirst (a b : Receipt) : Bool := b.2.1 < a.2.1 || (a.2.1 == b.2.1 && a.2.2 < b.2.2)

/-- A receipt event takes its place among others. -/
def insertReceipt (r : Receipt) : List Receipt → List Receipt
  | [] => [r]
  | x :: xs => if receiptFirst r x then r :: x :: xs else x :: insertReceipt r xs

/-- The receipt events of one move, taken in the order of 06 R110. -/
def State.receiptEvents (s : State) (rs : List Receipt) : State :=
  (rs.foldr insertReceipt []).foldl (fun s r => s.receiptEvent r.1 r.2.1) s

/-- CS is asked to queue our TALLY (06 R119). -/
def State.requestTally (s : State) (t : Nat) : State :=
  match s.tally t with
  | some y => s.request (.tally y.issue y.tallyItems)
  | none => s

/-- The covered level of a tag, NONE where the set does not hold it (06 R109). -/
def coveredLevel (ms : List Member) (tag : Word32) : Level :=
  match ms.find? (fun m => m.tag == tag) with
  | some m => m.covered
  | none => .none

/-- The own tag after an acknowledgement: the new station tag where it differs and the receipt set has room.  It joins
with covered level NONE, so the reported level returns to NONE; only where a peer's use of it had already put it in the
set is that tag's covered level kept (06 R108, R133; log 14). -/
def Tally.adoptTag (y : Tally) (tag : Word32) : Tally :=
  if y.ownTag ≠ tag ∧ y.members.length < 64 then { y with ownTag := tag, reported := coveredLevel y.members tag } else y

/-- The tally takes the acknowledgement: the own tag joins both sets and the own level is ACK (06 R111). -/
def Tally.acknowledge (y : Tally) : Tally :=
  { y with members := joinTag y.members y.ownTag true, ownLevel := .ack }

/-- The acknowledgement event of an issuance (06 R111, R124, R129, R133). -/
def State.ackEvent (s : State) (i : Issue) (precedence : Nat) : State :=
  match s.findTally i with
  | some t =>
    match s.tally t with
    | some y =>
      if y.ownLevel = .ack then s
      else
        let y' := (y.adoptTag s.cs.tag).acknowledge
        match y.state with
        | .settled =>
          if y'.reported.rank < y'.ownLevel.rank then (s.setTally t (some { y' with failures := 0 })).enterWaiting t
          else s.setTally t (some y')
        | .contributing => (s.setTally t (some y')).requestTally t
        | .waiting => s.setTally t (some y')
        | .standing => s.setTally t (some y')
        | .collecting => s.setTally t (some y')
        | .uplinking => s.setTally t (some y')
    | none => s
  | none =>
    if s.isDeferred i then
      s.withRu { s.ru with deferred := s.ru.deferred.map fun d => if d.issue = i then { d with level := .ack } else d }
    else s.takeOrDefer i precedence .ack

/-! ### The digest uplink (06 R125 to R128) -/

/-- The tags of a digest at one level, in parts of 24 with their numbers (06 R126). -/
def coverParts (tags : List Word32) : List (Nat × List Word32) :=
  [(1, tags.take 24), (2, (tags.drop 24).take 24), (3, (tags.drop 48).take 24)].filter fun p => !p.2.isEmpty

/-- The tags of the items at a level, in digest order. -/
def tagsAt (items : List Item) (level : Level) : List Word32 := (items.filter fun x => x.status == level).map (·.tag)

/-- The COVERED frames for an accepted digest: RECEIPT first, then ACK (06 R126). -/
def coveredFrames (i : Issue) (items : List Item) : List Payload :=
  ((coverParts (tagsAt items .receipt)).map fun p => .covered i .receipt p.1 p.2)
    ++ ((coverParts (tagsAt items .ack)).map fun p => .covered i .ack p.1 p.2)

/-- The covered levels an accepted digest raises, and the reported level (06 R126). -/
def Tally.acceptItems (y : Tally) (items : List Item) : Tally :=
  { y with
    members := items.foldl (fun ms x => coverTag ms x.tag x.status) y.members
    reported := items.foldl (fun l x => if x.tag = y.ownTag then l.raise x.status else l) y.reported
    failures := 0, timer := none, digest := [] }

/-- What becomes of a tally that leaves UPLINKING: freed when its entry has ended, settled when it is reported at its
own level, else WAITING again (06 R126, R127, R134). -/
def State.leaveUplink (s : State) (t : Nat) : State :=
  match s.tally t with
  | some y =>
    if y.ended then s.freeTally t
    else if y.ownLevel.rank ≤ y.reported.rank then s.settle t
    else s.enterWaiting t
  | none => s

/-- A digest is accepted (06 R126).  The COVERED frames are refused where the channel is unavailable, uncounted. -/
def State.uplinkAccepted (s : State) (t : Nat) (items : List Item) : State :=
  match s.tally t with
  | some y =>
    ((coveredFrames y.issue items).foldl (fun s p => s.request p) (s.setTally t (some (y.acceptItems items)))).leaveUplink t
  | none => s

/-- An uplink fails (06 R127): a YIELD is asked for, the failure count advances, and the tally is freed, settles or
waits again.  The YIELD is refused where the channel is unavailable, uncounted.  A superseded tally is freed at a failure
that leaves its count at 3, so also at a later one than its third where it was marked superseded after that (log 34). -/
def State.uplinkFailed (s : State) (t : Nat) : State :=
  match s.tally t with
  | some y =>
    let failures := min 3 (y.failures + 1)
    let s1 := (s.request (.yield y.issue)).setTally t (some { y with failures := failures, timer := none, digest := [] })
    if y.superseded ∧ failures = 3 then s1.freeTally t else s1.leaveUplink t
  | none => s

/-- The tally at the head of the uplink queue is sent (06 R125): without reporting service it fails; with no due tag it
is accepted with no items; else its digest is handed to ML and its uplink timeout runs.  So after a fall of the modem ready
line a HELLO's next uplink fails, and no fresh one waits in the hold (09 R179; log 36). -/
def State.sendDigest (s : State) (t : Nat) : State :=
  match s.tally t with
  | some y =>
    if !s.reportingService then s.uplinkFailed t
    else if y.dueItems = [] then s.uplinkAccepted t []
    else
      (s.setTally t (some { y with
        timer := some (s.now + s.settings.uplinkTimeout * 1000), digest := y.dueItems })).sendUplink
        y.issue s.cs.tag y.dueItems
  | none => s

/-- The uplink queue is served while no uplink is outstanding, for at most the number of sends given (06 R125). -/
def State.serveUplinks : Nat → State → State
  | 0, s => s
  | n + 1, s =>
    match s.ml.uplinkMarker, s.ru.uplinkQueue with
    | none, t :: rest => State.serveUplinks n ((s.withRu { s.ru with uplinkQueue := rest }).sendDigest t)
    | _, _ => s

/-- The uplink queue is served while no uplink is outstanding (06 R125). -/
def State.nextUplink (s : State) : State := State.serveUplinks s.ru.uplinkQueue.length s

/-- A tally enters UPLINKING and joins the tail of the uplink queue (06 R125). -/
def State.joinUplink (s : State) (t : Nat) : State :=
  let s1 := s.modTally t fun y => { y with state := .uplinking, timer := none }
  (s1.withRu { s1.ru with uplinkQueue := s1.ru.uplinkQueue ++ [t] }).nextUplink

/-- The outstanding uplink ends, accepted or failed, and the queue is served (06 R126, R127, 09 R178). -/
def State.endUplink (s : State) (accepted : Bool) : State :=
  match s.ml.uplinkMarker with
  | some i =>
    let s1 := s.clearUplink
    match s1.findTally i with
    | some t =>
      match s1.tally t with
      | some y => (if accepted then s1.uplinkAccepted t y.digest else s1.uplinkFailed t).nextUplink
      | none => s1.nextUplink
    | none => s1.nextUplink
  | none => s

/-! ### Heard frames (06 R118 to R123, R130) -/

/-- A heard bid is better: lower, or equal with the lower tag (06 R114). -/
def betterBid (bid : Nat) (tag : Word32) (ownBid : Nat) (ownTag : Word32) : Bool :=
  bid < ownBid || (bid == ownBid && tag.toNat < ownTag.toNat)

/-- A STAND heard (06 R118, R119). -/
def State.heardStand (s : State) (sender : Word32) (i : Issue) (bid size : Nat) : State :=
  match s.findTally i with
  | some t =>
    match s.tally t with
    | some y =>
      if (y.state = .waiting ∨ y.state = .standing) ∧ betterBid bid sender y.bid s.cs.tag then
        let s1 := s.setTally t (some { y with
          state := .contributing, reporter := some sender
          timer := some (s.now + s.settings.contributorGuard * 1000) })
        if size = 64 then s1 else s1.requestTally t
      else s
    | none => s
  | none => s

/-- A TALLY heard is merged; a COLLECTING tally whose receipt set reaches 64 tags goes to UPLINKING (06 R117, R121).  One
whose set held 64 tags already reaches them by no merge, and its window runs on (log 39). -/
def State.heardTally (s : State) (i : Issue) (items : List Item) : State :=
  match s.findTally i with
  | some t =>
    match s.tally t with
    | some y =>
      let members := items.foldl (fun ms x => joinTag ms x.tag (x.status == .ack)) y.members
      let s1 := s.setTally t (some { y with members := members })
      if y.state = .collecting ∧ y.members.length < 64 ∧ 64 ≤ members.length then s1.joinUplink t else s1
    | none => s
  | none => s

/-- A COVERED frame heard raises covered levels and may settle the tally (06 R122). -/
def State.heardCovered (s : State) (i : Issue) (level : Level) (tags : List Word32) : State :=
  match s.findTally i with
  | some t =>
    match s.tally t with
    | some y =>
      let y' := { y with
        members := tags.foldl (fun ms tag => coverTag ms tag level) y.members
        reported := if y.ownTag ∈ tags ∧ y.members.any (fun m => m.tag == y.ownTag) then y.reported.raise level
          else y.reported }
      let s1 := s.setTally t (some y')
      if (y.state = .waiting ∨ y.state = .contributing) ∧ y'.ownLevel.rank ≤ y'.reported.rank then s1.settle t else s1
    | none => s
  | none => s

/-- A YIELD heard from the reporter of a CONTRIBUTING tally returns it to WAITING (06 R123). -/
def State.heardYield (s : State) (sender : Word32) (i : Issue) : State :=
  match s.findTally i with
  | some t =>
    match s.tally t with
    | some y => if y.state = .contributing ∧ y.reporter = some sender then s.enterWaiting t else s
    | none => s
  | none => s

/-! ### The end of an entry (06 R134) -/

/-- RU is told that an issuance's entry has ended: its deferred item leaves the list, and its tally is marked
superseded, finishes its uplink, or is freed (06 R112, R134). -/
def State.entryEnds (s : State) (i : Issue) (superseded : Bool) : State :=
  let s1 := s.withRu { s.ru with deferred := s.ru.deferred.filter fun d => d.issue != i }
  match s1.findTally i with
  | some t =>
    match s1.tally t with
    | some y =>
      if superseded then
        if y.state = .settled then s1.freeTally t else s1.setTally t (some { y with superseded := true })
      else if y.state = .uplinking then s1.setTally t (some { y with ended := true })
      else s1.freeTally t
    | none => s1
  | none => s1

end Sys2Proof.Machine
end

