-- ==== Sys2Proof/Machine/Table.lean ====
section
/-! DEFINITION. The Alert Table's moves, each told to the blocks concerned (01), with the Body Store's release and the
table's reclaim (02 R43, 01 R29). -/

namespace Sys2Proof.Machine

/-! ### Release and leaving (02 R43, 01 R7) -/

/-- A body release: the slots return to the tail of the free list in ascending order of position, the map is cleared,
the offer record ends, and our queued PIECE frames of the issuance are removed.  An empty map is left as it is
(02 R43). -/
def State.releaseBody (s : State) (i : Nat) : State :=
  let e := s.entry i
  if e.slots = [] then s
  else
    let s1 := (s.modEntry i fun e => { e with map := emptyMap, offer := none }).withFree (s.free ++ e.slots)
    match e.issue with
    | some issue => s1.removePieces issue none
    | none => s1

/-- AR takes an entry out of the waiting set (03 R59). -/
def State.leaveWaiting (s : State) (i : Nat) : State :=
  s.withAr { s.ar with waiting := s.ar.waiting.filter fun n => n != i }

/-- RU is told that the entry's issuance has ended (06 R134). -/
def State.tellEnded (s : State) (issue : Option Issue) (superseded : Bool) : State :=
  match issue with
  | some i => s.entryEnds i superseded
  | none => s

/-- An entry goes to FREE: its body is released, its claim slot emptied, it leaves the waiting set, every field but the
generation returns to its power-on value, and RU is told (01 R2, R7, R24, R26, R30). -/
def State.freeEntry (s : State) (i : Nat) (superseded : Bool) : State :=
  let e := s.entry i
  ((((s.releaseBody i).emptySlot i).leaveWaiting i).modEntry i fun e => Entry.freed e.generation).tellEnded e.issue
    superseded

/-- The entry's fields at a closure: CLOSED, its reason, the closure time; want record and assembly timer end, and PU
and AU drop their parts (01 R16, R101 of 05, R136 of 07, R158 of 08). -/
def Entry.close (e : Entry) (reason : Reason) (time : Nat) : Entry :=
  { e.dropPresented with
    state := .closed, closureReason := some reason, closureTime := some time, want := none, assemblyTimer := none }

/-- An entry goes to CLOSED for a reason, leaving claim slot and waiting set; the body is left as it is (01 R16). -/
def State.closeEntry (s : State) (i : Nat) (reason : Reason) : State :=
  ((s.emptySlot i).leaveWaiting i).modEntry i fun e => e.close reason s.uptime

/-! ### Taking entries into use (01 R9, R29, R30) -/

/-- The end of an assembly timer that starts now, in ms (01 R12). -/
def State.assemblyEnd (s : State) : Nat := s.now + s.settings.assemblyTimeout * 1000

/-- Class 1 of table pressure: husks, by closure time (01 R29). -/
def Entry.huskRank (key : Key) (e : Entry) : Option (Nat × Nat) :=
  if e.isHusk && !e.ofKey key then some (e.closureTime.getD 0, 0) else none

/-- The uptime at which a husk's hold ends: its expiry deadline, or its closure time where it has none, plus the husk
hold (01 R18). -/
def Entry.huskEnd (e : Entry) (hold : Nat) : Nat := e.deadline.getD (e.closureTime.getD 0) + hold

/-- A husk that a request may reclaim: for a fragment any, by its time (01 R29); for an OFFER one whose husk hold has not
ended, as one whose hold has ended comes free by that end and not by the OFFER (05 R107; log 33). -/
def State.huskChoice (s : State) (key : Key) (forOffer : Bool) : Option Nat :=
  s.leastEntry fun e => if forOffer && e.huskEnd s.settings.huskHold ≤ s.uptime then none else e.huskRank key

/-- Class 2: CLOSED entries that hold their body, by closure time (01 R29). -/
def Entry.closedRank (key : Key) (e : Entry) : Option (Nat × Nat) :=
  if e.state == .closed && e.bodyHeld && !e.ofKey key then some (e.closureTime.getD 0, 0) else none

/-- Class 3: OUTSIDE entries, by expiry deadline (01 R29). -/
def Entry.outsideRank (key : Key) (e : Entry) : Option (Nat × Nat) :=
  if e.state == .outside && !e.ofKey key then some (e.deadline.getD 0, 0) else none

/-- The time that orders an ASSEMBLING entry in class 4: its last-fragment time, or the time it was taken into use
while it has a provisional total and no fragment (01 R29). -/
def Entry.assemblyOrder (e : Entry) : Nat :=
  if e.provisional then e.takenAt.getD 0 else e.lastFragment.getD (e.takenAt.getD 0)

/-- Class 4: ASSEMBLING entries of lower configured precedence than the arriving fragment's (01 R29). -/
def Entry.assemblingRank (c : Settings) (key : Key) (cat : Category) (e : Entry) : Option (Nat × Nat) :=
  match e.category with
  | some k =>
    if e.state == .assembling && c.configured k < c.configured cat && !e.ofKey key then some (e.assemblyOrder, 0)
    else none
  | none => none

/-- The entry table pressure reclaims for a request of a key, the first candidate of the four classes; a request from
an OFFER searches class 1 only (01 R29). -/
def State.reclaimChoice (s : State) (key : Key) (cat : Category) (forOffer : Bool) : Option Nat :=
  match s.huskChoice key forOffer with
  | some i => some i
  | none =>
    if forOffer then none
    else match s.leastEntry (Entry.closedRank key) with
      | some i => some i
      | none =>
        match s.leastEntry (Entry.outsideRank key) with
        | some i => some i
        | none => s.leastEntry (Entry.assemblingRank s.settings key cat)

/-- A FREE entry taken into use: its generation advances, it is ASSEMBLING with what the request carries, and its
assembly timer and want record start (01 R3, R9, 05 R101). -/
def State.useEntry (s : State) (i : Nat) (issue : Issue) (total : Nat) (cat : Category) (provisional : Bool) : State :=
  s.modEntry i fun e => { Entry.freed (e.generation + 1) with
    state := .assembling, issue := some issue, category := some cat, total := total, provisional := provisional
    takenAt := some s.uptime, assemblyTimer := some s.assemblyEnd, want := some ⟨s.gapEnd, none⟩ }

/-- An entry is taken into use for an issuance: a FREE one, lowest index first, else one reclaimed; none where there is
no candidate (01 R9, R29, R30). -/
def State.takeEntry (s : State) (issue : Issue) (total : Nat) (cat : Category) (forOffer : Bool) :
    Option (Nat × State) :=
  match s.findEntry (fun e => e.state == .free) with
  | some i => some (i, s.useEntry i issue total cat forOffer)
  | none =>
    match s.reclaimChoice issue.key cat forOffer with
    | some i => some (i, (s.freeEntry i false).useEntry i issue total cat forOffer)
    | none => none

/-- A retarget to a higher revision: the slots are released, the fields of R11 cleared, the flags of R25 too, and
assembly timer and want record start afresh (01 R11, R25, 05 R101). -/
def State.retarget (s : State) (i : Nat) (issue : Issue) (total : Nat) (cat : Category) (provisional : Bool) : State :=
  (s.releaseBody i).modEntry i fun e => { e with
    issue := some issue, category := some cat, total := total, provisional := provisional
    checkFailures := 0, areas := [], bodyCheck := none, heardBroadcast := false, heardRelay := false
    kind := none, issueTime := none, duration := none, followsAcknowledged := false, replaces := none
    assemblyTimer := some s.assemblyEnd, want := some ⟨s.gapEnd, none⟩ }

/-! ### Store slots under pressure (02 R41, R42) -/

/-- Step 1: CLOSED entries of a reason other than CANCELLED that hold their body, by closure time. -/
def Entry.pressureRank1 (e : Entry) : Option (Nat × Nat) :=
  if e.state == .closed && !e.isTombstone && e.bodyHeld then some (e.closureTime.getD 0, 0) else none

/-- Step 2: OUTSIDE entries that hold their body, by expiry deadline. -/
def Entry.pressureRank2 (e : Entry) : Option (Nat × Nat) :=
  if e.state == .outside && e.bodyHeld then some (e.deadline.getD 0, 0) else none

/-- Step 3: CLOSED(CANCELLED) entries that hold their body, by closure time. -/
def Entry.pressureRank3 (e : Entry) : Option (Nat × Nat) :=
  if e.isTombstone && e.bodyHeld then some (e.closureTime.getD 0, 0) else none

/-- Step 4: ASSEMBLING entries of another key, with a slot, of lower configured precedence, by positions filled and
then last-fragment time (02 R42). -/
def Entry.pressureRank4 (c : Settings) (key : Key) (cat : Category) (e : Entry) : Option (Nat × Nat) :=
  match e.category with
  | some k =>
    if e.state == .assembling && !e.ofKey key && e.slots != [] && c.configured k < c.configured cat then
      some (e.slots.length, e.lastFragment.getD 0)
    else none
  | none => none

/-- Room is made in the store by the first of the four steps that finds a candidate (02 R41). -/
def State.makeRoom (s : State) (key : Key) (cat : Category) : Option State :=
  match s.leastEntry Entry.pressureRank1 with
  | some i => some (s.releaseBody i)
  | none =>
    match s.leastEntry Entry.pressureRank2 with
    | some i => some (s.releaseBody i)
    | none =>
      match s.leastEntry Entry.pressureRank3 with
      | some i => some (s.releaseBody i)
      | none =>
        match s.leastEntry (Entry.pressureRank4 s.settings key cat) with
        | some i => some (s.freeEntry i false)
        | none => none

/-- The slot at the head of the free list. -/
def State.popSlot (s : State) : Option (Nat × State) :=
  match s.free with
  | k :: rest => some (k, s.withFree rest)
  | [] => none

/-- A store slot is found for a fragment of a key and category (02 R41). -/
def State.findSlot (s : State) (key : Key) (cat : Category) : Option (Nat × State) :=
  match s.popSlot with
  | some r => some r
  | none =>
    match s.makeRoom key cat with
    | some s1 => s1.popSlot
    | none => none

/-! ### Completion (01 R13 to R15, R24 to R26; 02 R44, R45) -/

/-- The packed body: the payloads of the map's slots in index order (02 R44). -/
def State.packed (s : State) (e : Entry) : List Byte :=
  (List.range e.total).flatMap fun k => (match e.map.getD k none with
    | some slot => s.store.read slot
    | none => [])

/-- The findings of the encoding scan (02 R45). -/
inductive Scan where
  | error
  | tooLong
  | length (n : Nat)
  deriving DecidableEq, Repr

/-- The encoding scan from a running expanded length: it stops at the first error, or as soon as the length passes
2,048 (02 R45). -/
def scan : List Byte → Nat → Scan
  | [], n => .length n
  | b :: rest, n =>
    if b = 0x1B then
      match rest with
      | c :: _ :: rest' =>
        if c = 0 then .error else if 2048 < n + c.toNat then .tooLong else scan rest' (n + c.toNat)
      | _ => .error
    else if 2048 < n + 1 then .tooLong
    else scan rest (n + 1)

/-- The expanded body of a packed body (02 R45); it ends where the packing is wrong. -/
def expand : List Byte → List Byte
  | [] => []
  | b :: rest =>
    if b = 0x1B then
      match rest with
      | c :: d :: rest' => List.replicate c.toNat d ++ expand rest'
      | _ => []
    else b :: expand rest

/-- The remaining life at completion, in seconds (01 R15). -/
def remainingLife (clock : Option Nat) (issueTime : Word32) (duration : Word16) : Nat :=
  match clock with
  | some now =>
    if issueTime.toNat ≤ now then duration.toNat * 60 - (now - issueTime.toNat) else duration.toNat * 60
  | none => duration.toNat * 60

/-- The remaining life of an entry that completes now (01 R15). -/
def State.lifeOf (s : State) (e : Entry) : Nat :=
  remainingLife s.tb.alertClock (e.issueTime.getD 0) (e.duration.getD 0)

/-- The other entries of a key, ascending. -/
def State.othersOf (s : State) (i : Nat) (key : Key) : List Nat :=
  (s.indexes fun e => e.ofKey key).filter fun j => j != i

/-- A notice is posted for an entry that a cancel frees: CLAIMED, SHOWN, or CLOSED(ACKNOWLEDGED) and held when
acknowledged (01 R8, R26). -/
def Entry.cancelNoticed (e : Entry) : Bool :=
  e.isHeld || (e.state == .closed && e.closureReason == some .acknowledged && e.heldWhenAcknowledged)

/-- Every other entry of the key goes to FREE by supersession, a held one with its notice (01 R8, R14, R24). -/
def State.supersede (s : State) (i : Nat) (key : Key) (kind : NoticeKind) (successor : Option Nat) : State :=
  (s.othersOf i key).foldl (fun s j => (s.postIfHeld j kind successor).freeEntry j true) s

/-- Every other entry of the key goes to FREE by cancellation, with its notice (01 R8, R26). -/
def State.cancelOthers (s : State) (i : Nat) (key : Key) : State :=
  (s.othersOf i key).foldl (fun s j =>
    (if (s.entry j).cancelNoticed then s.post ⟨.cancelled, s.handle j, none⟩ else s).freeEntry j false) s

/-- The replaces handle a successor takes from the entries it supersedes; its own where there are none (01 R25;
log 11). -/
def State.replacesFor (s : State) (i : Nat) (key : Key) : Option Handle :=
  match s.othersOf i key with
  | [] => (s.entry i).replaces
  | others =>
    match others.find? (fun j => (s.entry j).isHeld) with
    | some j => some (s.handle j)
    | none => others.findSome? fun j => (s.entry j).replaces

/-- Whether a successor follows an acknowledged issuance (01 R25; log 11). -/
def State.followsFor (s : State) (i : Nat) (key : Key) : Bool :=
  match s.othersOf i key with
  | [] => (s.entry i).followsAcknowledged
  | others => others.any fun j =>
    ((s.entry j).state == .closed && (s.entry j).closureReason == some .acknowledged)
      || (s.entry j).followsAcknowledged

/-- A complete map has failed its check: everything is released, and the entry collects again, or closes MALFORMED at
the third failure (01 R13). -/
def State.checkFailed (s : State) (i : Nat) : State :=
  let s1 := ((s.releaseBody i).count .checkFail).modEntry i fun e =>
    { e with areas := [], bodyCheck := none, checkFailures := e.checkFailures + 1 }
  if 3 ≤ (s1.entry i).checkFailures then s1.closeEntry i .malformed
  else (s1.modEntry i fun e => { e with assemblyTimer := some s.assemblyEnd }).restartGap i

/-- A completion whose packing is wrong or too long (01 R14, 02 R45). -/
def State.malformedBody (s : State) (i : Nat) : State :=
  ((s.count .malformed).releaseBody i).closeEntry i .malformed

/-- A CANCEL completes (01 R26; 05 R89).  With no life left its own slots return to the free list after those of the
entries it frees, whatever the indexes (02 R43; log 12). -/
def State.completeCancel (s : State) (i : Nat) (issue : Issue) (life : Nat) : State :=
  let s1 := ((s.closeEntry i .cancelled).cancelOthers i issue.key).entryEnds issue false
  (if life = 0 then s1.releaseBody i else s1.startOffer i).attend

/-- A NEW or UPDATE completes with life remaining (01 R24, R25; 05 R89). -/
def State.completeLive (s : State) (i : Nat) (issue : Issue) : State :=
  let s1 := s.modEntry i fun e => { e with
    state := .locating, verdict := .undecided, replaces := s.replacesFor i issue.key
    followsAcknowledged := s.followsFor i issue.key }
  ((s1.supersede i issue.key .superseded (some i)).startOffer i).attend

/-- A NEW or UPDATE completes with no life remaining (01 R14).  Its own slots return to the free list after those of the
entries it supersedes, whatever the indexes (02 R43; log 12). -/
def State.completeExpired (s : State) (i : Nat) (issue : Issue) : State :=
  let s1 := (s.modEntry i fun e => { e with
    replaces := s.replacesFor i issue.key, followsAcknowledged := s.followsFor i issue.key }).closeEntry i .expired
  (((s1.supersede i issue.key .expired none).releaseBody i).entryEnds issue false).attend

/-- An entry whose body has passed check and scan completes by its kind (01 R14). -/
def State.completeEntry (s : State) (i : Nat) (length : Nat) : State :=
  let life := s.lifeOf (s.entry i)
  let s1 := s.modEntry i fun e => { e with
    expandedLength := some length, deadline := some (s.uptime + life), want := none, assemblyTimer := none }
  match (s.entry i).issue with
  | some issue =>
    if (s.entry i).kind = some .cancel then s1.completeCancel i issue life
    else if 0 < life then s1.completeLive i issue
    else s1.completeExpired i issue
  | none => s1

/-- The completion check of a full map (02 R44, R45; 01 R13, R14). -/
def State.checkBody (s : State) (i : Nat) : State :=
  let packed := s.packed (s.entry i)
  if (s.entry i).bodyCheck = some (checkCode packed) then
    match scan packed 0 with
    | .length n => s.completeEntry i n
    | .error => s.malformedBody i
    | .tooLong => s.malformedBody i
  else s.checkFailed i

/-! ### Verdicts (01 R19, R20) -/

/-- The fields of an entry that returns to ASSEMBLING without its body (01 R20). -/
def Entry.returned (e : Entry) (assemblyEnd gapEnd : Nat) : Entry :=
  { e with
    state := .assembling, verdict := .undecided, map := emptyMap, checkFailures := 0, heardBroadcast := false
    heardRelay := false, expandedLength := none, deadline := none, assemblyTimer := some assemblyEnd
    want := some ⟨gapEnd, none⟩ }

/-- An entry without its body was found INSIDE or UNRESOLVED: back to ASSEMBLING, asking at once for every index, or to
FREE where a higher revision of its key is ASSEMBLING (01 R20, 05 R104). -/
def State.returnToAssembling (s : State) (i : Nat) : State :=
  match (s.entry i).issue with
  | some issue =>
    if s.table.any (fun e => e.state == .assembling && e.ofKey issue.key) then s.freeEntry i false
    else (s.modEntry i fun e => e.returned s.assemblyEnd s.gapEnd).requestWant i
  | none => s

/-- An entry whose body is held was found INSIDE or UNRESOLVED: PENDING, or CLOSED(WITHHELD) at precedence 0
(01 R19, 07 R136, R139). -/
def State.place (s : State) (i : Nat) (v : Verdict) (precedence : Nat) : State :=
  let s1 := s.modEntry i fun e => { e with verdict := v }
  if precedence = 0 then s1.closeEntry i .withheld
  else s1.modEntry i fun e => { e with
    state := .pending, precedence := some precedence, stamp := some s.now, sounded := false }

/-- The precedence an entry would be given now. -/
def State.precedenceFor (s : State) (i : Nat) : Nat :=
  match (s.entry i).category with
  | some c => s.precedenceOf c
  | none => 0

/-- One verdict, without the receipt event (01 R19). -/
def State.applyVerdict (s : State) (i : Nat) (v : Verdict) : State :=
  let s1 := s.leaveWaiting i
  match v with
  | .outside => s1.modEntry i fun e => { e with state := .outside, verdict := .outside }
  | .inside => if (s.entry i).bodyHeld then s1.place i .inside (s.precedenceFor i) else s1.returnToAssembling i
  | .unresolved =>
    if (s.entry i).bodyHeld then s1.place i .unresolved (s.precedenceFor i) else s1.returnToAssembling i
  | .undecided => s1

/-- The receipt event a verdict brings (01 R19, 06 R110). -/
def State.receiptOf (s : State) (i : Nat) (v : Verdict) : List Receipt :=
  match v, (s.entry i).issue with
  | .inside, some issue => if (s.entry i).bodyHeld then [(issue, s.precedenceFor i, i)] else []
  | .unresolved, some issue => if (s.entry i).bodyHeld then [(issue, s.precedenceFor i, i)] else []
  | _, _ => []

/-- The verdicts of one move: AT makes every move, RU takes the receipt events in their order, AU is told
(01 R19, 03 R61, 06 R110; log 12). -/
def State.giveVerdicts (s : State) (vs : List (Nat × Verdict)) : State :=
  let receipts := vs.flatMap fun p => s.receiptOf p.1 p.2
  ((vs.foldl (fun s p => s.applyVerdict p.1 p.2) s).receiptEvents receipts).attend

/-! ### Acknowledgement and expiry (01 R17, R22) -/

/-- An acknowledgement closes an entry as CLOSED(ACKNOWLEDGED), and RU takes the acknowledgement event (01 R22). -/
def State.acknowledge (s : State) (i : Nat) : State :=
  let held := (s.entry i).isHeld
  let s1 := (s.closeEntry i .acknowledged).modEntry i fun e => { e with heldWhenAcknowledged := held }
  match (s.entry i).issue with
  | some issue => s1.ackEvent issue ((s.entry i).precedence.getD 0)
  | none => s1

/-- The uptime has reached the entry's expiry deadline (01 R17). -/
def State.expire (s : State) (i : Nat) : State :=
  match (s.entry i).state with
  | .free => s
  | .assembling => s
  | .closed => s.releaseBody i
  | .locating | .outside | .pending | .claimed | .shown =>
    ((((s.postIfHeld i .expired none).releaseBody i).closeEntry i .expired).tellEnded (s.entry i).issue false).attend

end Sys2Proof.Machine
end

