-- ==== Sys2Proof/Machine/Intake.lean ====
section
/-! DEFINITION. Fragment Intake: the decisions of 02 section 2.2, and the taking of a fragment. -/

namespace Sys2Proof.Machine

/-- A record is stale: the alert clock is set, and the record's own life has run out on it (02 R33). -/
def Fragment.stale (f : Fragment) (clock : Option Nat) : Bool :=
  match clock with
  | some now => f.issueTime.toNat + f.duration.toNat * 60 ≤ now
  | none => false

/-- The table holds a CLOSED(CANCELLED) entry of the key (02 R34). -/
def State.cancelled (s : State) (k : Key) : Bool := s.table.any fun e => e.isTombstone && e.ofKey k

/-- The table holds a complete entry of the key at this revision or higher (02 R35). -/
def State.repeated (s : State) (i : Issue) : Bool :=
  s.table.any fun e => e.isComplete && e.ofKey i.key && i.revision.toNat ≤ e.revision

/-- The ASSEMBLING entry of a key. -/
def State.assemblingOf (s : State) (k : Key) : Option Nat :=
  s.findEntry fun e => e.state == .assembling && e.ofKey k

/-- The entry's fields once a fragment is taken into it with its slot (01 R5, R10; 02 R36, R38).  Total and category
are the fragment's while the total is provisional; kind, issue time and duration come from the first fragment taken;
fragment 0 sets area list, body check, issue time and duration.  02 R38 lists the kind too among what a later fragment 0
sets, where 02 R36 says that the kind a later fragment carries is not used: the model follows R36 (log 32). -/
def Entry.taking (e : Entry) (f : Fragment) (source : Source) (slot uptime assemblyEnd : Nat) : Entry :=
  { e with
    map := e.map.set f.index (some slot)
    total := if e.provisional then f.total else e.total
    category := if e.provisional then some f.category else e.category
    provisional := false
    kind := if e.kind.isNone then some f.kind else e.kind
    issueTime := if e.kind.isNone ∨ f.index = 0 then some f.issueTime else e.issueTime
    duration := if e.kind.isNone ∨ f.index = 0 then some f.duration else e.duration
    areas := if f.index = 0 then f.areas else e.areas
    bodyCheck := if f.index = 0 then some f.bodyCheck else e.bodyCheck
    heardBroadcast := e.heardBroadcast || source == .broadcast
    heardRelay := e.heardRelay || source == .relay
    lastFragment := some uptime
    assemblyTimer := some assemblyEnd }

/-- A fragment is taken into an ASSEMBLING entry: payload into the slot, slot into the map, timers restarted; where it
completes the map, the assembly timer stops and the completion check follows (01 R10, 02 R31, R38, 05 R101). -/
def State.takeInto (s : State) (source : Source) (f : Fragment) (slot i : Nat) : State :=
  let s1 := (((s.withStore (s.store.write slot f.payload)).modEntry i fun e =>
    e.taking f source slot s.uptime s.assemblyEnd).restartGap i).count .fragmentsTaken
  if (s1.entry i).bodyHeld then (s1.modEntry i fun e => { e with assemblyTimer := none }).checkBody i else s1

/-- A fragment that an ASSEMBLING entry of its key meets (02 R36). -/
def State.intakeAssembling (s : State) (source : Source) (f : Fragment) (i : Nat) : State :=
  let e := s.entry i
  if f.issue.revision.toNat < e.revision then s.count .duplicate
  else if e.revision < f.issue.revision.toNat then
    match s.findSlot f.issue.key f.category with
    | some (slot, s1) => (s1.retarget i f.issue f.total f.category false).takeInto source f slot i
    | none => s.flag .storeFull
  else if !e.provisional && (e.total != f.total || e.category != some f.category) then s.count .inconsistent
  else if !e.provisional && (e.map.getD f.index none).isSome then s.count .duplicate
  else
    match s.findSlot f.issue.key f.category with
    | some (slot, s1) => s1.takeInto source f slot i
    | none => s.flag .storeFull

/-- A fragment that starts a successor or a new entry (02 R37). -/
def State.intakeNew (s : State) (source : Source) (f : Fragment) : State :=
  match s.findSlot f.issue.key f.category with
  | some (slot, s1) =>
    match s1.takeEntry f.issue f.total f.category false with
    | some (i, s2) => s2.takeInto source f slot i
    | none => (s1.withFree (s1.free ++ [slot])).flag .tableFull
  | none => s.flag .storeFull

/-- Fragment Intake takes one record, whole, by the first decision that applies (02 R31 to R37). -/
def State.intake (s : State) (source : Source) (record : List Byte) : State :=
  match parseFragment record with
  | none => s.count .malformed
  | some f =>
    if f.stale s.tb.alertClock then s.count .stale
    else if s.cancelled f.issue.key then s.count .duplicate
    else if s.repeated f.issue then s.count .duplicate
    else
      match s.assemblingOf f.issue.key with
      | some i => s.intakeAssembling source f i
      | none => s.intakeNew source f

/-- The fragment record Body Store builds for an index of an entry, where its position names a slot (02 R47). -/
def State.buildRecord (s : State) (i index : Nat) : Option (List Byte) :=
  let e := s.entry i
  match e.map.getD index none, e.issue, e.kind with
  | some slot, some issue, some kind =>
    some (Fragment.bytes { issue := issue, index := index, total := e.total, kind := kind
                           category := e.category.getD .test, issueTime := e.issueTime.getD 0
                           duration := e.duration.getD 0
                           bodyCheck := if index = 0 then e.bodyCheck.getD 0 else 0
                           areas := if index = 0 then e.areas else [], payload := s.store.read slot })
  | _, _, _ => none

/-- The bytes of an entry's expanded body that a READ is answered with (02 R46). -/
def State.readBody (s : State) (i offset length : Nat) : List Byte :=
  ((expand (s.packed (s.entry i))).drop offset).take length

end Sys2Proof.Machine
end

