-- ==== Sys2Proof/Machine/Present.lean ====
section
/-! DEFINITION. What the Presentation Unit does with a request that AL hands it, and its answer (07 R141 to R150; 11.5). -/

namespace Sys2Proof.Machine

/-- A request carried out or refused: the state after it, the result, the answer's bytes. -/
structure Reply where
  state : State
  result : Result
  answer : List Byte

/-- A refused request: nothing changes (07 R141). -/
def State.refuse (s : State) (r : Result) : Reply := ⟨s, r, []⟩

/-- A request carried out with no answer bytes. -/
def State.done (s : State) : Reply := ⟨s, .ok, []⟩

/-! ### Parameters and handles (07 R141, R142) -/

/-- The handle's index is one of the table's. -/
def Handle.inRange (h : Handle) : Bool := h.index < 32

/-- Every parameter of the request is in its range (07 R141, step 1). -/
def Request.inRange : Request → Bool
  | .claim => true
  | .read h _ length => h.inRange && 1 ≤ length && length ≤ 240
  | .complete h => h.inRange
  | .release h => h.inRange
  | .ack h => h.inRange
  | .fetchNotice => true
  | .status => true
  | .restart => true
  | .setThreshold n => n ≤ 6
  | .setOptout _ => true

/-- The entry at the handle's index has its generation. -/
def State.generationFits (s : State) (h : Handle) : Bool := (s.entry h.index).generation == h.generation

/-- The handles of the request fit their entry (07 R142). -/
def State.fits (s : State) : Request → Bool
  | .claim => true
  | .read h _ _ => s.generationFits h && (s.entry h.index).isHeld
  | .complete h => s.generationFits h && (s.entry h.index).state == .claimed
  | .release h => s.generationFits h && (s.entry h.index).state == .claimed
  | .ack h => s.generationFits h && (s.entry h.index).isHeld
  | .fetchNotice => true
  | .status => true
  | .restart => true
  | .setThreshold _ => true
  | .setOptout _ => true

/-! ### CLAIM (07 R143) -/

/-- The flags byte of a CLAIM answer (11.5). -/
def Entry.claimFlags (e : Entry) : Nat :=
  bit e.relayedOnly + 2 * bit (e.verdict == .unresolved) + 4 * bit e.followsAcknowledged + 8 * bit e.replaces.isSome

/-- The key and revision byte of an entry. -/
def Entry.issueBytes (e : Entry) : List Byte :=
  match e.issue with
  | some i => i.bytes
  | none => List.replicate 6 0

/-- The category byte of an entry. -/
def Entry.categoryByte (e : Entry) : Byte :=
  match e.category with
  | some c => byte c.code
  | none => 0

/-- The replaces handle's bytes, zero where it is absent. -/
def Entry.replacesBytes (e : Entry) : List Byte :=
  match e.replaces with
  | some h => h.bytes
  | none => [0, 0]

/-- The 15 bytes of a CLAIM answer (11.5). -/
def State.claimAnswer (s : State) (i : Nat) : List Byte :=
  let e := s.entry i
  (s.handle i).bytes ++ e.issueBytes ++ [e.categoryByte, byte (e.precedence.getD 0)] ++ num16 (e.expandedLength.getD 0)
    ++ [byte e.claimFlags] ++ e.replacesBytes

/-- The lowest empty claim slot (07 R140). -/
def State.emptyClaimSlot (s : State) : Option Nat := s.pu.slots.findIdx? fun k => k.isNone

/-- An entry is claimed into a slot (07 R140, 01 R21). -/
def State.claimInto (s : State) (i slot : Nat) : State :=
  ((s.withPu { s.pu with slots := s.pu.slots.set slot (some (s.handle i)) }).modEntry i fun e =>
    { e with state := .claimed, claimSlot := some slot }).attend

/-- CLAIM (07 R143). -/
def State.claim (s : State) : Reply :=
  match s.emptyClaimSlot with
  | none => s.refuse .full
  | some slot =>
    match s.firstClaimable with
    | none => s.refuse .none
    | some i => ⟨s.claimInto i slot, .ok, s.claimAnswer i⟩

/-! ### The requests about a handle (07 R144 to R147) -/

/-- READ (07 R144). -/
def State.read (s : State) (h : Handle) (offset length : Nat) : Reply :=
  let expanded := (s.entry h.index).expandedLength.getD 0
  if offset < expanded then
    let count := min length (expanded - offset)
    ⟨s, .ok, byte count :: s.readBody h.index offset count⟩
  else s.refuse .range

/-- COMPLETE (07 R145). -/
def State.complete (s : State) (h : Handle) : Reply :=
  (((s.emptySlot h.index).modEntry h.index fun e => { e with state := .shown, claimSlot := none }).attend).done

/-- RELEASE (07 R146). -/
def State.release (s : State) (h : Handle) : Reply :=
  (((s.emptySlot h.index).modEntry h.index fun e => { e with state := .pending, claimSlot := none }).attend).done

/-- ACK (07 R147). -/
def State.ack (s : State) (h : Handle) : Reply := ((s.acknowledge h.index).attend).done

/-! ### The other requests (07 R137, R138, R148 to R150) -/

/-- FETCH_NOTICE (07 R150). -/
def State.fetchNotice (s : State) : Reply :=
  match s.pu.notices with
  | [] => s.refuse .empty
  | n :: rest => ⟨s.withPu { s.pu with notices := rest }, .ok, n.bytes⟩

/-- The 42 bytes of a STATUS answer (11.5, 07 R149). -/
def State.statusAnswer (s : State) : List Byte :=
  num16 s.flags.word ++ s.counters.inOrder.flatMap num16 ++ [byte s.cs.port.code] ++ bytes32 s.cs.tag ++ bytes32 s.ar.cell
    ++ [byte s.ar.service.code, byte s.ar.quality, byte (bit s.tb.alertClock.isSome), byte s.pu.threshold, s.pu.optout]

/-- STATUS: the fault flags are reported and cleared (07 R149). -/
def State.status (s : State) : Reply := ⟨s.withFlags FaultFlags.clear, .ok, s.statusAnswer⟩

/-- A CLAIMED entry goes back to PENDING (07 R148). -/
def Entry.unclaimed (e : Entry) : Entry := if e.state = .claimed then { e with state := .pending, claimSlot := none } else e

/-- RESTART (07 R148). -/
def State.restart (s : State) : Reply :=
  (((s.withTable (s.table.map Entry.unclaimed)).withPu
    { s.pu with slots := List.replicate 4 none, notices := [] }).attend).done

/-- SET_THRESHOLD (07 R138). -/
def State.setThreshold (s : State) (n : Nat) : Reply := ((s.withPu { s.pu with threshold := n }).attend).done

/-- The opt-out set of a mask: the NATIONAL flag is ignored (07 R137). -/
def optoutOf (mask : Byte) : Byte := mask &&& 0xFE#8

/-- The PENDING entry is of a category opted out. -/
def Entry.withheldBy (e : Entry) (mask : Byte) : Bool :=
  e.state == .pending && (match e.category with
    | some c => optedOut mask c
    | none => false)

/-- SET_OPTOUT: the set is replaced, and PENDING entries of its categories are closed WITHHELD (07 R137).  So is, where
the set is the one already held, an entry of those categories that RELEASE or RESTART has returned to PENDING (log 35). -/
def State.setOptout (s : State) (mask : Byte) : Reply :=
  let set := optoutOf mask
  let s1 := s.withPu { s.pu with optout := set }
  ⟨((s1.indexes fun e => e.withheldBy set).foldl (fun s i => s.closeEntry i .withheld) s1).attend, .ok, [set]⟩

/-! ### One request (07 R141) -/

/-- The request is carried out or refused by its own rule (07 R141, steps 3 and 4). -/
def State.carryOut (s : State) (r : Request) : Reply :=
  match r with
  | .claim => s.claim
  | .read h offset length => s.read h offset length
  | .complete h => s.complete h
  | .release h => s.release h
  | .ack h => s.ack h
  | .fetchNotice => s.fetchNotice
  | .status => s.status
  | .restart => s.restart
  | .setThreshold n => s.setThreshold n
  | .setOptout mask => s.setOptout mask

/-- PU judges a request: ranges, then handles, then the request itself (07 R141). -/
def State.judge (s : State) (r : Request) : Reply :=
  if !r.inRange then s.refuse .badRequest
  else if !s.fits r then s.refuse .stale
  else s.carryOut r

end Sys2Proof.Machine
end

