-- ==== Sys2Proof/Machine/AppLink.lean ====
section
/-! DEFINITION. The meanings of the application link's write transfers: framing, the response buffer, the held request
(09 R180 to R182). -/

namespace Sys2Proof.Machine

/-! ### One ended request (09 R180, R182) -/

/-- The answer to an ended request: NOT_READY where it ended in start-up, BAD_REQUEST for a bad one, else PU's. -/
def State.replyTo (s : State) (q : EndedRequest) : Reply :=
  if q.early then s.refuse .notReady
  else
    match judgeRequest q.bytes with
    | none => s.refuse .badRequest
    | some r => s.judge r

/-- The response record of a reply to a request. -/
def responseTo (q : EndedRequest) (r : Reply) : List Byte :=
  responseRecord (requestKind q.bytes) (requestSeq q.bytes) r.result r.answer

/-- A response is placed: the buffer goes to READY, and at once to WORKING for a held request (09 R181, R182). -/
def AppLink.place (a : AppLink) (response : List Byte) : AppLink :=
  match a.held with
  | some q => { a with buffer := .working q, held := none }
  | none => { a with buffer := .ready response }

/-- The request worked on is answered. -/
def State.answerRequest (s : State) (q : EndedRequest) : State :=
  let r := s.replyTo q
  r.state.withAl (r.state.al.place (responseTo q r))

/-! ### What the host sends (09 R180 to R182; log 8) -/

/-- A stretch of what the host sends: the state it has led to, and the response to be placed at its end, where a
request has been taken up in it. -/
structure Stretch where
  state : State
  response : Option (List Byte)

/-- The bytes of a request that has ended. -/
def FramerEvent.bytes : FramerEvent → List Byte
  | .record bs => bs
  | .badLength bs => bs
  | .truncated bs => bs

/-- A request ends: while another is worked on it is held, in place of any held before; else the buffer goes to
WORKING and the request is carried out (09 R181, R182). -/
def Stretch.requestEnds (w : Stretch) (e : FramerEvent) : Stretch :=
  let s := w.state
  let q : EndedRequest := ⟨e.bytes, !s.started⟩
  match s.al.buffer with
  | .working _ => ⟨s.withAl { s.al with held := some q }, w.response⟩
  | _ =>
    let r := (s.withAl { s.al with buffer := .working q }).replyTo q
    ⟨r.state, some (responseTo q r)⟩

/-- The framer goes to a state and has found these ends. -/
def Stretch.framed (w : Stretch) (r : Framer × List FramerEvent) : Stretch :=
  r.2.foldl Stretch.requestEnds { w with state := w.state.withAl { w.state.al with framer := r.1 } }

/-- The host writes bytes with no gap between them (09 R180). -/
def Stretch.bytesCome (w : Stretch) (bytes : List Byte) : Stretch :=
  if bytes = [] then w
  else
    { w with state := w.state.withAl { w.state.al with lastByte := w.state.now } }.framed
      (w.state.al.framer.feed requestMost bytes)

/-- More than 5 ms pass with no byte: time runs on to the gap's end, and the gap ends what the framer was at
(09 R180; log 21). -/
def Stretch.gapPasses (w : Stretch) : Stretch :=
  let gapEnd := w.state.al.lastByte + 6
  if w.state.al.framer = .idle ∨ (w.state.runTo gapEnd).now < gapEnd then w
  else { w with state := w.state.runTo gapEnd }.framed w.state.al.framer.gap

/-- One thing that the host sends. -/
def Stretch.input (w : Stretch) : HostInput → Stretch
  | .bytes bs => w.bytesCome bs
  | .gap => w.gapPasses

/-- At the end of a stretch the response to the request taken up in it is placed (09 R181). -/
def Stretch.placed (w : Stretch) : State :=
  match w.response with
  | some r => w.state.withAl (w.state.al.place r)
  | none => w.state

/-- What the host sends is taken, in order. -/
def State.fromHost (s : State) (inputs : List HostInput) : State := (inputs.foldl Stretch.input ⟨s, none⟩).placed

/-- A request record of a kind and body is written, and more is sent while it is worked on. -/
def State.hostRequest (s : State) (kind : Byte) (body : List Byte) (during : List HostInput) : State :=
  s.fromHost (.bytes (linkRecord kind body) :: during)

/-- What a read transfer returns: the response while the buffer is READY, else the length 0x0000 (09 R181). -/
def AppLink.readTransfer (a : AppLink) : List Byte :=
  match a.buffer with
  | .ready response => response
  | .empty => [0, 0]
  | .working _ => [0, 0]

/-! ### The commands -/

/-- CLAIM (07 R143). -/
def execClaim (seq : Byte) (during : List HostInput) (s : State) : Host.Outcome State Fault Refusal :=
  .next (s.hostRequest 0x21 [seq] during)

/-- READ (07 R144). -/
def execRead (seq index generation : Byte) (offset : Word16) (length : Byte) (during : List HostInput) (s : State) :
    Host.Outcome State Fault Refusal :=
  .next (s.hostRequest 0x22 ([seq, index, generation] ++ bytes16 offset ++ [length]) during)

/-- COMPLETE (07 R145). -/
def execComplete (seq index generation : Byte) (during : List HostInput) (s : State) :
    Host.Outcome State Fault Refusal :=
  .next (s.hostRequest 0x23 [seq, index, generation] during)

/-- RELEASE (07 R146). -/
def execRelease (seq index generation : Byte) (during : List HostInput) (s : State) :
    Host.Outcome State Fault Refusal :=
  .next (s.hostRequest 0x24 [seq, index, generation] during)

/-- ACK (07 R147). -/
def execAck (seq index generation : Byte) (during : List HostInput) (s : State) : Host.Outcome State Fault Refusal :=
  .next (s.hostRequest 0x25 [seq, index, generation] during)

/-- FETCH_NOTICE (07 R150). -/
def execFetchNotice (seq : Byte) (during : List HostInput) (s : State) : Host.Outcome State Fault Refusal :=
  .next (s.hostRequest 0x26 [seq] during)

/-- STATUS (07 R149). -/
def execStatus (seq : Byte) (during : List HostInput) (s : State) : Host.Outcome State Fault Refusal :=
  .next (s.hostRequest 0x27 [seq] during)

/-- RESTART (07 R148). -/
def execRestart (seq : Byte) (during : List HostInput) (s : State) : Host.Outcome State Fault Refusal :=
  .next (s.hostRequest 0x28 [seq] during)

/-- SET_THRESHOLD (07 R138). -/
def execSetThreshold (seq n : Byte) (during : List HostInput) (s : State) : Host.Outcome State Fault Refusal :=
  .next (s.hostRequest 0x29 [seq, n] during)

/-- SET_OPTOUT (07 R137). -/
def execSetOptout (seq mask : Byte) (during : List HostInput) (s : State) : Host.Outcome State Fault Refusal :=
  .next (s.hostRequest 0x2A [seq, mask] during)

/-- BAD_REQUEST_RECORD: the bytes of a bad request (09 R180). -/
def execBadRequestRecord (bytes : List Byte) (during : List HostInput) (s : State) :
    Host.Outcome State Fault Refusal :=
  .next (s.fromHost (.bytes bytes :: during))

/-- APP_GAP_TIMEOUT: bytes, if any, and then more than 5 ms with none (09 R180; log 21). -/
def execAppGapTimeout (bytes : List Byte) (during : List HostInput) (s : State) :
    Host.Outcome State Fault Refusal :=
  .next (s.fromHost (.bytes bytes :: .gap :: during))

/-- HELD_REQUEST: the held request, now worked on, is answered (09 R182). -/
def execHeldRequest (s : State) : Host.Outcome State Fault Refusal :=
  .next (match s.al.buffer with
    | .working q => s.answerRequest q
    | _ => s)

end Sys2Proof.Machine
end

