-- ==== Sys2Proof/Machine/Area.lean ====
section
/-! DEFINITION. The Area Resolver: matching, the region map cache, the verdict procedure, queries and their ends
(03). -/

namespace Sys2Proof.Machine

/-- A descriptor matches a region code: their top 8 x depth bits are equal (03 R52). -/
def Descriptor.covers (d : Descriptor) (code : Word32) : Bool :=
  d.code >>> (32 - 8 * d.depth) == code >>> (32 - 8 * d.depth)

/-- An area list matches a region code: it is empty, or one of its descriptors matches (03 R53). -/
def areaMatches (areas : List Descriptor) (code : Word32) : Bool := areas.isEmpty || areas.any fun d => d.covers code

/-- INSIDE when the area list matches the code, otherwise OUTSIDE (03 R58, R61). -/
def verdictBy (areas : List Descriptor) (code : Word32) : Verdict := if areaMatches areas code then .inside else .outside

/-! ### The cache (03 R54 to R57) -/

/-- The code of the valid cache entry for a cell (03 R55). -/
def Resolver.cached (r : Resolver) (cell : Word32) : Option Word32 :=
  (r.cache.find? fun c => c.valid && c.cell == cell).map (·.code)

/-- A hit moves its cache entry to the front; a miss changes nothing (03 R55). -/
def Resolver.touched (r : Resolver) (cell : Word32) : Resolver :=
  match r.cache.find? (fun c => c.valid && c.cell == cell) with
  | some c => { r with cache := c :: r.cache.eraseP fun c => c.valid && c.cell == cell }
  | none => r

/-- The cache without its entry to be replaced when no valid one is of the cell: the invalid one nearest the back, else the
least recently used (03 R56). -/
def cacheWithout (cache : List CacheEntry) : List CacheEntry :=
  if cache.any (fun c => !c.valid) then (cache.reverse.eraseP fun c => !c.valid).reverse else cache.dropLast

/-- A fill: the valid entry of the same cell, else an invalid one from the back of the order, else the least recently
used, takes cell and code and moves to the front (03 R56). -/
def Resolver.filled (r : Resolver) (cell code : Word32) : Resolver :=
  if r.cache.any (fun c => c.valid && c.cell == cell) then
    { r with cache := ⟨true, cell, code⟩ :: r.cache.eraseP fun c => c.valid && c.cell == cell }
  else { r with cache := ⟨true, cell, code⟩ :: cacheWithout r.cache }

/-- All cache entries become invalid (03 R57). -/
def Resolver.invalidated (r : Resolver) : Resolver := { r with cache := r.cache.map fun c => { c with valid := false } }

/-! ### The verdict procedure (03 R58, R60) -/

/-- The verdict of steps 1 to 4, or none at a miss (03 R58). -/
def State.verdictFor (s : State) (i : Nat) : Option Verdict :=
  if s.settings.areaCheck = 0 then some .inside
  else if (s.entry i).areas = [] then some .inside
  else if s.ar.cell = 0 then some .unresolved
  else (s.ar.cached s.ar.cell).map (verdictBy (s.entry i).areas)

/-- The procedure makes a lookup for the entry: it comes to step 4 (03 R55, R58). -/
def State.looksUp (s : State) (i : Nat) : Bool :=
  s.settings.areaCheck != 0 && !(s.entry i).areas.isEmpty && s.ar.cell != 0

/-- A REGION_QUERY for the serving cell is handed to the Modem Link, and the query timer starts (03 R60). -/
def State.query (s : State) : State :=
  (s.sendQuery s.ar.cell).withAr { s.ar with queryTimer := some (s.now + s.settings.queryTimeout * 1000) }

/-- A query is sent where none is outstanding (03 R60). -/
def State.queryIfNone (s : State) : State :=
  match s.ml.queryMarker with
  | none => s.query
  | some _ => s

/-- An entry joins the waiting set (03 R58, step 5). -/
def State.joinWaiting (s : State) (i : Nat) : State := (s.withAr { s.ar with waiting := s.ar.waiting ++ [i] }).queryIfNone

/-- AR takes in one entry: its verdict to be given, or its place in the waiting set (03 R58). -/
def State.takeIn (p : State × List (Nat × Verdict)) (i : Nat) : State × List (Nat × Verdict) :=
  let s := if p.1.looksUp i then p.1.withAr (p.1.ar.touched p.1.ar.cell) else p.1
  match p.1.verdictFor i with
  | some v => (s, p.2 ++ [(i, v)])
  | none => (s.joinWaiting i, p.2)

/-- AR takes in entries at one move, and AT makes the moves of their verdicts (03 R50, R58; 01 R19). -/
def State.resolve (s : State) (is : List Nat) : State :=
  let r := is.foldl State.takeIn (s, [])
  r.1.giveVerdicts r.2

/-- A change of serving cell: OUTSIDE entries go to LOCATING, the waiting set is emptied, and every LOCATING entry is
resolved for the new cell, in the order of index (03 R50, 01 R20; log 12). -/
def State.changeCell (s : State) : State :=
  let s1 := (s.withTable (s.table.map fun e =>
    if e.state = .outside then { e with state := .locating, verdict := .undecided } else e)).withAr
      { s.ar with waiting := [] }
  s1.resolve (s1.indexes fun e => e.state == .locating)

/-! ### The end of a query (03 R60 to R64) -/

/-- Every waiting entry gets its verdict at one move, in the order of joining the set (log 12), and the set is emptied. -/
def State.judgeWaiting (s : State) (verdict : List Descriptor → Verdict) : State :=
  (s.withAr { s.ar with waiting := [] }).giveVerdicts (s.ar.waiting.map fun i => (i, verdict (s.entry i).areas))

/-- The outstanding query ends: its mark is cleared, an unsent record withdrawn, the timer stops (03 R60, 09 R178). -/
def State.endQuery (s : State) : State := s.clearQuery.withAr { s.ar with queryTimer := none }

/-- The follow-up after a query that gave no verdict (03 R62). -/
def State.followUp (s : State) : State :=
  if s.ar.waiting = [] then s
  else if s.ar.cell = 0 then s.judgeWaiting fun _ => .unresolved
  else
    match s.ar.cached s.ar.cell with
    | some code => (s.withAr (s.ar.touched s.ar.cell)).judgeWaiting fun areas => verdictBy areas code
    | none => s.query

/-- The outstanding query ends by its timer, or as if by it (03 R63, R64). -/
def State.queryTimedOut (s : State) : State :=
  match s.ml.queryMarker with
  | some cell =>
    let s1 := s.endQuery.flag .queryTimeout
    if cell = s.ar.cell then s1.judgeWaiting fun _ => .unresolved else s1.followUp
  | none => s

/-- A REGION answer (03 R61). -/
def State.regionAnswer (s : State) (cell : Word32) (code : Option Word32) : State :=
  let s1 := match code with
    | some c => if cell = 0 then s else s.withAr (s.ar.filled cell c)
    | none => s
  if s1.ml.queryMarker = some cell then
    if cell = s1.ar.cell then
      s1.endQuery.judgeWaiting fun areas => (match code with
        | some c => verdictBy areas c
        | none => .unresolved)
    else s1.endQuery.followUp
  else s1

/-- A CELL record: a bad one is dropped and counted; else the location is replaced, and a different cell id is a change
of serving cell (03 R49). -/
def State.cellRecord (s : State) (cell : Word32) (service quality : Byte) : State :=
  match Service.ofCode service with
  | some sv =>
    if quality.toNat ≤ 3 then
      let s1 := s.withAr { s.ar with cell := cell, service := sv, quality := quality.toNat }
      if cell = s.ar.cell then s1 else s1.changeCell
    else s.count .linkError
  | none => s.count .linkError

end Sys2Proof.Machine
end

