-- ==== Sys2Proof/Machine/Modem.lean ====
section
/-! DEFINITION. The meanings of the modem link's records and lines (09).  A record's row carries its fields; the bytes
are framed and judged as any bytes of the link are (log 22). -/

namespace Sys2Proof.Machine

/-! ### Records taken (09 R174, R175) -/

/-- The outstanding uplink, if any, fails by HELLO: UPLINK_TIMEOUT is set (06 R127, 09 R175). -/
def State.helloUplink (s : State) : State :=
  match s.ml.uplinkMarker with
  | some _ => (s.flag .uplinkTimeout).endUplink false
  | none => s

/-- A HELLO: the cache is invalidated, an outstanding query ends as timed out, an outstanding uplink fails
(09 R175, 03 R57, R64).  The spec sets no order between AR and RU; the model takes AR first, so a fresh query stands before
a fresh uplink in the hold (log 12).  Where the line is high and nothing is being sent, a fresh record is begun at once
(09 R177); where the line falls at that very moment it waits in the hold all the same (09 R179; log 36). -/
def State.hello (s : State) : State :=
  let t := ((s.withAr s.ar.invalidated).queryTimedOut).helloUplink
  t.withMl (t.ml.noteHello s.ml s.now)

/-- A TIME record sets the alert clock (09 R176). -/
def State.setClock (s : State) (seconds : Word32) : State :=
  s.withTb { s.tb with alertClock := some seconds.toNat }

/-- An UPLINK_RESULT accepts or fails the outstanding uplink it matches, else it is late (06 R128). -/
def State.uplinkAnswered (s : State) (issue : Issue) (accepted : Bool) : State :=
  if s.ml.uplinkMarker = some issue then s.endUplink accepted else s.count .lateResult

/-- A good record is handed to the block that deals in its kind (09 R174). -/
def State.takeModem (s : State) (r : FromModem) : State :=
  match r with
  | .hello => s.hello
  | .cell c service quality => s.cellRecord c service quality
  | .fragment body => s.intake .broadcast body
  | .region c code => s.regionAnswer c code
  | .time seconds => s.setClock seconds
  | .uplinkResult issue accepted => s.uplinkAnswered issue accepted

/-- What the receive framer finds: a whole record is judged; a bad one, a bad length and a record cut short count
LINK_ERROR (09 R172, R173). -/
def State.modemEvent (s : State) (e : FramerEvent) : State :=
  match e with
  | .record bytes => (match judgeModem bytes with
    | some r => s.takeModem r
    | none => s.count .linkError)
  | .badLength _ => s.count .linkError
  | .truncated _ => s.count .linkError

/-- The modem sends bytes with no gap between them; none is taken while the part ready line is low (09 R171, R172). -/
def State.modemBytes (s : State) (bytes : List Byte) : State :=
  if s.ml.partReady ∧ bytes ≠ [] then
    let r := s.ml.framer.feed modemMost bytes
    r.2.foldl State.modemEvent (s.withMl { s.ml with framer := r.1, lastByte := s.now })
  else s

/-- A gap of more than 5 ms ends what the framer was at (09 R172). -/
def State.modemGap (s : State) : State :=
  let r := s.ml.framer.gap
  r.2.foldl State.modemEvent (s.withMl { s.ml with framer := r.1 })

/-- A record of a kind and body arrives from the modem. -/
def State.fromModem (s : State) (kind : Byte) (body : List Byte) : State := s.modemBytes (linkRecord kind body)

/-! ### The commands -/

/-- HELLO (09 R175). -/
def execHello (s : State) : Host.Outcome State Fault Refusal := .next (s.fromModem 1 [])

/-- CELL (03 R49). -/
def execCell (cell : Word32) (service quality : Byte) (s : State) : Host.Outcome State Fault Refusal :=
  .next (s.fromModem 2 (bytes32 cell ++ [service, quality]))

/-- FRAGMENT (02 R31). -/
def execFragment (record : List Byte) (s : State) : Host.Outcome State Fault Refusal := .next (s.fromModem 3 record)

/-- REGION (03 R61). -/
def execRegion (cell : Word32) (answer : Byte) (code : Word32) (s : State) : Host.Outcome State Fault Refusal :=
  .next (s.fromModem 4 (bytes32 cell ++ [answer] ++ bytes32 code))

/-- TIME (09 R176). -/
def execTime (seconds : Word32) (s : State) : Host.Outcome State Fault Refusal := .next (s.fromModem 5 (bytes32 seconds))

/-- UPLINK_RESULT (06 R128). -/
def execUplinkResult (origin : Word16) (number : Word24) (revision outcome : Byte) (s : State) :
    Host.Outcome State Fault Refusal :=
  .next (s.fromModem 6 (bytes16 origin ++ bytes24 number ++ [revision, outcome]))

/-- LINK_RECORD_DROPPED: the bytes of a record that is dropped (09 R172, R173). -/
def execLinkRecordDropped (bytes : List Byte) (s : State) : Host.Outcome State Fault Refusal := .next (s.modemBytes bytes)

/-- MODEM_GAP_TIMEOUT: bytes, if any, and then more than 5 ms with none (09 R172; log 21). -/
def execModemGapTimeout (bytes : List Byte) (s : State) : Host.Outcome State Fault Refusal :=
  .next (
    let s1 := s.modemBytes bytes
    if s1.ml.framer = .idle then s1 else s1.runsOut (s1.ml.lastByte + 6) State.modemGap)

/-- MODEM_READY_RISE: the head of the hold is begun; through start-up the line is not read (09 R177, 10 R184). -/
def execModemReadyRise (s : State) : Host.Outcome State Fault Refusal :=
  .next (
    let m := { s.ml with modemReady := true }
    s.withMl (if s.started then m.trySend else m))

/-- MODEM_READY_FALL: a record being sent goes on to its end, unless a HELLO of this moment began it (09 R177, R179). -/
def execModemReadyFall (s : State) : Host.Outcome State Fault Refusal := .next (s.withMl (s.ml.lineFalls s.now))

/-- MODEM_RECORD_SENT: the record being sent has left, and the next is begun (09 R177). -/
def execModemRecordSent (s : State) : Host.Outcome State Fault Refusal :=
  .next (match s.ml.sending with
    | some _ => s.withMl (ModemLink.trySend { s.ml with sending := none, helloBegan := none })
    | none => s)

end Sys2Proof.Machine
end

