-- ==== Sys2Proof/Machine/Keys.lean ====
section
/-! DEFINITION. The meanings of the cadence phases' ends and of the keys (08). -/

namespace Sys2Proof.Machine

/-! ### Cadence phases (08 R163) -/

/-- A phase of an output has ended: its next phase begins, and the cadence completes where this was the last counted
output to be done (08 R163). -/
def State.phaseEnds (o : Output) (c : Cadence) (s : State) : State :=
  let c1 := c.setOutput o (s.nextPhase c.profile o (c.output o))
  let s1 := s.withAu { s.au with cadence := some c1 }
  if s.cadenceDone c1 ∧ (c1.output o).phase = .done then s1.completeCadence else s1

/-- The ON or OFF phase of an output ends (08 R163). -/
def execCadencePhaseEnd (output : Output) (s : State) : Host.Outcome State Fault Refusal :=
  .next (match s.au.cadence with
    | some c => (match (c.output output).phaseEnd with
      | some t => s.runsOut t (State.phaseEnds output c)
      | none => s)
    | none => s)

/-! ### Key inputs (08 R165, R166) -/

/-- The state of a key. -/
def Attention.key (a : Attention) : KeyName → KeyState
  | .ack => a.ack
  | .silence => a.silence

/-- The state of a key is replaced. -/
def Attention.setKey (a : Attention) : KeyName → KeyState → Attention
  | .ack, k => { a with ack := k }
  | .silence, k => { a with silence := k }

/-- The state of a key is replaced. -/
def State.setKey (s : State) (k : KeyName) (x : KeyState) : State := s.withAu (s.au.setKey k x)

/-- The level on a key input, high or not: what drives it, else its pull, else a free value (08 R165; log 13). -/
def State.keyLevel (s : State) (k : KeyName) (d : Drive) : Bool :=
  match d with
  | .high => true
  | .low => false
  | .nothing =>
    if s.settings.pull k = 1 then true else if s.settings.pull k = 2 then false else Config.freeLevel s.tb.drawn

/-- Whether the level of a key input is a free value (log 13). -/
def State.keyFloats (s : State) (k : KeyName) (d : Drive) : Bool := d == .nothing && s.settings.pull k == 0

/-- A free level has been used (log 13). -/
def State.afterLevel (s : State) (k : KeyName) (d : Drive) : State :=
  if s.keyFloats k d then s.withTb { s.tb with drawn := s.tb.drawn + 1 } else s

/-- The level on a key input is active (08 R165). -/
def State.keyActive (s : State) (k : KeyName) : Bool := (s.au.key k).levelHigh == s.settings.activeHigh k

/-- What drives a key input changes; from the end of start-up a change of its level restarts the debounce timer
(08 R165, R166). -/
def execKeyEdge (key : KeyName) (drive : Drive) (s : State) : Host.Outcome State Fault Refusal :=
  .next (
    let x := s.au.key key
    if s.started then
      let level := s.keyLevel key drive
      (s.afterLevel key drive).setKey key { x with
        drive := drive, levelHigh := level
        timer := if level = x.levelHigh then x.timer else some (s.now + 20) }
    else s.setKey key { x with drive := drive })

/-! ### Presses (08 R167, R168) -/

/-- An ACK press closes the owner as acknowledged, with KEY_ACK for one the host holds or has shown; without an owner it
is counted (08 R167, 01 R22). -/
def State.ackPress (s : State) : State :=
  match s.au.owner with
  | some o =>
    let s1 := s.acknowledge o.index
    (if (s.entry o.index).isHeld then s1.post ⟨.keyAck, s.handle o.index, none⟩ else s1).attend
  | none => s.count .idleKey

/-- Every eligible entry's sounded flag is set (08 R168). -/
def State.silenceAll (s : State) : State :=
  s.withTable (s.table.map fun e => if e.eligible s.pu.threshold then { e with sounded := true } else e)

/-- A SILENCE press silences every eligible entry, with KEY_SILENCE for an owner the host holds or has shown; without an
owner it changes nothing (08 R168). -/
def State.silencePress (s : State) : State :=
  match s.au.owner with
  | some o => (s.silenceAll.postIfHeld o.index .keySilence none).attend
  | none => s

/-- A press of a key. -/
def State.press (s : State) : KeyName → State
  | .ack => s.ackPress
  | .silence => s.silencePress

/-- The debounce timer of a key has run out: a level that differs from the accepted one is accepted, and a change to
active is a press (08 R166). -/
def State.debounced (k : KeyName) (s : State) : State :=
  let active := s.keyActive k
  let s1 := s.setKey k { s.au.key k with accepted := active, timer := none }
  if active ∧ (s.au.key k).accepted = false then s1.press k else s1

/-- The debounce timer of a key runs out (08 R166). -/
def execDebounceEnd (key : KeyName) (s : State) : Host.Outcome State Fault Refusal :=
  .next (match (s.au.key key).timer with
    | some t => s.runsOut t (State.debounced key)
    | none => s)

end Sys2Proof.Machine
end

