-- ==== Sys2Proof/Machine/Hear.lean ====
section
/-! DEFINITION. What is heard on the relay channel: OFFER and WANT settled by RS (05 R94 to R100, R102), report frames
judged by RU (06 R130), the reception filter, echo and clash (04 R74 to R77). -/

namespace Sys2Proof.Machine

/-! ### OFFER (05 R95, R96) -/

/-- The CLOSED(CANCELLED) entry of a key. -/
def State.tombstoneOf (s : State) (k : Key) : Option Nat := s.findEntry fun e => e.isTombstone && e.ofKey k

/-- The complete entry of a key: the one of highest revision, ties going to the lowest index (05 R95; log 11). -/
def State.completeOf (s : State) (k : Key) : Option Nat :=
  s.leastEntry fun e => if e.isComplete && e.ofKey k then some (15 - e.revision, 0) else none

/-- Rows 7 and 8, once the entry is ASSEMBLING: a WANT for every index of the provisional total, and a fresh want
record (05 R96, R101). -/
def State.askForAll (s : State) (i : Nat) : State := (s.requestWant i).startWant i

/-- Row 8: an entry is taken for the OFFER, from a FREE entry or a husk; where there is none the OFFER ends
(05 R96). -/
def State.offerNew (s : State) (issue : Issue) (total : Nat) (cat : Category) : State :=
  match s.takeEntry issue total cat true with
  | some (i, s1) => s1.askForAll i
  | none => s

/-- Rows 5 to 7: the key has an ASSEMBLING entry and no complete one settles the OFFER (05 R95 to R97). -/
def State.offerAssembling (s : State) (i : Nat) (issue : Issue) (total : Nat) (cat : Category) : State :=
  if issue.revision.toNat < (s.entry i).revision then s
  else if issue.revision.toNat = (s.entry i).revision then (if s.heldOff i then s else s.requestWant i)
  else (s.retarget i issue total cat true).askForAll i

/-- Rows 5 to 8. -/
def State.offerBeyond (s : State) (issue : Issue) (total : Nat) (cat : Category) : State :=
  match s.assemblingOf issue.key with
  | some i => s.offerAssembling i issue total cat
  | none => s.offerNew issue total cat

/-- A well-formed OFFER settled against the table, by the first row that applies (05 R95). -/
def State.settleOffer (s : State) (issue : Issue) (total : Nat) (cat : Category) : State :=
  match s.tombstoneOf issue.key with
  | some i =>
    if issue.revision.toNat < (s.entry i).revision then s.resetOffer i
    else if issue.revision.toNat = (s.entry i).revision then s.heardOffer i
    else s
  | none =>
    match s.completeOf issue.key with
    | some i =>
      if issue.revision.toNat < (s.entry i).revision then s.resetOffer i
      else if issue.revision.toNat = (s.entry i).revision then s.heardOffer i
      else s.offerBeyond issue total cat
    | none => s.offerBeyond issue total cat

/-! ### WANT (05 R99, R100) -/

/-- CS is asked to queue a PIECE for one index, where the entry's position names a slot (05 R100). -/
def State.supplyIndex (s : State) (i : Nat) (issue : Issue) (index : Nat) : State :=
  match s.buildRecord i index with
  | some record => s.request (.piece issue index record)
  | none => s

/-- The wanted indexes that the entry holds, ascending (05 R99, R100). -/
def Entry.wantedHeld (e : Entry) (wanted : Word16) : List Nat :=
  (List.range 16).filter fun k => wanted.getLsbD k && e.holdsIndex k

/-- A well-formed WANT: the reset of the offer record of a complete entry at the revision or higher, and the supply
from the entry at exactly the revision (05 R99, R100).  The spec does not order the two; the model resets first (log 12). -/
def State.settleWant (s : State) (issue : Issue) (wanted : Word16) : State :=
  let s1 := match s.findEntry (fun e => e.isComplete && e.ofKey issue.key && issue.revision.toNat ≤ e.revision
      && e.offer.isSome) with
    | some i => s.resetOffer i
    | none => s
  match s1.findEntry (fun e => e.ofIssue issue) with
  | some i => ((s1.entry i).wantedHeld wanted).foldl (fun s k => s.supplyIndex i issue k) s1
  | none => s1

/-! ### Deliveries by kind (04 R77) -/

/-- RS takes an OFFER body, or drops it with LINK_ERROR (05 R94). -/
def State.hearOffer (s : State) (body : List Byte) : State :=
  match parseOffer body with
  | some (issue, total, cat) => s.settleOffer issue total cat
  | none => s.count .linkError

/-- RS takes a WANT body, or drops it with LINK_ERROR (05 R94). -/
def State.hearWant (s : State) (body : List Byte) : State :=
  match parseWant body with
  | some (issue, wanted) => s.settleWant issue wanted
  | none => s.count .linkError

/-- A PIECE goes to Fragment Intake as a record from RELAY, and RS has our own identical PIECE removed; the spec sets no
order between the two, and the model takes Fragment Intake first (04 R77, 05 R102; log 12). -/
def State.hearPiece (s : State) (body : List Byte) : State :=
  let s1 := s.intake .relay body
  match pieceName body with
  | some (issue, index) => s1.removePieces issue (some index)
  | none => s1

/-- RU takes a TALLY body, or drops it with LINK_ERROR (06 R121, R130). -/
def State.hearTally (s : State) (body : List Byte) : State :=
  match parseTally body with
  | some (issue, items) => s.heardTally issue items
  | none => s.count .linkError

/-- RU takes a STAND body, or drops it with LINK_ERROR (06 R118, R130). -/
def State.hearStand (s : State) (sender : Word32) (body : List Byte) : State :=
  match parseStand body with
  | some (issue, bid, size) => s.heardStand sender issue bid size
  | none => s.count .linkError

/-- RU takes a COVERED body, or drops it with LINK_ERROR (06 R122, R130). -/
def State.hearCovered (s : State) (body : List Byte) : State :=
  match parseCovered body with
  | some (issue, level, tags) => s.heardCovered issue level tags
  | none => s.count .linkError

/-- RU takes a YIELD body, or drops it with LINK_ERROR (06 R123, R130). -/
def State.hearYield (s : State) (sender : Word32) (body : List Byte) : State :=
  match parseIssue body with
  | some issue => s.heardYield sender issue
  | none => s.count .linkError

/-- A frame is delivered by its kind (04 R77). -/
def State.deliver (s : State) (kind : FrameKind) (sender : Word32) (body : List Byte) : State :=
  match kind with
  | .offer => s.hearOffer body
  | .want => s.hearWant body
  | .piece => s.hearPiece body
  | .tally => s.hearTally body
  | .stand => s.hearStand sender body
  | .covered => s.hearCovered body
  | .yield => s.hearYield sender body

/-! ### The reception filter, echo and clash (04 R67, R74, R75, R76) -/

/-- The frame is an echo of our own transmission (04 R74). -/
def Station.isEcho (c : Station) (f : Frame) : Bool := c.echo.contains ⟨f.sender, f.kind, f.check⟩

/-- A clash: TAG_CLASH is set and a new tag marked to be drawn, at once where no tally holds the draw back
(04 R74, R75). -/
def State.clash (s : State) : State :=
  let s1 := (s.flag .tagClash).withCs { s.cs with tagMarked := true }
  if s1.roundRuns then s1 else s1.drawTag

/-- A frame that has passed the filter: dropped as an echo, else tested for a clash and delivered (04 R74, R77). -/
def State.takeFrame (s : State) (f : Frame) : State :=
  if s.cs.isEcho f then s
  else (if f.sender = s.cs.tag then s.clash else s).deliver f.kind f.sender f.body

/-- A frame delivered by the radio: discarded unread while the port is DOWN, as it is through start-up; dropped and
counted by the filter; else taken (04 R67, R71, R76). -/
def State.receive (s : State) (bytes : List Byte) : State :=
  if s.cs.port = .down then s
  else
    match parseFrame bytes with
    | some f => s.takeFrame f
    | none => s.count .linkError

end Sys2Proof.Machine
end

