-- ==== Sys2Proof/Machine/Port.lean ====
section
/-! DEFINITION. The meanings of the radio port's commands: its lines, backoff, answers, timers, received frames (04). -/

namespace Sys2Proof.Machine

/-- The port goes UP, RS is told that the channel is available, and the arbiter chooses (04 R68, R72, R82). -/
def State.portUp (s : State) : State := ((s.withCs { s.cs with port := .up }).relayAvailable).arbitrate

/-- READY rises: a DOWN port goes UP once start-up has finished; a FAULTED one stays (04 R68). -/
def execReadyRise (s : State) : Host.Outcome State Fault Refusal :=
  let s1 := s.withCs { s.cs with ready := true }
  .next (if s1.started ∧ s1.cs.port = .down then s1.portUp else s1)

/-- The station after a move to DOWN: queues, echo list and contender go, CW, control run and timeout run return to their
starts; a frame in flight starts the late-answer guard (04 R69, R70).  The level of the BUSY line is kept: what 04 R69 says
is dropped of a high one is read as its part in the backoff that goes (log 37). -/
def Station.fallen (c : Station) (cwMin guard : Nat) : Station :=
  { c with
    port := .down, echo := [], control := [], bulk := [], contender := none, inFlight := none
    guardEnd := if c.inFlight.isSome then some guard else c.guardEnd
    cw := cwMin, controlRun := 0, timeoutRun := 0 }

/-- The port goes DOWN, and a frame in flight is counted lost (04 R69). -/
def State.portDown (s : State) : State :=
  let s1 := if s.cs.inFlight.isSome then s.count .framesLost else s
  s1.withCs (s.cs.fallen s.settings.cwMin (s.now + s.settings.portTimeout))

/-- READY falls: an UP or FAULTED port goes DOWN (04 R69). -/
def execReadyFall (s : State) : Host.Outcome State Fault Refusal :=
  let s1 := s.withCs { s.cs with ready := false }
  .next (if s1.cs.port = .down then s1 else s1.portDown)

/-- BUSY rises: the slot being counted does not count (04 R83).  The line's level is followed with the port in any state
(04 R67; log 37). -/
def execBusyRise (s : State) : Host.Outcome State Fault Refusal :=
  .next (s.withCs { s.cs with
    busy := true, contender := s.cs.contender.map fun k => { k with slotEnd := none } })

/-- The contender goes where its count is 0 and it may, or a fresh slot time begins (04 R83). -/
def State.countOn (s : State) (k : Contender) : State :=
  if k.count = 0 then (s.withCs { s.cs with contender := some { k with slotEnd := none } }).tryHandOver
  else s.withCs { s.cs with contender := some { k with slotEnd := some (s.now + s.settings.slotTime) } }

/-- BUSY falls: counting begins again with a fresh slot time, or a contender whose count is 0 goes (04 R83).  A fall of
a line that is low already is none. -/
def execBusyFall (s : State) : Host.Outcome State Fault Refusal :=
  let s1 := s.withCs { s.cs with busy := false }
  .next (if s.cs.busy then (match s1.cs.contender with
    | some k => s1.countOn k
    | none => s1) else s1)

/-- A whole slot time with BUSY low has ended: the count goes down by one.  `rises`: BUSY rises at the same moment,
after the slot's end (04 R83). -/
def State.slotEnds (k : Contender) (rises : Bool) (s : State) : State :=
  let k1 : Contender := { k with count := k.count - 1, slotEnd := none }
  if rises then s.withCs { s.cs with busy := true, contender := some k1 } else s.countOn k1

/-- The end of a backoff slot (04 R83); without a slot being counted, nothing (log 17). -/
def execBackoffSlotEnd (busyRises : Bool) (s : State) : Host.Outcome State Fault Refusal :=
  .next (match s.cs.contender with
    | some k => (match k.slotEnd with
      | some t => s.runsOut t (State.slotEnds k busyRises)
      | none => s)
    | none => s)

/-- The asking block is told that its frame has been sent; RS alone acts on it, for a WANT (04 R84, 05 R101). -/
def State.tellSent (s : State) (p : Payload) : State :=
  match p with
  | .want i _ => s.wantSent i
  | .offer .. => s
  | .piece .. => s
  | .tally .. => s
  | .stand .. => s
  | .covered .. => s
  | .yield .. => s

/-- The frame in flight that an answer of the radio answers; none while the late-answer guard runs (04 R67, R70). -/
def Station.answered (c : Station) : Option InFlight :=
  match c.guardEnd with
  | some _ => none
  | none => c.inFlight

/-- The radio answers SENT for the frame in flight (04 R84); an answer to no frame is ignored (04 R67, R70). -/
def execSent (s : State) : Host.Outcome State Fault Refusal :=
  .next (match s.cs.answered with
    | some f => (((s.count .framesSent).withCs { s.cs with inFlight := none, timeoutRun := 0, cw := s.settings.cwMin }).tellSent
        f.payload).arbitrate
    | none => s)

/-- The radio answers LOST for the frame in flight (04 R85); an answer to no frame is ignored (04 R67, R70). -/
def execLost (s : State) : Host.Outcome State Fault Refusal :=
  .next (match s.cs.answered with
    | some f => (((s.count .framesLost).withCs { s.cs with
        timeoutRun := 0, cw := doubledWindow s.cs.cw s.settings.cwMax }).putBack f).contendAfterLoss f
    | none => s)

/-- The port timer has run out for the frame in flight: it is counted lost, and the third time in a row takes the port
to FAULTED, where no contender stands (04 R70, R71, R85). -/
def State.portTimesOut (f : InFlight) (s : State) : State :=
  let s1 := (((s.count .framesLost).flag .radioFault).withCs { s.cs with
    timeoutRun := s.cs.timeoutRun + 1, cw := doubledWindow s.cs.cw s.settings.cwMax
    guardEnd := some (s.now + s.settings.portTimeout) }).putBack f
  if 3 ≤ s1.cs.timeoutRun then s1.withCs { s1.cs with port := .faulted } else s1.contendAfterLoss f

/-- The port timer of the frame in flight runs out (04 R70). -/
def execPortTimeout (s : State) : Host.Outcome State Fault Refusal :=
  .next (match s.cs.inFlight with
    | some f => s.runsOut f.timerEnd (State.portTimesOut f)
    | none => s)

/-- The late-answer guard runs out, and a contender waiting for it goes (04 R70, R83). -/
def execLateAnswerGuardEnd (s : State) : Host.Outcome State Fault Refusal :=
  .next (match s.cs.guardEnd with
    | some t => s.runsOut t fun s => (s.withCs { s.cs with guardEnd := none }).tryHandOver
    | none => s)

/-- A frame that fails the filter is delivered by the radio (04 R76). -/
def execBadFrame (bytes : List Byte) (s : State) : Host.Outcome State Fault Refusal := .next (s.receive bytes)

/-- A marked tag is drawn once no tally holds the draw back (04 R75, 06 R133; log 24). -/
def execTagRedraw (s : State) : Host.Outcome State Fault Refusal :=
  .next (if s.cs.tagMarked && !s.roundRuns then s.drawTag else s)

/-- The radio delivers a frame of a kind, built with the header and check of 04 R76. -/
def State.hearFrame (s : State) (kind : FrameKind) (sender : Word32) (body : List Byte) : State :=
  s.receive (frameBytes kind sender body)

/-- An OFFER frame is heard (05 R95). -/
def execOffer (sender : Word32) (body : List Byte) (s : State) : Host.Outcome State Fault Refusal :=
  .next (s.hearFrame .offer sender body)

/-- A WANT frame is heard (05 R99). -/
def execWant (sender : Word32) (body : List Byte) (s : State) : Host.Outcome State Fault Refusal :=
  .next (s.hearFrame .want sender body)

/-- A PIECE frame is heard (04 R77). -/
def execPiece (sender : Word32) (body : List Byte) (s : State) : Host.Outcome State Fault Refusal :=
  .next (s.hearFrame .piece sender body)

/-- A TALLY frame is heard (06 R121). -/
def execTally (sender : Word32) (body : List Byte) (s : State) : Host.Outcome State Fault Refusal :=
  .next (s.hearFrame .tally sender body)

/-- A STAND frame is heard (06 R118). -/
def execStand (sender : Word32) (body : List Byte) (s : State) : Host.Outcome State Fault Refusal :=
  .next (s.hearFrame .stand sender body)

/-- A COVERED frame is heard (06 R122). -/
def execCovered (sender : Word32) (body : List Byte) (s : State) : Host.Outcome State Fault Refusal :=
  .next (s.hearFrame .covered sender body)

/-- A YIELD frame is heard (06 R123). -/
def execYield (sender : Word32) (body : List Byte) (s : State) : Host.Outcome State Fault Refusal :=
  .next (s.hearFrame .yield sender body)

end Sys2Proof.Machine
end

