-- ==== Sys2Proof/Machine/Startup.lean ====
section
/-! DEFINITION. The meanings of power-on and of the configuration memory's words (10). -/

namespace Sys2Proof.Machine

/-! ### The ready state (10 R185) -/

/-- The loader has finished. -/
def State.loaded (s : State) : State := s.withSl { s.sl with phase := .finished }

/-- A key's level is read at the end of start-up and accepted, with no press (08 R165). -/
def State.readKey (s : State) (k : KeyName) : State :=
  let x := s.au.key k
  let level := s.keyLevel k x.drive
  (s.afterLevel k x.drive).setKey k
    { x with levelHigh := level, accepted := level == s.settings.activeHigh k, timer := none }

/-- CW is at the CWmin of the settings, and the port goes UP where READY is high (04 R68, R86; log 10). -/
def State.openPort (s : State) : State :=
  let s1 := s.withCs { s.cs with cw := s.settings.cwMin }
  if s1.cs.ready then s1.portUp else s1

/-- The ready state is reached at one move: the settings hold, the tag is drawn, the part ready line rises, the keys
are read, the port may go UP (10 R185). -/
def State.becomeReady (s : State) : State :=
  let s1 := s.loaded.drawTag
  let s2 := s1.withMl { s1.ml with partReady := true }
  ((s2.readKey .ack).readKey .silence).openPort

/-! ### The image (10 R186 to R189) -/

/-- The check code over the image so far and one more word (10 R189). -/
def checkWord (c w : Word16) : Word16 := checkFrom c (bytes16 w)

/-- The phase that follows, by the zones still to be read (10 R187). -/
def phaseFor (zones : List Nat) : LoaderPhase := if zones = [] then .checking else .reading

/-- The loader after a right header (10 R186, R187). -/
def loaderAfterHeader (w : Word16) : Loader :=
  { phase := phaseFor (headerZones w), zones := headerZones w, address := 1, check := checkWord 0xFFFF#16 w }

/-- Every default stands: CONFIG_DEFAULTED is set and start-up ends (10 R186). -/
def State.defaulted (s : State) : State := (s.flag .configDefaulted).becomeReady

/-- The values loaded so far stand: CONFIG_CRC is set and start-up ends (10 R189). -/
def State.spoiled (s : State) : State := (s.flag .configCrc).becomeReady

/-- CONFIG_PROBE: the probe finds no device, a wrong header, or a right one (10 R186). -/
def execConfigProbe (answer : Option Word16) (s : State) : Host.Outcome State Fault Refusal :=
  .next (if s.sl.phase = .probing then
    (match answer with
    | some w => if headerGood w then s.withSl (loaderAfterHeader w) else s.defaulted
    | none => s.defaulted)
  else s)

/-- A record is loaded (10 R188). -/
def State.recordGood (s : State) (first value : Word16) : Bool :=
  recordZeroGood first && s.settings.accepts (s.sl.zones.headD 0) (recordSetting first) value.toNat

/-- The zones still to be read after a record (10 R187). -/
def Loader.zonesAfter (l : Loader) (first : Word16) : List Nat := if recordLast first then l.zones.tail else l.zones

/-- The loader after a record (10 R187, R189). -/
def Loader.afterRecord (l : Loader) (first value : Word16) : Loader :=
  { phase := phaseFor (l.zonesAfter first), zones := l.zonesAfter first, address := l.address + 2
    check := checkWord (checkWord l.check first) value }

/-- A record is loaded, or skipped and counted; its last-in-zone flag is honoured in both cases (10 R187, R188). -/
def State.takeRecord (s : State) (first value : Word16) : State :=
  (if s.recordGood first value then s.withSettings (s.settings.load (recordSetting first) value.toNat)
   else s.count .configSkipped).withSl (s.sl.afterRecord first value)

/-- CONFIG_RECORD: a record is judged; one whose second word would fall at address 512 is not, and ends the image
(10 R188, R189). -/
def execConfigRecord (first value : Word16) (s : State) : Host.Outcome State Fault Refusal :=
  .next (if s.sl.phase = .reading then
    (if s.sl.address < 511 then s.takeRecord first value else s.spoiled)
  else s)

/-- CONFIG_CHECK_WORD: the check word agrees or not (10 R189). -/
def execConfigCheckWord (word : Word16) (s : State) : Host.Outcome State Fault Refusal :=
  .next (if s.sl.phase = .checking then
    (if word = s.sl.check ∧ s.sl.address < 512 then s.becomeReady else s.spoiled)
  else s)

/-- MEMORY_SILENT: the memory stops answering after the probe (10 R189). -/
def execMemorySilent (s : State) : Host.Outcome State Fault Refusal :=
  .next (if s.sl.phase = .reading ∨ s.sl.phase = .checking then s.spoiled else s)

/-! ### Power-on (10 R184) -/

/-- A key at power-on, with what drives its input outside (log 20). -/
def KeyState.poweredOn (k : KeyState) : KeyState := { KeyState.atReset with drive := k.drive }

/-- The part at power-on: State.reset, but for what stands outside it: the lines driven by others, the random source,
and the commands that wait (10 R184; log 20). -/
def State.poweredOn (s : State) : State :=
  { State.reset with
    tb := { State.reset.tb with draws := s.tb.draws, drawn := s.tb.drawn }
    cs := { State.reset.cs with ready := s.cs.ready, busy := s.cs.busy }
    ml := { State.reset.ml with modemReady := s.ml.modemReady }
    au := { State.reset.au with ack := s.au.ack.poweredOn, silence := s.au.silence.poweredOn }
    pending := s.pending }

/-- POWER_ON (10 R184). -/
def execPowerOn (s : State) : Host.Outcome State Fault Refusal := .next s.poweredOn

end Sys2Proof.Machine
end

