-- ==== Sys2Proof/Machine/Timers.lean ====
section
/-! DEFINITION. The meanings of the timers' ends and of the inner steps of the Alert Table, the Area Resolver, the Relay
Scheduler and the Report Unit (01, 03, 05, 06).  A timer that does not run has no end: the command changes nothing
(log 2). -/

namespace Sys2Proof.Machine

/-! ### Alert Table (01) -/

/-- The assembly timer of an ASSEMBLING entry runs out: the entry goes to FREE (01 R12). -/
def execAssemblyTimeout (entry : Nat) (s : State) : Host.Outcome State Fault Refusal :=
  .next (match (s.entry entry).state, (s.entry entry).assemblyTimer with
    | .assembling, some t => s.runsOut t fun s => s.freeEntry entry false
    | _, _ => s)

/-- The entry has something left to do at its expiry deadline (01 R17). -/
def Entry.mayExpire (e : Entry) : Bool :=
  match e.state with
  | .free => false
  | .assembling => false
  | .closed => e.slots != []
  | .locating => true
  | .outside => true
  | .pending => true
  | .claimed => true
  | .shown => true

/-- The uptime reaches the entry's expiry deadline (01 R17). -/
def execExpiryDeadline (entry : Nat) (s : State) : Host.Outcome State Fault Refusal :=
  .next (match (s.entry entry).deadline with
    | some d => if (s.entry entry).mayExpire then s.runsOut (d * 1000) fun s => s.expire entry else s
    | none => s)

/-- The husk hold of a husk ends: the entry goes to FREE (01 R18). -/
def execHuskHoldEnd (entry : Nat) (s : State) : Host.Outcome State Fault Refusal :=
  .next (if (s.entry entry).isHusk then
    s.runsOut ((s.entry entry).huskEnd s.settings.huskHold * 1000) fun s => s.freeEntry entry false
  else s)

/-! ### Area Resolver (03) -/

/-- AR takes in a LOCATING entry that does not wait already (03 R58). -/
def execVerdictProcedure (entry : Nat) (s : State) : Host.Outcome State Fault Refusal :=
  .next (if (s.entry entry).state = .locating ∧ entry ∉ s.ar.waiting then s.resolve [entry] else s)

/-- The query timer runs out (03 R63). -/
def execQueryTimerEnd (s : State) : Host.Outcome State Fault Refusal :=
  .next (match s.ar.queryTimer with
    | some t => s.runsOut t State.queryTimedOut
    | none => s)

/-! ### Relay Scheduler (05) -/

/-- The offer point of an entry is reached: an OFFER is asked for where fewer than k have been heard (05 R91). -/
def State.reachPoint (i : Nat) (r : OfferRecord) (s : State) : State :=
  let s1 := s.modEntry i fun e => { e with offer := some { r with pointPassed := true } }
  if r.heard < s.settings.redundancy then s1.requestOffer i else s1

/-- The offer point of an entry (05 R91). -/
def execOfferPoint (entry : Nat) (s : State) : Host.Outcome State Fault Refusal :=
  .next (match (s.entry entry).offer with
    | some r => if r.pointPassed then s else s.runsOut (r.start + r.point) (State.reachPoint entry r)
    | none => s)

/-- The next offer interval: doubled, capped at offer interval max (05 R92). -/
def nextInterval (interval most : Nat) : Nat := min (2 * interval) most

/-- The offer interval of an entry ends: a doubled one begins (05 R92). -/
def execOfferIntervalEnd (entry : Nat) (s : State) : Host.Outcome State Fault Refusal :=
  .next (match (s.entry entry).offer with
    | some r => s.runsOut (r.start + r.interval * 1000) fun s =>
        s.beginInterval entry (nextInterval r.interval s.settings.offerMax)
    | none => s)

/-- The gap-fill timer of an ASSEMBLING entry runs out: a WANT is asked for, the timer restarts (05 R103). -/
def execGapFillTimerEnd (entry : Nat) (s : State) : Host.Outcome State Fault Refusal :=
  .next (match (s.entry entry).state, (s.entry entry).want with
    | .assembling, some w => s.runsOut w.gapEnd fun s => (s.requestWant entry).restartGap entry
    | _, _ => s)

/-! ### Report Unit (06) -/

/-- The timer of a tally in a state ends, and RU acts. -/
def State.tallyTimer (s : State) (t : Nat) (st : AgentState) (act : State → State) : State :=
  match s.tally t with
  | some y => if y.state = st then (match y.timer with
    | some tEnd => s.runsOut tEnd act
    | none => s) else s
  | none => s

/-- A WAITING tally stands: its STAND is asked for, its stand hold runs (06 R116). -/
def State.stand (s : State) (t : Nat) : State :=
  match s.tally t with
  | some y =>
    (s.setTally t (some { y with state := .standing, timer := some (s.now + s.settings.standHold) })).request
      (.stand y.issue y.bid y.members.length)
  | none => s

/-- A report delay has run out: a new delay, a solo report, or a STAND (06 R116). -/
def State.delayEnds (t : Nat) (s : State) : State :=
  if !s.reportingService then s.enterWaiting t
  else if !s.channelUp then s.joinUplink t
  else s.stand t

/-- The report delay of a WAITING tally ends (06 R116). -/
def execReportDelayEnd (tally : Nat) (s : State) : Host.Outcome State Fault Refusal :=
  .next (s.tallyTimer tally .waiting (State.delayEnds tally))

/-- A STANDING tally goes to COLLECTING, its window running (06 R117), also where its set holds 64 tags (log 39). -/
def State.collect (t : Nat) (s : State) : State :=
  s.modTally t fun y => { y with state := .collecting, timer := some (s.now + s.settings.collectionWindow * 1000) }

/-- The stand hold of a STANDING tally ends (06 R117). -/
def execStandHoldEnd (tally : Nat) (s : State) : Host.Outcome State Fault Refusal :=
  .next (s.tallyTimer tally .standing (State.collect tally))

/-- The collection window of a COLLECTING tally ends: it goes to UPLINKING (06 R117). -/
def execCollectionWindowEnd (tally : Nat) (s : State) : Host.Outcome State Fault Refusal :=
  .next (s.tallyTimer tally .collecting fun s => s.joinUplink tally)

/-- The contributor guard of a CONTRIBUTING tally ends: it waits again (06 R124). -/
def execContributorGuardEnd (tally : Nat) (s : State) : Host.Outcome State Fault Refusal :=
  .next (s.tallyTimer tally .contributing fun s => s.enterWaiting tally)

/-- The uplink timeout of the outstanding uplink runs out: the uplink fails, UPLINK_TIMEOUT is set (06 R127). -/
def execUplinkTimeoutEnd (s : State) : Host.Outcome State Fault Refusal :=
  .next (match s.ml.uplinkMarker with
    | some i => (match s.findTally i with
      | some t => s.tallyTimer t .uplinking fun s => (s.flag .uplinkTimeout).endUplink false
      | none => s)
    | none => s)

end Sys2Proof.Machine
end

