-- ==== Sys2Proof/Machine/Dispatch.lean ====
section
/-! DEFINITION. The dispatch of commands: one arm per constructor of Instr, each one call of its meaning. -/

namespace Sys2Proof.Machine

/-- A command's effect on everything but the queue. -/
def exec (i : Instr) (s : State) : Host.Outcome State Fault Refusal :=
  match i with
  | .powerOn => Sys2Proof.Machine.execPowerOn s
  | .configProbe answer => Sys2Proof.Machine.execConfigProbe answer s
  | .configRecord first value => Sys2Proof.Machine.execConfigRecord first value s
  | .configCheckWord word => Sys2Proof.Machine.execConfigCheckWord word s
  | .memorySilent => Sys2Proof.Machine.execMemorySilent s
  | .hello => Sys2Proof.Machine.execHello s
  | .cell cell service quality => Sys2Proof.Machine.execCell cell service quality s
  | .fragment record => Sys2Proof.Machine.execFragment record s
  | .region cell answer code => Sys2Proof.Machine.execRegion cell answer code s
  | .time seconds => Sys2Proof.Machine.execTime seconds s
  | .uplinkResult origin number revision outcome => Sys2Proof.Machine.execUplinkResult origin number revision outcome s
  | .linkRecordDropped bytes => Sys2Proof.Machine.execLinkRecordDropped bytes s
  | .modemGapTimeout bytes => Sys2Proof.Machine.execModemGapTimeout bytes s
  | .modemReadyRise => Sys2Proof.Machine.execModemReadyRise s
  | .modemReadyFall => Sys2Proof.Machine.execModemReadyFall s
  | .modemRecordSent => Sys2Proof.Machine.execModemRecordSent s
  | .claim seq during => Sys2Proof.Machine.execClaim seq during s
  | .read seq index generation offset length during => Sys2Proof.Machine.execRead seq index generation offset length during s
  | .complete seq index generation during => Sys2Proof.Machine.execComplete seq index generation during s
  | .release seq index generation during => Sys2Proof.Machine.execRelease seq index generation during s
  | .ack seq index generation during => Sys2Proof.Machine.execAck seq index generation during s
  | .fetchNotice seq during => Sys2Proof.Machine.execFetchNotice seq during s
  | .status seq during => Sys2Proof.Machine.execStatus seq during s
  | .restart seq during => Sys2Proof.Machine.execRestart seq during s
  | .setThreshold seq n during => Sys2Proof.Machine.execSetThreshold seq n during s
  | .setOptout seq mask during => Sys2Proof.Machine.execSetOptout seq mask during s
  | .badRequestRecord bytes during => Sys2Proof.Machine.execBadRequestRecord bytes during s
  | .appGapTimeout bytes during => Sys2Proof.Machine.execAppGapTimeout bytes during s
  | .heldRequest => Sys2Proof.Machine.execHeldRequest s
  | .readyRise => Sys2Proof.Machine.execReadyRise s
  | .readyFall => Sys2Proof.Machine.execReadyFall s
  | .busyRise => Sys2Proof.Machine.execBusyRise s
  | .busyFall => Sys2Proof.Machine.execBusyFall s
  | .backoffSlotEnd busyRises => Sys2Proof.Machine.execBackoffSlotEnd busyRises s
  | .sent => Sys2Proof.Machine.execSent s
  | .lost => Sys2Proof.Machine.execLost s
  | .portTimeout => Sys2Proof.Machine.execPortTimeout s
  | .lateAnswerGuardEnd => Sys2Proof.Machine.execLateAnswerGuardEnd s
  | .badFrame bytes => Sys2Proof.Machine.execBadFrame bytes s
  | .tagRedraw => Sys2Proof.Machine.execTagRedraw s
  | .offer sender body => Sys2Proof.Machine.execOffer sender body s
  | .want sender body => Sys2Proof.Machine.execWant sender body s
  | .piece sender body => Sys2Proof.Machine.execPiece sender body s
  | .tally sender body => Sys2Proof.Machine.execTally sender body s
  | .stand sender body => Sys2Proof.Machine.execStand sender body s
  | .covered sender body => Sys2Proof.Machine.execCovered sender body s
  | .yield sender body => Sys2Proof.Machine.execYield sender body s
  | .assemblyTimeout entry => Sys2Proof.Machine.execAssemblyTimeout entry s
  | .expiryDeadline entry => Sys2Proof.Machine.execExpiryDeadline entry s
  | .huskHoldEnd entry => Sys2Proof.Machine.execHuskHoldEnd entry s
  | .verdictProcedure entry => Sys2Proof.Machine.execVerdictProcedure entry s
  | .queryTimerEnd => Sys2Proof.Machine.execQueryTimerEnd s
  | .offerPoint entry => Sys2Proof.Machine.execOfferPoint entry s
  | .offerIntervalEnd entry => Sys2Proof.Machine.execOfferIntervalEnd entry s
  | .gapFillTimerEnd entry => Sys2Proof.Machine.execGapFillTimerEnd entry s
  | .reportDelayEnd tally => Sys2Proof.Machine.execReportDelayEnd tally s
  | .standHoldEnd tally => Sys2Proof.Machine.execStandHoldEnd tally s
  | .collectionWindowEnd tally => Sys2Proof.Machine.execCollectionWindowEnd tally s
  | .contributorGuardEnd tally => Sys2Proof.Machine.execContributorGuardEnd tally s
  | .uplinkTimeoutEnd => Sys2Proof.Machine.execUplinkTimeoutEnd s
  | .cadencePhaseEnd output => Sys2Proof.Machine.execCadencePhaseEnd output s
  | .keyEdge key drive => Sys2Proof.Machine.execKeyEdge key drive s
  | .debounceEnd key => Sys2Proof.Machine.execDebounceEnd key s

end Sys2Proof.Machine
end

