-- ==== Sys2Proof/Machine/Step.lean ====
section
/-! DEFINITION. One step: the command at the front of the queue, or a tick of one ms where none waits. -/

namespace Sys2Proof.Machine

/-- One ms passes (10 R191; log 1). -/
def State.tick (s : State) : State := s.runTo (s.now + 1)

/-- The command at the front of the queue is taken and carried out on the queue's rest; with none waiting, one ms passes
(log 1, 25). -/
def step (s : State) : Host.Outcome State Fault Refusal :=
  match s.pending with
  | [] => .next s.tick
  | c :: rest => exec c (s.withPending rest)

/-- The command that a word spells is put at the front of the queue; a word that spells none changes nothing. -/
def State.withFetchWord (s : State) (nbits w : Nat) : State :=
  match decodeTableWord nbits w with
  | some c => s.withPending (c :: s.pending)
  | none => s

end Sys2Proof.Machine
end

