-- ==== Sys2Proof/Safety.lean ====
section
/-! DEFINITION. What statements about the part are made of: which parts of State a move leaves alone, and the laws of the
spec that every state a run reaches obeys. -/

namespace Sys2Proof.Machine

/-! ### Frames -/

/-- The parts of State, one for each field. -/
inductive Part where
  | tb | sl | settings | table | store | free | ar | cs | ru | pu | au | ml | al | flags | counters | pending
  deriving DecidableEq, Repr

/-- A part is the same in two states. -/
def State.sameIn (s t : State) : Part → Prop
  | .tb => t.tb = s.tb
  | .sl => t.sl = s.sl
  | .settings => t.settings = s.settings
  | .table => t.table = s.table
  | .store => t.store = s.store
  | .free => t.free = s.free
  | .ar => t.ar = s.ar
  | .cs => t.cs = s.cs
  | .ru => t.ru = s.ru
  | .pu => t.pu = s.pu
  | .au => t.au = s.au
  | .ml => t.ml = s.ml
  | .al => t.al = s.al
  | .flags => t.flags = s.flags
  | .counters => t.counters = s.counters
  | .pending => t.pending = s.pending

/-- Every part but those listed is the same in both states. -/
def State.onlyChanges (ps : List Part) (s t : State) : Prop := ∀ p, p ∉ ps → s.sameIn t p

/-- The outcome is a next state: no fault, no refusal. -/
def isNext (o : Host.Outcome State Fault Refusal) : Prop := ∃ t, o = .next t

/-! ### Starting points of statements -/

/-- The part is in start-up, its blocks in their power-on states as far as the end of start-up reads them (10 R184). -/
def State.Starting (s : State) : Prop :=
  s.started = false ∧ s.cs.port = .down ∧ s.cs.control = [] ∧ s.cs.bulk = [] ∧ s.cs.contender = none
    ∧ s.cs.inFlight = none ∧ ∀ e ∈ s.table, e.state = .free ∧ e.offer = none

/-- Every block is in its power-on state, with start-up running (10 R184 and the rules it names). -/
def State.PowerOnState (s : State) : Prop :=
  s.tb.uptime = 0 ∧ s.tb.milli = 0 ∧ s.tb.alertClock = none
    ∧ s.sl.phase = .probing ∧ s.settings = Settings.defaults
    ∧ s.table = List.replicate 32 (Entry.freed 0) ∧ s.free = List.range 160
    ∧ s.ar.cell = 0 ∧ s.ar.service = .none ∧ s.ar.quality = 0 ∧ (∀ c ∈ s.ar.cache, c.valid = false)
    ∧ s.ar.queryTimer = none ∧ s.ar.waiting = []
    ∧ s.cs.port = .down ∧ s.cs.tagMarked = false ∧ s.cs.echo = [] ∧ s.cs.control = [] ∧ s.cs.bulk = []
    ∧ s.cs.contender = none ∧ s.cs.inFlight = none ∧ s.cs.guardEnd = none ∧ s.cs.cw = 8 ∧ s.cs.controlRun = 0
    ∧ s.cs.timeoutRun = 0
    ∧ s.ru.tallies = List.replicate 8 none ∧ s.ru.deferred = [] ∧ s.ru.uplinkQueue = []
    ∧ s.pu.threshold = 0 ∧ s.pu.optout = 0 ∧ s.pu.slots = List.replicate 4 none ∧ s.pu.notices = []
    ∧ s.au.owner = none ∧ s.au.cadence = none
    ∧ s.ml.framer = .idle ∧ s.ml.partReady = false ∧ s.ml.hold = [] ∧ s.ml.sending = none ∧ s.ml.queryMarker = none
    ∧ s.ml.uplinkMarker = none ∧ s.ml.helloBegan = none
    ∧ s.al.framer = .idle ∧ s.al.buffer = .empty ∧ s.al.held = none
    ∧ s.flags = FaultFlags.clear ∧ s.counters = Counters.zero

/-- The ready state is reached from `s` (10 R185): start-up is over, a station tag is drawn, CW is at CWmin, the part
ready line is high, the port is UP where READY is high, and each key's level is its accepted level, its timer stopped. -/
def State.ReadyFrom (s t : State) : Prop :=
  t.started = true ∧ tagGood t.cs.tag = true
    ∧ t.cs = { s.cs with
        port := if s.cs.ready then .up else .down, tag := t.cs.tag, tagMarked := false, cw := s.settings.cwMin }
    ∧ t.ml = { s.ml with partReady := true }
    ∧ t.au.owner = s.au.owner ∧ t.au.cadence = s.au.cadence
    ∧ ∀ k, (t.au.key k).timer = none ∧ (t.au.key k).accepted = t.keyActive k ∧ (t.au.key k).drive = (s.au.key k).drive

/-- The modem link takes bytes and stands between two records (09 R171, R172). -/
def State.ModemIdle (s : State) : Prop := s.ml.partReady = true ∧ s.ml.framer = .idle

/-- The state once the last byte of a record of the modem is in. -/
def State.recordIn (s : State) : State := s.withMl { s.ml with framer := .idle, lastByte := s.now }

/-- Start-up is over, and the application link stands between two requests with none held (09 R180 to R182). -/
def State.HostIdle (s : State) : Prop :=
  s.started = true ∧ s.al.framer = .idle ∧ s.al.held = none ∧ (s.al.buffer = .empty ∨ ∃ r, s.al.buffer = .ready r)

/-- What the host sends while a request is worked on: bytes go through the framer, a gap of more than 5 ms ends what
the framer was at, and a request that ends is held, unjudged, in place of any held before (09 R180, R182; 10 R185). -/
def State.meanwhile (s : State) : List HostInput → State
  | [] => s
  | .bytes bs :: rest =>
    let r := s.al.framer.feed requestMost bs
    if bs = [] then s.meanwhile rest
    else (s.withAl { s.al with
      framer := r.1, lastByte := s.now
      held := match r.2.getLast? with
        | some e => some ⟨e.bytes, !s.started⟩
        | none => s.al.held }).meanwhile rest
  | .gap :: rest =>
    let at' := s.runTo (s.al.lastByte + 6)
    if s.al.framer = .idle ∨ at'.now < s.al.lastByte + 6 then s.meanwhile rest
    else (at'.withAl { s.al with
      framer := .idle
      held := match s.al.framer with
        | .receiving bs => some ⟨bs, !s.started⟩
        | _ => s.al.held }).meanwhile rest

/-- The state `t`, in which a request has been carried out that left the framer so with its last byte at `lastByte`, once
it is answered: the response is there to be read; or, where requests have ended meanwhile, the buffer is WORKING for the
last of them (09 R181, R182). -/
def State.answeredFrom (t : State) (framer : Framer) (lastByte : Nat) (during : List HostInput)
    (response : List Byte) : State :=
  let u := (t.withAl { t.al with framer := framer, lastByte := lastByte, held := none }).meanwhile during
  u.withAl { u.al with
    held := none
    buffer := match u.al.held with
      | some q => .working q
      | none => .ready response }

/-- The state `t`, in which a request that came whole has been carried out, once it is answered. -/
def State.answered (t : State) (now : Nat) (during : List HostInput) (response : List Byte) : State :=
  t.answeredFrom .idle now during response

/-- The radio port takes a frame of this sender, which is no echo, and which is no clash either, or one that changes nothing
of itself, as its flag stands and its tag is marked already while a tally holds the draw back (04 R67, R74 to R76). -/
def State.Hears (s : State) (kind : FrameKind) (sender : Word32) (body : List Byte) : Prop :=
  s.cs.port ≠ .down ∧ bodyGood kind body = true ∧ tagGood sender = true
    ∧ (sender ≠ s.cs.tag ∨ (s.flags.tagClash = true ∧ s.cs.tagMarked = true ∧ s.roundRuns = true))
    ∧ s.cs.isEcho ⟨kind, sender, body, frameCheck kind sender body⟩ = false

/-- The record of a host request, its kind and body, and what is sent while it is worked on (11.5). -/
def hostRequest : Instr → Option (Byte × List Byte × List HostInput)
  | .claim q d => some (0x21, [q], d)
  | .read q i g o l d => some (0x22, [q, i, g] ++ bytes16 o ++ [l], d)
  | .complete q i g d => some (0x23, [q, i, g], d)
  | .release q i g d => some (0x24, [q, i, g], d)
  | .ack q i g d => some (0x25, [q, i, g], d)
  | .fetchNotice q d => some (0x26, [q], d)
  | .status q d => some (0x27, [q], d)
  | .restart q d => some (0x28, [q], d)
  | .setThreshold q n d => some (0x29, [q, n], d)
  | .setOptout q m d => some (0x2A, [q, m], d)
  | _ => none

/-- What the host sends in a command of the application link, in order. -/
def hostInputs (c : Instr) : Option (List HostInput) :=
  match hostRequest c with
  | some (kind, body, during) => some (.bytes (linkRecord kind body) :: during)
  | none =>
    match c with
    | .badRequestRecord bytes during => some (.bytes bytes :: during)
    | .appGapTimeout bytes during => some (.bytes bytes :: .gap :: during)
    | _ => none

/-- The frame a command is: kind, sender tag, body (11.3). -/
def relayFrame : Instr → Option (FrameKind × Word32 × List Byte)
  | .offer t b => some (.offer, t, b)
  | .want t b => some (.want, t, b)
  | .piece t b => some (.piece, t, b)
  | .tally t b => some (.tally, t, b)
  | .stand t b => some (.stand, t, b)
  | .covered t b => some (.covered, t, b)
  | .yield t b => some (.yield, t, b)
  | _ => none

/-- The arbiter has nothing to do: with the port UP, no frame in flight and no contender, both queues are empty
(04 R82). -/
def State.ArbiterRests (s : State) : Prop :=
  s.cs.port = .up → s.cs.inFlight = none → s.cs.contender = none → s.cs.control = [] ∧ s.cs.bulk = []

/-- No PIECE of ours, waiting or in flight, has the issue and index that a fragment record names (05 R102). -/
def State.NoPieceLike (s : State) (record : List Byte) : Prop :=
  ∀ i k, pieceName record = some (i, k) →
    (∀ p ∈ s.cs.bulk, p.isPieceOf i (some k) = false)
      ∧ ∀ f, s.cs.inFlight = some f → f.payload.isPieceOf i (some k) = false

/-- The command by which a fragment record comes from a source: the modem's record, or a peer's PIECE. -/
def arrival (source : Source) (sender : Word32) (record : List Byte) : Instr :=
  match source with
  | .broadcast => .fragment record
  | .relay => .piece sender record

/-- Fragment Intake is given the record by that command; from a peer, with no PIECE of ours that it would suppress. -/
def State.Meets (s : State) (source : Source) (sender : Word32) (record : List Byte) : Prop :=
  match source with
  | .broadcast => s.ModemIdle ∧ 17 ≤ record.length ∧ record.length ≤ 105
  | .relay => s.Hears .piece sender record ∧ s.NoPieceLike record ∧ s.ArbiterRests

/-- The state in which Fragment Intake meets the record. -/
def State.arrived (s : State) (source : Source) : State :=
  match source with
  | .broadcast => s.recordIn
  | .relay => s

/-- The record is not stale on the alert clock (02 R33). -/
def State.isLive (s : State) (f : Fragment) : Prop :=
  ∀ now, s.tb.alertClock = some now → now < f.issueTime.toNat + f.duration.toNat * 60

/-- No decision before 02 R36 drops the fragment: it is live, and every complete entry of its key is of lower revision and
no tombstone (02 R33 to R35). -/
def State.Admits (s : State) (f : Fragment) : Prop :=
  s.isLive f ∧ ∀ e ∈ s.table, e.isComplete = true → e.ofKey f.issue.key = true →
    e.isTombstone = false ∧ e.revision < f.issue.revision.toNat

/-- The fragment is the last its ASSEMBLING entry `i` needs, and the store has a free slot for it, at the head of the
free list (02 R36, R41, R44). -/
structure State.Completes (s : State) (f : Fragment) (i slot : Nat) (rest : List Nat) : Prop where
  admitted : s.Admits f
  slotFree : s.free = slot :: rest
  slotGood : slot < s.store.length
  found : s.assemblingOf f.issue.key = some i
  revision : (s.entry i).issue = some f.issue
  settled : (s.entry i).provisional = false
  total : (s.entry i).total = f.total
  category : (s.entry i).category = some f.category
  positions : (s.entry i).map.length = 16
  missing : (s.entry i).map.getD f.index none = none
  others : ∀ k, k < f.total → k ≠ f.index → ((s.entry i).map.getD k none).isSome = true
  slotUnused : ∀ k, (s.entry i).map.getD k none ≠ some slot

/-- The body that the fragment completes: the payloads in index order, its own among them (02 R44). -/
def State.bodyWith (s : State) (f : Fragment) (i : Nat) : List Byte :=
  (List.range f.total).flatMap fun k =>
    if k = f.index then f.payload
    else match (s.entry i).map.getD k none with
      | some slot => s.store.read slot
      | none => []

/-- The kind, issue time, duration and body check of the entry once it has taken the fragment (02 R38). -/
def Entry.kindWith (e : Entry) (f : Fragment) : Kind := e.kind.getD f.kind

/-- See `Entry.kindWith`. -/
def Entry.lifeWith (e : Entry) (f : Fragment) (clock : Option Nat) : Nat :=
  if e.kind = none ∨ f.index = 0 then remainingLife clock f.issueTime f.duration
  else remainingLife clock (e.issueTime.getD 0) (e.duration.getD 0)

/-- See `Entry.kindWith`. -/
def Entry.checkWith (e : Entry) (f : Fragment) : Option Word16 := if f.index = 0 then some f.bodyCheck else e.bodyCheck

/-- Entry `i` stands before entry `j` in the pending order: the higher precedence, then the earlier stamp, then the lower
index (07 R139). -/
def State.before (s : State) (i j : Nat) : Prop :=
  let p k := (s.entry k).precedence.getD 0
  let t k := (s.entry k).stamp.getD 0
  p j < p i ∨ (p i = p j ∧ (t i < t j ∨ (t i = t j ∧ i < j)))

/-- Entry `i` is the first eligible one in the pending order (08 R157, R159). -/
def State.firstToSound (s : State) (i : Nat) : Prop :=
  i < s.table.length ∧ (s.entry i).eligible s.pu.threshold = true
    ∧ ∀ j, j ≠ i → (s.entry j).eligible s.pu.threshold = true → s.before i j

/-- The profile that the profile map gives the precedence of an entry (08 R162). -/
def State.mappedProfile (s : State) (i : Nat) : Nat := s.settings.profiles.getD ((s.entry i).precedence.getD 0 - 1) 0

/-- A profile enables an output: neither prescale, on-time nor off-time is 0 (08 R161). -/
def Settings.enables (c : Settings) (profile : Nat) (o : Output) : Prop :=
  c.cadenceValue profile o 0 ≠ 0 ∧ c.cadenceValue profile o 1 ≠ 0 ∧ c.cadenceValue profile o 2 ≠ 0

/-- The state `s` once entry `i` has become the owner and its cadence has started: each enabled output of the mapped
profile is ON for on-time x prescale ms, each other one DISABLED (08 R160, R162). -/
def State.soundsFrom (s : State) (i : Nat) : State :=
  let p := s.mappedProfile i
  let begun (o : Output) : OutputState :=
    if s.settings.cadenceValue p o 0 = 0 ∨ s.settings.cadenceValue p o 1 = 0 ∨ s.settings.cadenceValue p o 2 = 0 then
      ⟨.disabled, 0, none⟩
    else ⟨.on, 0, some (s.now + s.settings.cadenceValue p o 1 * s.settings.cadenceValue p o 0)⟩
  s.withAu { s.au with
    owner := some ⟨i, (s.entry i).generation, (s.entry i).precedence.getD 0⟩
    cadence := some ⟨p, begun .tone, begun .buzz⟩ }

/-- Entries differ in the sounded flag at most (08 R158). -/
def Entry.soundsLike (e f : Entry) : Prop := { e with sounded := f.sounded } = f

/-- The head of a queue handed over: it leaves the queue and is in flight under the tag of this moment, its port timer
running; echo list and control run have moved (04 R74, R76, R82, R83). -/
def State.handedOver (s : State) (q : Queue) (p : Payload) (rest : List Payload) : State :=
  let c := s.cs.setWaiting q rest
  s.withCs { c with
    contender := none
    inFlight := some ⟨p, false, s.now + s.settings.portTimeout, frameBytes p.kind s.cs.tag p.body⟩
    echo := (s.cs.echo ++ [EchoItem.mk s.cs.tag p.kind (frameCheck p.kind s.cs.tag p.body)]).drop (s.cs.echo.length - 3)
    controlRun := if q = .bulk then 0 else min 4 (s.cs.controlRun + 1) }

/-- The head of a queue is the contender, or is already handed over where its backoff count came out as 0 (04 R82,
R83). -/
def State.contends (t : State) (q : Queue) (p : Payload) : Prop :=
  (∃ k, t.cs.contender = some k ∧ k.queue = q ∧ k.count < t.cs.cw ∧ t.cs.inFlight = none
      ∧ (t.cs.waiting q).head? = some p)
    ∨ ∃ g, t.cs.inFlight = some g ∧ g.payload = p ∧ g.withdrawn = false ∧ t.cs.contender = none

/-! ### Tallies taken and freed (06) -/

/-- `delay` is a report delay that the draw at a failure count can give (06 R113). -/
def State.delays (s : State) (failures delay : Nat) : Prop :=
  let least := (3 - s.ar.quality) * s.settings.reportStep * (failures + 1) * 1000
  least ≤ delay ∧ delay ≤ least + s.settings.reportSpread * 1000

/-- A tally as it begins at `now`, with the tag as its own tag at a level and its report delay drawn (06 R110, R114). -/
def begunTally (issue : Issue) (tag : Word32) (level : Level) (now delay : Nat) : Tally :=
  { issue := issue, state := .waiting, ownTag := tag, ownLevel := level, reported := .none, bid := min 65535 (delay / 10)
    reporter := none, failures := 0, superseded := false, ended := false, settleTime := none
    members := [⟨tag, level == .ack, .none⟩], timer := some (now + delay), digest := [] }

/-- A new alert takes tally `k`: the lowest free one; where none is free, the SETTLED one with the oldest settle time, ties
going to the lowest (06 R110, R112). -/
def State.takesTally (s : State) (k : Nat) : Prop :=
  k < s.ru.tallies.length ∧ ((s.tally k = none ∧ ∀ j, j < k → s.tally j ≠ none)
    ∨ ((∀ x ∈ s.ru.tallies, x ≠ none) ∧ ∃ y at', s.tally k = some y ∧ y.state = .settled ∧ y.settleTime = some at'
      ∧ ∀ j x, s.tally j = some x → x.state = .settled →
        ∃ by', x.settleTime = some by' ∧ (at' < by' ∨ (at' = by' ∧ k ≤ j))))

/-- Tally `k` has been taken for an issuance in going from `s` to `t`, and nothing else of RU has changed (06 R110). -/
def State.tallyTaken (s t : State) (k : Nat) (issue : Issue) (level : Level) : Prop :=
  ∃ delay, t.delays 0 delay
    ∧ t.ru = { s.ru with tallies := s.ru.tallies.set k (some (begunTally issue s.cs.tag level s.now delay)) }

/-- RU has taken the receipt event of an issuance in going from `s` to `t`: the own tag is in the receipt set of its tally
and the own level RECEIPT at least; an issuance on the deferred list stays there; another takes a tally, or with none to
take is put at the end of the deferred list (06 R110, R112). -/
def State.receiptTaken (s t : State) (issue : Issue) (precedence : Nat) : Prop :=
  (∀ k y, s.findTally issue = some k → s.tally k = some y → t.ru = { s.ru with
      tallies := s.ru.tallies.set k (some { y with
        members := joinTag y.members y.ownTag false
        ownLevel := if y.ownLevel = .none then .receipt else y.ownLevel }) })
    ∧ (s.findTally issue = none → s.isDeferred issue = true → t.ru = s.ru)
    ∧ (∀ k, s.findTally issue = none → s.isDeferred issue = false → s.takesTally k → s.tallyTaken t k issue .receipt)
    ∧ (s.findTally issue = none → s.isDeferred issue = false → (∀ x ∈ s.ru.tallies, ∃ y, x = some y ∧ y.state ≠ .settled) →
        t.ru = { s.ru with deferred := s.ru.deferred ++ [⟨issue, precedence, .receipt⟩] })

/-- A tally after the acknowledgement event, with the station tag as it now is: the own tag, the new station tag where that
differs and the receipt set has room, is in both sets, and the own level is ACK.  A tag that joins does so with covered
level NONE; one that a peer's use had put in the set keeps its level (06 R111, R133; log 14). -/
def Tally.ackedAs (y : Tally) (tag : Word32) : Tally :=
  let adopts := y.ownTag ≠ tag ∧ y.members.length < 64
  let own := if adopts then tag else y.ownTag
  { y with
    ownTag := own, ownLevel := .ack
    reported := if adopts then (match y.members.find? (fun m => m.tag == tag) with
      | some m => m.covered
      | none => .none) else y.reported
    members := if ∃ m ∈ y.members, m.tag = own then
        y.members.map fun m => if m.tag = own then { m with acked := true } else m
      else if y.members.length < 64 then y.members ++ [⟨own, true, .none⟩] else y.members }

/-- The due tags of a tally with their statuses, in set order (06 R109, R125). -/
def Tally.dueTags (y : Tally) : List Item :=
  (y.members.filter fun m => if m.acked then m.covered != .ack else m.covered == .none).map fun m =>
    ⟨m.tag, if m.acked then .ack else .receipt⟩

/-- The items of our TALLY frame: the own tag with its status, then up to 15 other due tags in set order (06 R119). -/
def Tally.contribution (y : Tally) : List Item :=
  ((y.members.filter fun m => m.tag == y.ownTag).map fun m => ⟨m.tag, if m.acked then .ack else .receipt⟩)
    ++ (y.dueTags.filter fun x => x.tag != y.ownTag).take 15

/-- RU has taken the acknowledgement event of an issuance in going from `s` to `t`.  A tally at level ACK already is left
as it is; else the own tag is in both sets at level ACK, a SETTLED tally reported below ACK begins a new round with no
failure counted, and a CONTRIBUTING one asks for a fresh TALLY.  A deferred item's level becomes ACK; another issuance
takes a tally, or with none to take is put at the end of the deferred list (06 R111, R112, R124, R129, R133). -/
def State.ackTaken (s t : State) (issue : Issue) (precedence : Nat) : Prop :=
  (∀ k y, s.findTally issue = some k → s.tally k = some y →
    let z := y.ackedAs s.cs.tag
    let asked := if y.ownLevel ≠ .ack ∧ y.state = .contributing then s.request (.tally issue z.contribution) else s
    t.cs = asked.cs ∧ t.counters = asked.counters
    ∧ (y.ownLevel = .ack → t.ru = s.ru)
    ∧ (y.ownLevel ≠ .ack → y.state ≠ .settled ∨ z.reported = .ack →
        t.ru = { s.ru with tallies := s.ru.tallies.set k (some z) })
    ∧ (y.ownLevel ≠ .ack → y.state = .settled → z.reported ≠ .ack → ∃ delay, s.delays 0 delay
        ∧ t.ru = { s.ru with tallies := s.ru.tallies.set k (some { z with
            state := .waiting, reporter := none, settleTime := none, digest := [], failures := 0
            timer := some (s.now + delay), bid := min 65535 (delay / 10) }) }))
    ∧ (s.findTally issue = none → t.cs = s.cs ∧ t.counters = s.counters)
    ∧ (s.findTally issue = none → s.isDeferred issue = true → t.ru = { s.ru with
        deferred := s.ru.deferred.map fun d => if d.issue = issue then { d with level := .ack } else d })
    ∧ (∀ k, s.findTally issue = none → s.isDeferred issue = false → s.takesTally k → s.tallyTaken t k issue .ack)
    ∧ (s.findTally issue = none → s.isDeferred issue = false → (∀ x ∈ s.ru.tallies, ∃ y, x = some y ∧ y.state ≠ .settled) →
        t.ru = { s.ru with deferred := s.ru.deferred ++ [⟨issue, precedence, .ack⟩] })

/-- The deferred item at place `n`, the one of highest precedence, ties going to the earliest arrival, has been given the
freed tally `k` in going from `s` to `t`, and nothing else of RU has changed (06 R112, R134). -/
def State.served (s t : State) (n k : Nat) (d : Deferred) : Prop :=
  s.ru.deferred[n]? = some d
    ∧ (∀ m x, s.ru.deferred[m]? = some x → x.precedence < d.precedence ∨ (x.precedence = d.precedence ∧ n ≤ m))
    ∧ ∃ delay, t.delays 0 delay ∧ t.ru = { s.ru with
        tallies := s.ru.tallies.set k (some (begunTally d.issue s.cs.tag d.level t.now delay))
        deferred := s.ru.deferred.eraseIdx n, uplinkQueue := s.ru.uplinkQueue.filter fun m => m != k }

/-- `t` is `s` with tally `k` freed, and given at once to a deferred item where there is one (06 R134). -/
def State.tallyFreed (s t : State) (k : Nat) : Prop :=
  (s.ru.deferred = [] → t = s.withRu { s.ru with
      tallies := s.ru.tallies.set k none, uplinkQueue := s.ru.uplinkQueue.filter fun m => m != k })
    ∧ (s.ru.deferred ≠ [] → (∀ d ∈ s.ru.deferred, d.precedence ≤ 7) →
        ∃ n d, s.served t n k d ∧ s.onlyChanges [.tb, .ru] t ∧ t.now = s.now)

/-- The tally in SETTLED (06 R129). -/
def Tally.settledAt (y : Tally) (now : Nat) : Tally :=
  { y with state := .settled, timer := none, reporter := none, settleTime := some now, digest := [] }

/-- `t` is `s` with tally `k`, which is `y`, settled: superseded, or with items deferred, it is freed (06 R129). -/
def State.tallySettles (s t : State) (k : Nat) (y : Tally) : Prop :=
  (y.superseded = true ∨ s.ru.deferred ≠ [] → s.tallyFreed t k)
    ∧ (y.superseded = false → s.ru.deferred = [] → t = s.setTally k (some (y.settledAt s.now)))

/-- `t` is `s` with tally `k`, which is `y`, in WAITING again, its delay drawn by its failure count and its bid by that
delay (06 R113, R114). -/
def State.waitsAgain (s t : State) (k : Nat) (y : Tally) : Prop :=
  ∃ delay, s.delays y.failures delay ∧ t = s.drew.setTally k (some { y with
      state := .waiting, reporter := none, settleTime := none, digest := [], timer := some (s.now + delay)
      bid := min 65535 (delay / 10) })

/-! ### Verdicts and queries (01, 03) -/

/-- The Modem Link once a record is handed over: it joins the tail of the hold, and where the line is high and nothing is
being sent the head of the hold, it may be the record itself, is begun (09 R177). -/
def ModemLink.handed (m : ModemLink) (record : ModemRecord) : ModemLink :=
  match m.modemReady, m.sending, m.hold with
  | true, none, [] => { m with sending := some record }
  | true, none, r :: rest => { m with sending := some r, hold := rest ++ [record] }
  | _, _, _ => { m with hold := m.hold ++ [record] }

/-- Entry `i`, of a category, has got a verdict in going from `s` to `t`: OUTSIDE takes it there, with no receipt event;
INSIDE and UNRESOLVED take it to PENDING with its precedence and stamp, or at precedence 0 to CLOSED(WITHHELD), and RU
takes its receipt event (01 R19, 06 R110, 07 R136, R139). -/
def State.placedAs (s t : State) (i : Nat) (v : Verdict) (category : Category) : Prop :=
  let p := if s.pu.optout.getLsbD category.code then 0 else s.settings.configured category
  (t.entry i).verdict = v
    ∧ (v = .outside → (t.entry i).state = .outside ∧ t.ru = s.ru)
    ∧ (v ≠ .outside → (p = 0 → (t.entry i).state = .closed ∧ (t.entry i).closureReason = some .withheld)
      ∧ (p ≠ 0 → (t.entry i).state = .pending ∧ (t.entry i).precedence = some p ∧ (t.entry i).stamp = some s.now)
      ∧ ∀ issue, (s.entry i).issue = some issue → s.receiptTaken t issue p)

/-- In `u` a query has ended and given no verdict; `t` is the state after AR has looked at the serving cell.  With
entries waiting and no code held for the serving cell, a query for it is handed to ML and they wait on (09 R177).  An entry that waits
alone, with its body, gets UNRESOLVED where there is no serving cell, and a held code's verdict else (03 R62). -/
def State.followedUp (u t : State) : Prop :=
  (u.ar.waiting = [] → t = u)
    ∧ (u.ar.waiting ≠ [] → u.ar.cell ≠ 0 → u.ar.cached u.ar.cell = none →
        t.ml = ({ u.ml with queryMarker := some u.ar.cell } : ModemLink).handed (.regionQuery u.ar.cell) ∧ t.ar = { u.ar with
          queryTimer := some (u.now + u.settings.queryTimeout * 1000) } ∧ u.onlyChanges [.ar, .ml] t)
    ∧ ∀ i category, u.ar.waiting = [i] → i < u.table.length → (u.entry i).bodyHeld = true →
        (u.entry i).category = some category →
        (u.ar.cell = 0 → t.ml = u.ml ∧ t.ar.waiting = [] ∧ u.placedAs t i .unresolved category)
        ∧ ∀ code, u.ar.cell ≠ 0 → u.ar.cached u.ar.cell = some code → t.ml = u.ml ∧ t.ar.waiting = []
          ∧ u.placedAs t i (if areaMatches (u.entry i).areas code = true then .inside else .outside) category

/-- The outstanding query is over: marker and timer are cleared and an unsent record is withdrawn (03 R60, 09 R178). -/
def State.queryOver (s : State) : State :=
  (s.withAr { s.ar with queryTimer := none }).withMl
    { s.ml with queryMarker := none, hold := s.ml.hold.filter fun r => !r.isQuery }

/-! ### The digest uplink (06) -/

/-- The outstanding uplink is over: its marker is cleared and an unsent record is withdrawn (09 R178). -/
def State.uplinkOver (s : State) : State :=
  s.withMl { s.ml with uplinkMarker := none, hold := s.ml.hold.filter fun r => r.isQuery }

/-- `t` is `s` with tally `k`, which is `y`, out of UPLINKING: freed where its entry has ended, settled where it is reported
at its own level, else WAITING again (06 R126, R127, R134). -/
def State.leavesUplink (s t : State) (k : Nat) (y : Tally) : Prop :=
  (y.ended = true → s.tallyFreed t k)
    ∧ (y.ended = false → y.ownLevel.rank ≤ y.reported.rank → s.tallySettles t k y)
    ∧ (y.ended = false → y.reported.rank < y.ownLevel.rank → s.waitsAgain t k y)

/-- `t` is what a failed uplink of tally `k`, which is `y`, makes of `s`: a YIELD is asked for, the failure count advances to
at most 3, and the tally leaves UPLINKING, a superseded one being freed at its third failure (06 R127, R134; log 34). -/
def State.failsUplink (s t : State) (k : Nat) (y : Tally) : Prop :=
  let v := s.request (.yield y.issue)
  let z := { y with failures := min 3 (y.failures + 1) }
  (y.superseded = true ∧ 2 ≤ y.failures → v.tallyFreed t k)
    ∧ (y.superseded = false ∨ y.failures < 2 → v.leavesUplink t k z)

/-- The COVERED frames for the tags of a digest at one level, in parts of 24 (06 R126). -/
def coveredOf (issue : Issue) (items : List Item) (level : Level) : List Payload :=
  let tags := (items.filter fun x => x.status == level).map (·.tag)
  (List.range 3).filterMap fun n =>
    let part := (tags.drop (24 * n)).take 24
    if part = [] then none else some (.covered issue level (n + 1) part)

/-- `t` is what the accepted digest of tally `k`, which is `y`, makes of `s`: the covered levels and the reported level
rise, the failure count is 0, COVERED frames are asked for, and the tally leaves UPLINKING (06 R126). -/
def State.acceptsUplink (s t : State) (k : Nat) (y : Tally) : Prop :=
  let z : Tally := { y with
    members := y.digest.foldl (fun ms x => coverTag ms x.tag x.status) y.members
    reported := y.digest.foldl (fun l x => if x.tag = y.ownTag then l.raise x.status else l) y.reported
    failures := 0, timer := none, digest := [] }
  State.leavesUplink ((coveredOf y.issue y.digest .receipt ++ coveredOf y.issue y.digest .ack).foldl
    (fun s p => s.request p) (s.setTally k (some z))) t k z

/-- `s` once the digest of tally `k`, which is `y`, is handed to ML: the uplink is outstanding, its timeout runs, the items
are remembered, and the record is begun or waits (06 R125, 09 R177). -/
def State.digestSent (s : State) (k : Nat) (y : Tally) : State :=
  (s.setTally k (some { y with
      timer := some (s.now + s.settings.uplinkTimeout * 1000), digest := y.dueTags })).withMl
    (({ s.ml with uplinkMarker := some y.issue } : ModemLink).handed (.uplink y.issue s.cs.tag y.dueTags))

/-! ### Pressure on the table and the store (01 R29, 02 R41, R42) -/

/-- The class of an entry under table pressure and the time that orders it there, for a fragment of a key and category
(01 R29). -/
def Entry.reclaimClass (c : Settings) (key : Key) (category : Category) (e : Entry) : Option (Nat × Nat) :=
  if e.ofKey key then none
  else match e.state with
    | .closed => if e.bodyHeld then some (2, e.closureTime.getD 0) else some (1, e.closureTime.getD 0)
    | .outside => some (3, e.deadline.getD 0)
    | .assembling =>
      match e.category with
      | some own =>
        if c.configured own < c.configured category then
          some (4, if e.provisional then e.takenAt.getD 0 else e.lastFragment.getD (e.takenAt.getD 0))
        else none
      | none => none
    | _ => none

/-- Table pressure reclaims entry `v`: it is of a class, and no entry is of an earlier one, or of the same one with an
earlier time or, at the same time, a lower index (01 R29). -/
def State.reclaims (s : State) (key : Key) (category : Category) (v : Nat) : Prop :=
  v < s.table.length ∧ ∃ c at', (s.entry v).reclaimClass s.settings key category = some (c, at')
    ∧ ∀ j d by', j < s.table.length → (s.entry j).reclaimClass s.settings key category = some (d, by') →
      c < d ∨ (c = d ∧ (at' < by' ∨ (at' = by' ∧ v ≤ j)))

/-- A husk whose husk hold has not ended (01 R18). -/
def State.standingHusk (s : State) (i : Nat) : Prop :=
  i < s.table.length ∧ (s.entry i).isHusk = true
    ∧ s.uptime < (s.entry i).deadline.getD ((s.entry i).closureTime.getD 0) + s.settings.huskHold

/-- An OFFER reclaims entry `v`: of the husks whose hold has not ended, none was closed earlier, nor one of a lower index
at the same time (01 R29, 05 R107; log 33). -/
def State.reclaimsForOffer (s : State) (v : Nat) : Prop :=
  s.standingHusk v ∧ ∀ j, s.standingHusk j →
    (s.entry v).closureTime.getD 0 < (s.entry j).closureTime.getD 0
      ∨ ((s.entry v).closureTime.getD 0 = (s.entry j).closureTime.getD 0 ∧ v ≤ j)

/-- The step of an entry under store pressure and what orders it there, for a fragment of a key and category (02 R41,
R42). -/
def Entry.pressureStep (c : Settings) (key : Key) (category : Category) (e : Entry) : Option (Nat × Nat × Nat) :=
  match e.state with
  | .closed =>
    if e.bodyHeld then some (if e.isTombstone then 3 else 1, e.closureTime.getD 0, 0) else none
  | .outside => if e.bodyHeld then some (2, e.deadline.getD 0, 0) else none
  | .assembling =>
    match e.category with
    | some own =>
      if e.ofKey key = false ∧ e.slots ≠ [] ∧ c.configured own < c.configured category then
        some (4, e.slots.length, e.lastFragment.getD 0)
      else none
    | none => none
  | _ => none

/-- Store pressure acts on entry `v`, at a step: no entry stands at an earlier step, or at the same one before it (02 R41,
R42). -/
def State.pressed (s : State) (key : Key) (category : Category) (step v : Nat) : Prop :=
  v < s.table.length ∧ ∃ a b, (s.entry v).pressureStep s.settings key category = some (step, a, b)
    ∧ ∀ j d a' b', j < s.table.length → (s.entry j).pressureStep s.settings key category = some (d, a', b') →
      step < d ∨ (step = d ∧ (a < a' ∨ (a = a' ∧ (b < b' ∨ (b = b' ∧ v ≤ j)))))

/-- The fragment is to be taken, if a slot is found for it (02 R36, R37). -/
def State.Takes (s : State) (f : Fragment) : Prop :=
  s.Admits f ∧ ∀ i, s.assemblingOf f.issue.key = some i →
    (s.entry i).revision < f.issue.revision.toNat
      ∨ ((s.entry i).issue = some f.issue ∧ ((s.entry i).provisional = true
        ∨ ((s.entry i).total = f.total ∧ (s.entry i).category = some f.category
          ∧ (s.entry i).map.getD f.index none = none)))

/-! ### Laws of the shape of State -/

/-- The sizes of the table, its maps, the store, the cache, the tallies and the claim slots (01 R2, 02 R40, 03 R54,
06 R108, 07 R140). -/
def State.Shape (s : State) : Prop :=
  s.table.length = 32 ∧ (∀ e ∈ s.table, e.map.length = 16) ∧ s.store.wf = true ∧ s.ar.cache.length = 8
    ∧ s.ru.tallies.length = 8 ∧ s.pu.slots.length = 4

/-- The ranges of what PU, AR, RU's deferred list and the counters hold (07 R136 to R138, R151; 03 R49; 06 R112;
10 R190, R193). -/
def State.InRange (s : State) : Prop :=
  s.pu.threshold ≤ 6 ∧ s.pu.optout.getLsbD 0 = false ∧ s.pu.notices.length ≤ 16 ∧ s.ar.quality ≤ 3
    ∧ (∀ n ∈ s.counters.inOrder, n ≤ 65535)
    ∧ (∀ p ∈ s.settings.precedences, p ≤ 6) ∧ (∀ e ∈ s.table, e.precedence.getD 0 ≤ 7)
    ∧ ∀ d ∈ s.ru.deferred, d.precedence ≤ 7

/-! ### Laws of the relay channel (04) -/

/-- Outside UP no contender stands and no frame is in flight; in DOWN the queues and the echo list are empty; the
queues keep their capacities, the frame in flight counted; a contender is the head of its queue, with no frame in flight;
the echo list holds four items at most, the control run is 4 at most, the timeout run below 3 but in FAULTED; each frame
waits in the queue of its kind; and the arbiter has nothing to do (04 R67, R68, R69, R71, R74, R78, R82). -/
def State.PortLaw (s : State) : Prop :=
  (s.cs.port ≠ .up → s.cs.contender = none ∧ s.cs.inFlight = none)
    ∧ (s.cs.port = .down → s.cs.control = [] ∧ s.cs.bulk = [] ∧ s.cs.echo = [])
    ∧ s.cs.control.length ≤ s.cs.room .control ∧ s.cs.bulk.length ≤ s.cs.room .bulk
    ∧ (∀ k, s.cs.contender = some k → s.cs.waiting k.queue ≠ [] ∧ s.cs.inFlight = none)
    ∧ s.cs.echo.length ≤ 4 ∧ s.cs.controlRun ≤ 4 ∧ (s.cs.port ≠ .faulted → s.cs.timeoutRun ≤ 2)
    ∧ (∀ q, ∀ p ∈ s.cs.waiting q, p.queue = q) ∧ s.ArbiterRests

/-- Through start-up every request worked on or held is one that ended in it (09 R182; 10 R185). -/
def State.EarlyLaw (s : State) : Prop :=
  s.started = false → (∀ q, s.al.buffer = .working q → q.early = true) ∧ ∀ q, s.al.held = some q → q.early = true

/-- Through start-up the port is DOWN; from its end the station tag is a station tag (04 R68, R73). -/
def State.TagLaw (s : State) : Prop :=
  (s.started = false → s.cs.port = .down) ∧ (s.started = true → tagGood s.cs.tag = true)

/-! ### Laws of the store and the table (01, 02) -/

/-- An entry that is not ASSEMBLING holds no slot or its whole body; one whose total is provisional holds none
(01 R4, R5). -/
def Entry.SlotLaw (e : Entry) : Prop :=
  (e.state ≠ .assembling → e.slots = [] ∨ (e.bodyHeld = true ∧ e.state ≠ .free)) ∧ (e.provisional = true → e.slots = [])

/-- At every moment each of the 160 slots is either on the free list, once, or named by exactly one position of one
entry's map (02 R40). -/
def State.SlotLaw (s : State) : Prop :=
  s.table.length = 32 ∧ (∀ e ∈ s.table, e.map.length = 16 ∧ e.SlotLaw)
    ∧ (s.free ++ s.table.flatMap Entry.slots).Perm (List.range 160)

/-- For any key, at most one entry is ASSEMBLING (01 R6, its first half). -/
def State.OneAssembling (s : State) : Prop :=
  ∀ i j k, (s.entry i).state = .assembling → (s.entry j).state = .assembling → (s.entry i).ofKey k = true →
    (s.entry j).ofKey k = true → i = j

/-- Every entry in AR's waiting set is LOCATING, and is in it once (03 R59). -/
def State.WaitLaw (s : State) : Prop :=
  s.ar.waiting.Nodup ∧ ∀ i ∈ s.ar.waiting, (s.entry i).state = .locating

/-- Each CLAIMED entry is named by exactly one claim slot, and every occupied claim slot names a CLAIMED entry with the
slot's recorded generation (07 R140). -/
def State.ClaimLaw (s : State) : Prop :=
  s.pu.slots.length = 4
    ∧ (∀ i, (s.entry i).state = .claimed → ∃ k, (s.entry i).claimSlot = some k ∧ s.pu.slots[k]? = some (some (s.handle i)))
    ∧ (∀ k h, s.pu.slots[k]? = some (some h) →
        h = s.handle h.index ∧ (s.entry h.index).state = .claimed ∧ (s.entry h.index).claimSlot = some k)
    ∧ (∀ i, (s.entry i).state ≠ .claimed → (s.entry i).claimSlot = none)

/-! ### The law of attention (08) -/

/-- The owner is the first eligible entry in the pending order, held by index, generation and precedence, with a cadence;
where none is eligible there is no owner and no cadence (08 R159, R160). -/
def State.OwnerLaw (s : State) : Prop :=
  s.au.owner = s.firstEligible.map s.ownerOf ∧ s.au.cadence.isSome = s.au.owner.isSome

end Sys2Proof.Machine
end

