-- ==== Sys2Proof/WellFormed.lean ====
section
/-! DEFINITION. Which commands are well-formed: the operands a row of the table can stand with. -/

namespace Sys2Proof

open Sys2Proof.Machine

/-- Something was sent: bytes, if any are named, are one at least. -/
def HostInput.wf : HostInput → Bool
  | .bytes bs => !bs.isEmpty
  | .gap => true

/-- The bytes end one bad request by their length or by their last byte (09 R180). -/
def badRequest (bytes : List Byte) : Bool :=
  match (Framer.feed requestMost .idle bytes).2 with
  | [.record bs] => bs == bytes && judgeRequest bs == none
  | [.badLength bs] => bs == bytes
  | _ => false

/-- The bytes end no record, so that only a gap can (09 R172, R180). -/
def endsNothing (most : Nat) (bytes : List Byte) : Bool := (Framer.feed most .idle bytes).2 == []

/-- The bytes are one record of the modem that is dropped, at its length or at its end (09 R172, R173). -/
def droppedRecord (bytes : List Byte) : Bool :=
  match (Framer.feed modemMost .idle bytes).2 with
  | [.record bs] => bs == bytes && judgeModem bs == none
  | [.badLength bs] => bs == bytes
  | _ => false

/-- A frame of the kind passes the filter but for its check, which the row's meaning fills in (04 R76). -/
def goodFrame (kind : FrameKind) (sender : Word32) (body : List Byte) : Bool := bodyGood kind body && tagGood sender

/-- An entry index of the table (01 R2). -/
def goodEntry (entry : Nat) : Bool := entry < 32

/-- A tally number (06 R108). -/
def goodTally (tally : Nat) : Bool := tally < 8

/-- The command is well-formed. -/
def Instr.wf : Instr → Bool
  | .powerOn => true
  | .configProbe _ => true
  | .configRecord _ _ => true
  | .configCheckWord _ => true
  | .memorySilent => true
  | .hello => true
  | .cell _ _ _ => true
  | .fragment record => 17 ≤ record.length && record.length ≤ 105
  | .region _ answer _ => answer == 0 || answer == 1
  | .time _ => true
  | .uplinkResult _ _ _ outcome => outcome == 1 || outcome == 2
  | .linkRecordDropped bytes => droppedRecord bytes
  | .modemGapTimeout bytes => endsNothing modemMost bytes
  | .modemReadyRise => true
  | .modemReadyFall => true
  | .modemRecordSent => true
  | .claim _ during => during.all HostInput.wf
  | .read _ _ _ _ _ during => during.all HostInput.wf
  | .complete _ _ _ during => during.all HostInput.wf
  | .release _ _ _ during => during.all HostInput.wf
  | .ack _ _ _ during => during.all HostInput.wf
  | .fetchNotice _ during => during.all HostInput.wf
  | .status _ during => during.all HostInput.wf
  | .restart _ during => during.all HostInput.wf
  | .setThreshold _ _ during => during.all HostInput.wf
  | .setOptout _ _ during => during.all HostInput.wf
  | .badRequestRecord bytes during => badRequest bytes && during.all HostInput.wf
  | .appGapTimeout bytes during => endsNothing requestMost bytes && during.all HostInput.wf
  | .heldRequest => true
  | .readyRise => true
  | .readyFall => true
  | .busyRise => true
  | .busyFall => true
  | .backoffSlotEnd _ => true
  | .sent => true
  | .lost => true
  | .portTimeout => true
  | .lateAnswerGuardEnd => true
  | .badFrame bytes => parseFrame bytes == none
  | .tagRedraw => true
  | .offer sender body => goodFrame .offer sender body
  | .want sender body => goodFrame .want sender body
  | .piece sender body => goodFrame .piece sender body
  | .tally sender body => goodFrame .tally sender body
  | .stand sender body => goodFrame .stand sender body
  | .covered sender body => goodFrame .covered sender body
  | .yield sender body => goodFrame .yield sender body
  | .assemblyTimeout entry => goodEntry entry
  | .expiryDeadline entry => goodEntry entry
  | .huskHoldEnd entry => goodEntry entry
  | .verdictProcedure entry => goodEntry entry
  | .queryTimerEnd => true
  | .offerPoint entry => goodEntry entry
  | .offerIntervalEnd entry => goodEntry entry
  | .gapFillTimerEnd entry => goodEntry entry
  | .reportDelayEnd t => goodTally t
  | .standHoldEnd t => goodTally t
  | .collectionWindowEnd t => goodTally t
  | .contributorGuardEnd t => goodTally t
  | .uplinkTimeoutEnd => true
  | .cadencePhaseEnd _ => true
  | .keyEdge _ _ => true
  | .debounceEnd _ => true

end Sys2Proof
end

