-- ==== Sys2Proof/Certificates/Slice0/Obligations.lean ====
section
/-! DEFINITION. The statements about the S2140 that are to be proved. -/

open Sys2Proof Sys2Proof.Machine

/-! ### The machine as a whole -/

/-- A step takes the command at the front of the queue and carries it out on the queue's rest. -/
def Obligations.StepTakesFront : Prop :=
  ∀ (c : Instr) (rest : List Instr) (s : State), step (s.withPending (c :: rest)) = exec c (s.withPending rest)

/-- With no command waiting, one millisecond passes and nothing else changes: the uptime and the ms within it hold the
new time, and a set alert clock advances by the seconds the uptime advances by.  At the last ms the time stops (that a
step with an empty queue is a tick of 1 ms is the model's choice, log 1; the stop is log 9). -/
def Obligations.IdleStepPassesOneMs : Prop :=
  ∀ s : State, s.pending = [] → s.tb.milli < 1000 →
    (s.now < lastMs → ∃ t, step s = .next t ∧ s.onlyChanges [.tb] t ∧ t.now = s.now + 1 ∧ t.tb.milli < 1000
        ∧ t.tb.alertClock = s.tb.alertClock.map (fun a => a + (t.uptime - s.uptime))
        ∧ t.tb.draws = s.tb.draws ∧ t.tb.drawn = s.tb.drawn)
      ∧ (s.now = lastMs → step s = .next s)

/-- No command stops the part: every one answers a next state in every state (that the part never stops is the model's
reading of the spec, log 18).  It leaves the queue of waiting commands
as it is, and no command but POWER_ON takes time back, or, once start-up is over, changes a setting or ends the ready
state. -/
def Obligations.EveryCommandAnswersNext : Prop :=
  ∀ (c : Instr) (s : State), ∃ t, exec c s = .next t ∧ t.pending = s.pending ∧ (c ≠ .powerOn → s.now ≤ t.now)
    ∧ (c ≠ .powerOn → s.started = true → t.settings = s.settings ∧ t.started = true)

/-! ### Power-on and start-up -/

/-- The state after reset is the power-on state, with nothing waiting.  POWER_ON puts every block in its power-on
state, whatever it was in; the lines that others drive, and the waiting commands, stand as they are (that they do is
the model's reading, log 20).  (That the application link's framer is IDLE then, with no request held, and no HELLO noted, is
the model's choice, logs 38 and 36.) -/
def Obligations.PowerOnResets : Prop :=
  State.reset.PowerOnState ∧ State.reset.pending = [] ∧ ∀ s : State, ∃ t, exec .powerOn s = .next t ∧ t.PowerOnState
    ∧ t.started = false ∧ t.cs.ready = s.cs.ready ∧ t.cs.busy = s.cs.busy ∧ t.ml.modemReady = s.ml.modemReady
    ∧ (∀ k, (t.au.key k).drive = (s.au.key k).drive) ∧ t.pending = s.pending

/-- CONFIG_PROBE: a right header is taken, and its zones are to be read from address 1; no answer, or a wrong header,
leaves every setting as it is, sets CONFIG_DEFAULTED and ends start-up. -/
def Obligations.ProbeJudgesHeader : Prop :=
  ∀ s : State, s.Starting → s.sl.phase = .probing →
    (∀ w : Word16, w.extractLsb' 5 11 = 0b10110011101#11 → w.getLsbD 0 = false →
        exec (.configProbe (some w)) s = .next (s.withSl
          { phase := if headerZones w = [] then .checking else .reading
            zones := [1, 2, 3, 4].filter fun z => w.getLsbD z, address := 1, check := checkCode (bytes16 w) }))
    ∧ (∀ answer : Option Word16,
        (∀ w, answer = some w → w.extractLsb' 5 11 ≠ 0b10110011101#11 ∨ w.getLsbD 0 = true) →
        ∃ t, exec (.configProbe answer) s = .next t ∧ s.ReadyFrom t
          ∧ t.flags = { s.flags with configDefaulted := true } ∧ s.onlyChanges [.tb, .sl, .cs, .au, .ml, .flags] t)

/-- CONFIG_RECORD within the image space: the record is loaded, or skipped and counted, by the tests of 10 R188; its
last-in-zone flag ends the zone either way. -/
def Obligations.RecordLoadedOrSkipped : Prop :=
  ∀ (s : State) (first value : Word16) (zone : Nat) (zones : List Nat), s.sl.phase = .reading → s.sl.address < 511 →
    s.sl.zones = zone :: zones →
    let n := (first.extractLsb' 8 8).toNat
    let v := value.toNat
    let left := if first.getLsbD 7 then zones else zone :: zones
    let good := first.extractLsb' 0 7 = 0#7 ∧ settingZone n = some zone ∧ settingInRange n v = true
      ∧ ¬ (n = 6 ∧ v < s.settings.offerMin) ∧ ¬ (n = 5 ∧ s.settings.offerMax < v)
    let sl : Loader :=
      { phase := if left = [] then .checking else .reading, zones := left, address := s.sl.address + 2
        check := checkFrom s.sl.check (bytes16 first ++ bytes16 value) }
    (good → exec (.configRecord first value) s = .next ((s.withSettings (s.settings.load n v)).withSl sl))
      ∧ (¬ good → exec (.configRecord first value) s = .next ((s.count .configSkipped).withSl sl))

/-- The ends of an image.  A check word that agrees with the check code over it ends start-up with no fault flag.  A
check word that disagrees, a silent memory, and a record that would pass address 511 each keep the settings as loaded
so far, set CONFIG_CRC and end start-up. -/
def Obligations.ImageEndsStartUp : Prop :=
  ∀ (s : State) (c : Instr), s.Starting →
    (c = .configCheckWord s.sl.check → s.sl.phase = .checking → s.sl.address < 512 →
      ∃ t, exec c s = .next t ∧ s.ReadyFrom t ∧ s.onlyChanges [.tb, .sl, .cs, .au, .ml] t)
    ∧ ((∃ w, c = .configCheckWord w ∧ s.sl.phase = .checking ∧ w ≠ s.sl.check)
        ∨ (c = .memorySilent ∧ (s.sl.phase = .reading ∨ s.sl.phase = .checking))
        ∨ (∃ first value, c = .configRecord first value ∧ s.sl.phase = .reading ∧ 511 ≤ s.sl.address) →
      ∃ t, exec c s = .next t ∧ s.ReadyFrom t ∧ t.flags = { s.flags with configCrc := true }
        ∧ s.onlyChanges [.tb, .sl, .cs, .au, .ml, .flags] t)

/-! ### The modem link -/

/-- TIME sets the alert clock to the record's value, whatever it was, and changes nothing else. -/
def Obligations.TimeSetsAlertClock : Prop :=
  ∀ (s : State) (seconds : Word32), s.ModemIdle →
    exec (.time seconds) s = .next (s.recordIn.withTb { s.tb with alertClock := some seconds.toNat })

/-- HELLO: every cache entry becomes invalid.  With no marker present that is all it does.  An outstanding query ends as
if timed out: QUERY_TIMEOUT is set, the marker is cleared and an unsent record withdrawn; a lone waiting entry with its
body gets UNRESOLVED where the query was for the serving cell, and else a fresh query for the serving cell is sent.  An
outstanding uplink then fails: UPLINK_TIMEOUT is set, the marker is cleared and an unsent record withdrawn, a YIELD is
asked for, the tally waits again, settles or is freed, and the uplink queue is served.  The location, the alert clock and
the part ready line stand.  A fresh record that HELLO has had begun waits in the hold after all where the modem ready line
falls at that moment.  (That AR acts before RU is the model's choice, log 12; that a tally marked superseded after its
third failure is freed at its next one is log 34; how a fall meets a HELLO is log 36.) -/
def Obligations.HelloForgets : Prop :=
  ∀ s : State, s.ModemIdle →
    let emptied := s.recordIn.withAr { s.ar with cache := s.ar.cache.map fun c => { c with valid := false } }
    let noted (t : State) := t.withMl (if s.ml.sending = none ∧ t.ml.sending ≠ none then
      { t.ml with helloBegan := some s.now } else t.ml)
    (s.ml.queryMarker = none → s.ml.uplinkMarker = none → exec .hello s = .next emptied)
    ∧ (∃ t, exec .hello s = .next t ∧ (∀ c ∈ t.ar.cache, c.valid = false)
        ∧ (s.ml.queryMarker ≠ none → t.flags.queryTimeout = true)
        ∧ (s.ml.uplinkMarker ≠ none → t.flags.uplinkTimeout = true)
        ∧ t.ar.cell = s.ar.cell ∧ t.ar.service = s.ar.service ∧ t.ar.quality = s.ar.quality
        ∧ t.tb.alertClock = s.tb.alertClock ∧ t.ml.partReady = s.ml.partReady)
    ∧ (∃ mid t, exec .hello s = .next (noted t) ∧ mid.ml.uplinkMarker = s.ml.uplinkMarker
        ∧ (s.ml.queryMarker = none → mid = emptied)
        ∧ (∀ cell, s.ml.queryMarker = some cell →
          let ended := emptied.queryOver.flag .queryTimeout
          (cell ≠ s.ar.cell → ended.followedUp mid)
          ∧ (cell = s.ar.cell → mid.ml = ended.ml ∧ mid.ar = { ended.ar with waiting := [] }
            ∧ ∀ i category, s.ar.waiting = [i] → i < s.table.length → (s.entry i).bodyHeld = true →
              (s.entry i).category = some category → s.placedAs mid i .unresolved category))
        ∧ (s.ml.uplinkMarker = none → t = mid)
        ∧ ∀ k y, s.ml.uplinkMarker = some y.issue → mid.findTally y.issue = some k → mid.tally k = some y →
          ∃ w, (mid.uplinkOver.flag .uplinkTimeout).failsUplink w k y ∧ t = w.nextUplink)
    ∧ ∀ t r, exec .hello s = .next t → s.ml.sending = none → s.ml.hold = [] → t.ml.sending = some r →
        exec .modemReadyFall t = .next (t.withMl
          { t.ml with modemReady := false, sending := none, hold := r :: t.ml.hold, helloBegan := none })

/-- CELL: a service that is not one of the three, or a quality above 3, drops the record with LINK_ERROR; the cell id
already held replaces service and quality alone; another one replaces the location, ends no outstanding query, and
moves no entry outside LOCATING and OUTSIDE.  A change of serving cell takes every OUTSIDE entry to LOCATING and
resolves every LOCATING entry anew: to a cell whose code the cache does not hold, with areas to check, they wait, and an
outstanding query goes on, or with none outstanding one for the new cell is handed to the modem link (that they join the
waiting set in order of index is the model's choice, log 12).  A lone entry resolved anew, with its body and areas to check, for a cell whose code the cache
holds, gets that code's verdict. -/
def Obligations.CellReplacesLocation : Prop :=
  (∀ (s : State) (cell : Word32) (service quality : Byte), s.ModemIdle →
    (2 < service.toNat ∨ 3 < quality.toNat →
        exec (.cell cell service quality) s = .next (s.recordIn.count .linkError))
    ∧ ∀ sv : Service, service.toNat = sv.code → quality.toNat ≤ 3 →
        (cell = s.ar.cell → exec (.cell cell service quality) s
            = .next (s.recordIn.withAr { s.ar with service := sv, quality := quality.toNat }))
        ∧ ∃ t, exec (.cell cell service quality) s = .next t
            ∧ t.ar.cell = cell ∧ t.ar.service = sv ∧ t.ar.quality = quality.toNat
            ∧ (s.ml.queryMarker ≠ none → t.ml.queryMarker = s.ml.queryMarker)
            ∧ ∀ i, (s.entry i).state ≠ .locating → (s.entry i).state ≠ .outside →
                (t.entry i).state = (s.entry i).state ∧ (t.entry i).verdict = (s.entry i).verdict)
  ∧ (∀ (s : State) (cell : Word32) (service quality : Byte) (sv : Service), s.ModemIdle → s.OwnerLaw →
    service.toNat = sv.code → quality.toNat ≤ 3 → cell ≠ s.ar.cell → cell ≠ 0 → s.ar.cached cell = none →
    s.settings.areaCheck ≠ 0 → (∀ e ∈ s.table, e.state = .locating ∨ e.state = .outside → e.areas ≠ []) →
    let moved := (s.recordIn).withTable (s.table.map fun e =>
        if e.state = .outside then { e with state := .locating, verdict := .undecided } else e)
    let away : Resolver := { s.ar with
        cell := cell, service := sv, quality := quality.toNat
        waiting := (List.range s.table.length).filter fun i =>
          (s.entry i).state = .locating || (s.entry i).state = .outside }
    (∀ other, s.ml.queryMarker = some other → exec (.cell cell service quality) s = .next (moved.withAr away))
    ∧ (s.ml.queryMarker = none → (∃ e ∈ s.table, e.state = .locating ∨ e.state = .outside) →
        exec (.cell cell service quality) s = .next ((moved.withAr
            { away with queryTimer := some (s.now + s.settings.queryTimeout * 1000) }).withMl
          (({ moved.ml with queryMarker := some cell } : ModemLink).handed (.regionQuery cell)))))
  ∧ (∀ (s : State) (cell code : Word32) (service quality : Byte) (sv : Service) (i : Nat) (category : Category),
    s.ModemIdle → service.toNat = sv.code → quality.toNat ≤ 3 → cell ≠ s.ar.cell → cell ≠ 0 →
    s.ar.cached cell = some code → s.settings.areaCheck ≠ 0 → i < s.table.length →
    (s.entry i).state = .locating ∨ (s.entry i).state = .outside →
    (∀ j, j ≠ i → (s.entry j).state ≠ .locating ∧ (s.entry j).state ≠ .outside) → (s.entry i).areas ≠ [] →
    (s.entry i).bodyHeld = true → (s.entry i).category = some category →
    ∃ t, exec (.cell cell service quality) s = .next t ∧ t.ar.waiting = [] ∧ t.ml.queryMarker = s.ml.queryMarker
      ∧ s.placedAs t i (if areaMatches (s.entry i).areas code = true then .inside else .outside) category)

/-- The region map cache: a fill puts cell and code at the front and answers the next lookup, taking the valid entry
of the same cell, else the invalid one nearest the back, else the last in the order.  A lookup hits where a valid entry is
of the cell: it gives that entry's code and moves it to the front, the others keeping their order; one that misses changes
nothing. -/
def Obligations.CacheKeepsUse : Prop :=
  ∀ (r : Resolver) (cell code : Word32), r.cache.length = 8 →
    (r.filled cell code).cache.head? = some ⟨true, cell, code⟩ ∧ (r.filled cell code).cached cell = some code
      ∧ (r.filled cell code).cache.length = 8
      ∧ (∀ a x b, r.cache = a ++ x :: b → x.valid = true → x.cell = cell →
          (∀ y ∈ a, y.valid = false ∨ y.cell ≠ cell) → (r.filled cell code).cache.tail = a ++ b)
      ∧ (∀ a x b, r.cache = a ++ x :: b → r.cached cell = none → x.valid = false → (∀ y ∈ b, y.valid = true) →
          (r.filled cell code).cache.tail = a ++ b)
      ∧ (r.cached cell = none → (∀ y ∈ r.cache, y.valid = true) → (r.filled cell code).cache.tail = r.cache.dropLast)
      ∧ (∀ a x b, r.cache = a ++ x :: b → x.valid = true → x.cell = cell →
          (∀ y ∈ a, y.valid = false ∨ y.cell ≠ cell) →
          r.cached cell = some x.code ∧ r.touched cell = { r with cache := x :: (a ++ b) })
      ∧ (r.cached cell = none ↔ ∀ y ∈ r.cache, y.valid = false ∨ y.cell ≠ cell)
      ∧ (∀ old, r.cached cell = some old → (r.touched cell).cache.head? = some ⟨true, cell, old⟩
          ∧ (r.touched cell).cache.Perm r.cache)
      ∧ (r.cached cell = none → r.touched cell = r)
      ∧ ∀ other, other ≠ cell → (r.touched cell).cached other = r.cached other

/-- REGION: a known answer for a cell other than 0 fills the cache, and an answer that names another cell than the
outstanding query's, or comes with none outstanding, does nothing more.  One that answers the outstanding query for
the serving cell ends it and empties the waiting set; where one entry waited, with its body held, it goes OUTSIDE when
a known code does not match its areas, and else to PENDING or CLOSED(WITHHELD) by its precedence, with verdict
UNRESOLVED for UNKNOWN and INSIDE for a match.  One that answers the outstanding query for a cell that is no longer the
serving cell ends it with no verdict, and AR then looks at the serving cell: where none waits nothing follows, and else
the cache decides, a fresh query is sent, or with no serving cell the verdict is UNRESOLVED. -/
def Obligations.RegionAnswersQuery : Prop :=
  ∀ (s : State) (cell code : Word32) (answer : Byte), s.ModemIdle → answer = 0 ∨ answer = 1 →
    let filled := if answer = 1 ∧ cell ≠ 0 then s.recordIn.withAr (s.ar.filled cell code) else s.recordIn
    let run := exec (.region cell answer code) s
    (s.ml.queryMarker ≠ some cell → run = .next filled)
    ∧ (s.ml.queryMarker = some cell → cell = s.ar.cell →
      ∃ t, run = .next t ∧ t.ml = filled.queryOver.ml ∧ t.ar = { filled.queryOver.ar with waiting := [] }
        ∧ ∀ i category, s.ar.waiting = [i] → i < s.table.length → (s.entry i).bodyHeld = true →
          (s.entry i).category = some category →
          s.placedAs t i (if answer = 0 then .unresolved
            else if areaMatches (s.entry i).areas code = true then .inside else .outside) category)
    ∧ (s.ml.queryMarker = some cell → cell ≠ s.ar.cell → ∃ t, run = .next t ∧ filled.queryOver.followedUp t)

/-- UPLINK_RESULT that matches no outstanding uplink is counted as LATE_RESULT and changes nothing else.  Of one that
matches, the uplink is over.  ACCEPTED raises the covered level of each item's tag and the reported level, clears the
failure count, and asks for COVERED frames; FAILED asks for a YIELD, advances the failure count to at most 3 and changes
no covered level.  The tally is then freed where its entry has ended, settles when its reported level reaches its own
level, and else waits again with a fresh delay by its failure count and a bid of that delay; a superseded tally is freed
instead of settling, and at its third failure; a tally freed or settled while items are deferred is given to one of them.
The uplink timeout runs out: UPLINK_TIMEOUT is set, and the uplink fails likewise.  Each end lets the uplink queue be
served: while no uplink is outstanding its head fails where there is no reporting service, is accepted with no items where
no tag is due, and else is handed over; with an uplink outstanding nothing is sent.  (That a tally marked superseded after
its third failure is freed at its next one is the model's choice, log 34.) -/
def Obligations.UplinkEnds : Prop :=
  (∀ (s : State) (y : Tally) (upper : BitVec 4) (outcome : Byte), s.ModemIdle → outcome = 1 ∨ outcome = 2 →
    let run := exec (.uplinkResult y.issue.key.origin y.issue.key.number (upper ++ y.issue.revision) outcome) s
    (s.ml.uplinkMarker ≠ some y.issue → run = .next (s.recordIn.count .lateResult))
    ∧ ∀ k, s.ml.uplinkMarker = some y.issue → s.findTally y.issue = some k → s.tally k = some y →
      (outcome = 1 → ∃ w, s.recordIn.uplinkOver.acceptsUplink w k y ∧ run = .next w.nextUplink)
      ∧ (outcome = 2 → ∃ w, s.recordIn.uplinkOver.failsUplink w k y ∧ run = .next w.nextUplink))
  ∧ (∀ (s : State) (k : Nat) (y : Tally) (tEnd : Nat), s.ml.uplinkMarker = some y.issue → s.findTally y.issue = some k →
    s.tally k = some y → y.state = .uplinking → y.timer = some tEnd → tEnd ≤ lastMs →
    ∃ w, ((s.runTo tEnd).uplinkOver.flag .uplinkTimeout).failsUplink w k y ∧ exec .uplinkTimeoutEnd s = .next w.nextUplink)
  ∧ ∀ s : State,
    (s.ml.uplinkMarker ≠ none ∨ s.ru.uplinkQueue = [] → s.nextUplink = s)
    ∧ ∀ (k : Nat) (rest : List Nat) (y : Tally), s.ml.uplinkMarker = none → s.ru.uplinkQueue = k :: rest →
      s.tally k = some y →
      let v := s.withRu { s.ru with uplinkQueue := rest }
      let service := s.ar.cell ≠ 0 ∧ s.ar.service = .full ∧ s.ml.modemReady = true
      (¬ service → ∃ w, v.failsUplink w k y ∧ s.nextUplink = w.nextUplink)
      ∧ (service → y.dueTags = [] → ∃ w, v.acceptsUplink w k { y with digest := [] } ∧ s.nextUplink = w.nextUplink)
      ∧ (service → y.dueTags ≠ [] → s.nextUplink = v.digestSent k y)

/-- A record of the modem dropped for its length, its check, its kind or a field advances LINK_ERROR once and changes
nothing else but the framer; a record cut short by a gap does the same, its bytes in already or coming with the gap; a gap
ends HUNTING with no count, and in IDLE does nothing.  While the
part ready line is low no byte of the modem is taken.  (That the gap's end is 6 ms after the last byte is the model's
choice, log 21: the spec says more than 5 ms.) -/
def Obligations.BadModemBytesCounted : Prop :=
  (∀ s : State, s.ml.partReady = true →
    (∀ bytes, s.ml.framer = .idle → (Instr.linkRecordDropped bytes).wf = true →
      ∃ f, exec (.linkRecordDropped bytes) s
          = .next ((s.withMl { s.ml with framer := f, lastByte := s.now }).count .linkError)
        ∧ (f = .idle ∨ f = .hunting))
    ∧ (s.ml.lastByte + 6 ≤ lastMs →
      (∀ bs, s.ml.framer = .receiving bs → exec (.modemGapTimeout []) s
        = .next (((s.runTo (s.ml.lastByte + 6)).withMl { s.ml with framer := .idle }).count .linkError))
      ∧ (s.ml.framer = .hunting → exec (.modemGapTimeout []) s
        = .next ((s.runTo (s.ml.lastByte + 6)).withMl { s.ml with framer := .idle })))
    ∧ (s.ml.framer = .idle → exec (.modemGapTimeout []) s = .next s
      ∧ ∀ bytes, bytes ≠ [] → (Instr.modemGapTimeout bytes).wf = true → s.now + 6 ≤ lastMs →
        exec (.modemGapTimeout bytes) s
          = .next (((s.runTo (s.now + 6)).withMl { s.ml with framer := .idle, lastByte := s.now }).count .linkError)))
  ∧ (∀ (s : State) (c : Instr), s.ml.partReady = false → s.ml.framer = .idle →
    (c = .hello ∨ (∃ a b d, c = .cell a b d) ∨ (∃ r, c = .fragment r) ∨ (∃ a b d, c = .region a b d)
      ∨ (∃ x, c = .time x) ∨ (∃ a b d e, c = .uplinkResult a b d e) ∨ (∃ bs, c = .linkRecordDropped bs)
      ∨ (∃ bs, c = .modemGapTimeout bs)) →
    exec c s = .next s)

/-- The modem ready line and the record being sent: a rise begins the head of the transmit hold where no record is
being sent; a fall leaves everything else as it is, the record being sent going on to its end, but that a record which a
HELLO of that very moment had begun, and whose marker still names it, waits at the head of the hold (log 36); the end of a
record begins the next one where the line is high. -/
def Obligations.TransmitHoldFollowsReadyLine : Prop :=
  ∀ s : State, s.started = true →
    exec .modemReadyRise s = .next (s.withMl (match s.ml.sending, s.ml.hold with
      | none, r :: rest => { s.ml with modemReady := true, sending := some r, hold := rest }
      | _, _ => { s.ml with modemReady := true }))
    ∧ (s.ml.sending = none ∨ s.ml.helloBegan ≠ some s.now → exec .modemReadyFall s
        = .next (s.withMl { s.ml with modemReady := false }))
    ∧ (∀ r, s.ml.sending = some r → s.ml.helloBegan = some s.now → (∀ x ∈ s.ml.hold, x.isQuery ≠ r.isQuery) →
        (∃ cell, r = .regionQuery cell ∧ s.ml.queryMarker = some cell)
          ∨ (∃ i tag items, r = .uplink i tag items ∧ s.ml.uplinkMarker = some i) →
        exec .modemReadyFall s = .next (s.withMl
          { s.ml with modemReady := false, sending := none, hold := r :: s.ml.hold, helloBegan := none }))
    ∧ (∀ r, s.ml.sending = some r → exec .modemRecordSent s = .next (s.withMl (match s.ml.modemReady, s.ml.hold with
      | true, next :: rest => { s.ml with sending := some next, hold := rest, helloBegan := none }
      | _, _ => { s.ml with sending := none, helloBegan := none })))

/-! ### Fragments of the broadcast and of peers -/

/-- A fragment dropped by a decision of Fragment Intake advances that decision's counter by one and changes nothing
else: MALFORMED, STALE, DUPLICATE for a tombstone of its key, for a complete entry of its key at its revision or
higher, for a lower revision than the ASSEMBLING entry's and for a filled position, INCONSISTENT for another total or
category.  A fragment that is to be taken and finds no store slot, none being free and none to be made free, is
dropped with STORE_FULL; one that finds a slot but no entry gives the slot back to the tail of the free list and is
dropped with TABLE_FULL.  No counter advances. -/
def Obligations.DroppedFragmentCounted : Prop :=
  (∀ (s : State) (source : Source) (sender : Word32) (record : List Byte), s.Meets source sender record →
    (parseFragment record = none →
        exec (arrival source sender record) s = .next ((s.arrived source).count .malformed))
    ∧ ∀ f, parseFragment record = some f →
      (¬ s.isLive f → exec (arrival source sender record) s = .next ((s.arrived source).count .stale))
      ∧ (s.isLive f →
          (∃ e ∈ s.table, e.ofKey f.issue.key = true ∧ e.isComplete = true
            ∧ (e.isTombstone = true ∨ f.issue.revision.toNat ≤ e.revision)) →
          exec (arrival source sender record) s = .next ((s.arrived source).count .duplicate))
      ∧ (s.Admits f → ∀ i, s.assemblingOf f.issue.key = some i →
          (f.issue.revision.toNat < (s.entry i).revision →
            exec (arrival source sender record) s = .next ((s.arrived source).count .duplicate))
          ∧ ((s.entry i).issue = some f.issue → (s.entry i).provisional = false →
            ((s.entry i).total ≠ f.total ∨ (s.entry i).category ≠ some f.category →
              exec (arrival source sender record) s = .next ((s.arrived source).count .inconsistent))
            ∧ ((s.entry i).total = f.total → (s.entry i).category = some f.category →
              ((s.entry i).map.getD f.index none).isSome = true →
              exec (arrival source sender record) s = .next ((s.arrived source).count .duplicate)))))
  ∧ (∀ (s : State) (source : Source) (sender : Word32) (record : List Byte) (f : Fragment),
    s.Meets source sender record → parseFragment record = some f → s.Admits f →
    let lower (e : Entry) := ∃ c, e.category = some c ∧ s.settings.configured c < s.settings.configured f.category
    (s.free = [] →
      (∀ e ∈ s.table, ((e.state = .closed ∨ e.state = .outside) → e.bodyHeld = false)
        ∧ (e.state = .assembling → e.ofKey f.issue.key = false → e.slots ≠ [] → ¬ lower e)) →
      (∀ i, s.assemblingOf f.issue.key = some i →
        (s.entry i).revision < f.issue.revision.toNat
          ∨ ((s.entry i).issue = some f.issue ∧ ((s.entry i).provisional = true
            ∨ ((s.entry i).total = f.total ∧ (s.entry i).category = some f.category
              ∧ (s.entry i).map.getD f.index none = none)))) →
      exec (arrival source sender record) s = .next ((s.arrived source).flag .storeFull))
    ∧ (∀ slot rest, s.free = slot :: rest → s.assemblingOf f.issue.key = none →
      (∀ e ∈ s.table, e.state ≠ .free ∧ (e.ofKey f.issue.key = false →
        e.state ≠ .closed ∧ e.state ≠ .outside ∧ (e.state = .assembling → ¬ lower e))) →
      exec (arrival source sender record) s
        = .next (((s.arrived source).withFree (rest ++ [slot])).flag .tableFull)))

/-- A fragment of a key that no entry assembles starts an entry: the FREE entry of lowest index goes to ASSEMBLING
under the next generation, with the fragment's issuance, total and category, and its timers running, and the fragment
meets it there.  One fragment of several is then taken, in the slot from the head of the free list, and nothing else
changes.  With no entry FREE, table pressure reclaims the first candidate of the four classes, the husk, the CLOSED
entry with its body, the OUTSIDE entry, or the ASSEMBLING entry of lower precedence: its slots go back to the free list,
no notice is posted, and it is taken into use under its next generation.  An OFFER reclaims a husk alone, and none whose
husk hold has ended: with no other husk the OFFER ends (that a husk serves an OFFER up to the moment its hold ends is how the
model settles two rules, log 33). -/
def Obligations.FragmentStartsEntry : Prop :=
  (∀ (s : State) (source : Source) (sender : Word32) (record : List Byte) (f : Fragment) (slot i : Nat)
    (rest : List Nat), s.Meets source sender record → parseFragment record = some f → s.Admits f →
    s.assemblingOf f.issue.key = none → s.free = slot :: rest → i < s.table.length → (s.entry i).state = .free →
    (∀ j, j < i → (s.entry j).state ≠ .free) →
    let begun : Entry :=
      { Entry.freed ((s.entry i).generation + 1) with
        state := .assembling, issue := some f.issue, category := some f.category, total := f.total
        takenAt := some s.uptime, assemblyTimer := some (s.now + s.settings.assemblyTimeout * 1000)
        want := some ⟨s.now + s.settings.gapFillDelay * 1000, none⟩ }
    exec (arrival source sender record) s = exec (arrival source sender record) (s.setEntry i begun)
    ∧ (1 < f.total → exec (arrival source sender record) s
        = .next (((((s.arrived source).withStore (s.store.set slot f.payload)).withFree rest).setEntry i
          { begun with
            kind := some f.kind, map := emptyMap.set f.index (some slot), issueTime := some f.issueTime
            duration := some f.duration, areas := if f.index = 0 then f.areas else []
            bodyCheck := if f.index = 0 then some f.bodyCheck else none
            heardBroadcast := source == .broadcast, heardRelay := source == .relay
            lastFragment := some s.uptime }).count .fragmentsTaken)))
  ∧ (∀ (s : State) (source : Source) (sender : Word32) (record : List Byte) (f : Fragment) (slot v : Nat)
    (rest : List Nat), s.Meets source sender record → parseFragment record = some f → s.Admits f →
    s.assemblingOf f.issue.key = none → s.free = slot :: rest → (∀ e ∈ s.table, e.state ≠ .free) →
    s.reclaims f.issue.key f.category v → 1 < f.total →
    ∃ t, exec (arrival source sender record) s = .next t
      ∧ t.entry v = { Entry.freed ((s.entry v).generation + 1) with
          state := .assembling, issue := some f.issue, category := some f.category, total := f.total
          takenAt := some s.uptime, assemblyTimer := some (s.now + s.settings.assemblyTimeout * 1000)
          want := some ⟨s.now + s.settings.gapFillDelay * 1000, none⟩
          kind := some f.kind, map := emptyMap.set f.index (some slot), issueTime := some f.issueTime
          duration := some f.duration, areas := if f.index = 0 then f.areas else []
          bodyCheck := if f.index = 0 then some f.bodyCheck else none
          heardBroadcast := source == .broadcast, heardRelay := source == .relay, lastFragment := some s.uptime }
      ∧ (∀ j, j ≠ v → t.entry j = s.entry j) ∧ t.free = rest ++ (s.entry v).slots
      ∧ t.store = s.store.set slot f.payload ∧ t.pu.notices = s.pu.notices ∧ t.flags = s.flags)
  ∧ (∀ (s : State) (sender : Word32) (issue : Issue) (total : Nat) (category : Category),
    s.Hears .offer sender (Payload.offer issue total category).body → issue.key.origin ≠ 0 → 1 ≤ total → total ≤ 16 →
    (∀ e ∈ s.table, e.state ≠ .free ∧ e.ofKey issue.key = false) →
    let run := exec (.offer sender (Payload.offer issue total category).body) s
    ((∀ i, ¬ s.standingHusk i) → run = .next s)
    ∧ (∀ v, s.reclaimsForOffer v → ∃ t, run = .next t
      ∧ t.entry v = { Entry.freed ((s.entry v).generation + 1) with
          state := .assembling, issue := some issue, category := some category, total := total, provisional := true
          takenAt := some s.uptime, assemblyTimer := some (s.now + s.settings.assemblyTimeout * 1000)
          want := some ⟨s.now + s.settings.gapFillDelay * 1000, none⟩ }
      ∧ (∀ j, j ≠ v → t.entry j = s.entry j) ∧ t.pu.notices = s.pu.notices ∧ t.flags = s.flags))

/-- A fragment of an ASSEMBLING entry's own revision, which does not complete it: at a free position, or the first
under a provisional total, it is taken with the slot from the head of the free list, and the entry's timers restart.
The first fragment after an OFFER meets the entry with the fragment's own total and category.  A fragment of a higher
revision retargets the entry, whose generation stands and whose slots go back to the free list.  (That a later fragment
0 leaves the kind as it is is the model's choice between two rules, log 32.) -/
def Obligations.FragmentFillsPosition : Prop :=
  ∀ (s : State) (source : Source) (sender : Word32) (record : List Byte) (f : Fragment) (slot i : Nat)
    (rest : List Nat), s.Meets source sender record → parseFragment record = some f → s.Admits f →
    s.assemblingOf f.issue.key = some i → s.free = slot :: rest → (s.entry i).map.length = 16 →
    let e := s.entry i
    (e.issue = some f.issue →
      (e.provisional = true ∨ (e.total = f.total ∧ e.category = some f.category ∧ e.map.getD f.index none = none)) →
      (∃ k, k < f.total ∧ k ≠ f.index ∧ e.map.getD k none = none) →
      exec (arrival source sender record) s = .next (((((s.arrived source).withStore
        (s.store.set slot f.payload)).withFree rest).setEntry i
          { e with
            map := e.map.set f.index (some slot), total := f.total, category := some f.category, provisional := false
            kind := some (e.kind.getD f.kind)
            issueTime := if e.kind = none ∨ f.index = 0 then some f.issueTime else e.issueTime
            duration := if e.kind = none ∨ f.index = 0 then some f.duration else e.duration
            areas := if f.index = 0 then f.areas else e.areas
            bodyCheck := if f.index = 0 then some f.bodyCheck else e.bodyCheck
            heardBroadcast := e.heardBroadcast || source == .broadcast
            heardRelay := e.heardRelay || source == .relay
            lastFragment := some s.uptime
            assemblyTimer := some (s.now + s.settings.assemblyTimeout * 1000)
            want := e.want.map fun w => { w with gapEnd := s.now + s.settings.gapFillDelay * 1000 } }).count
        .fragmentsTaken))
    ∧ (e.issue = some f.issue → e.provisional = true → e.map.getD f.index none = none →
      exec (arrival source sender record) s = exec (arrival source sender record)
        (s.setEntry i { e with total := f.total, category := some f.category, provisional := false }))
    ∧ (e.revision < f.issue.revision.toNat → source = .broadcast →
      exec (.fragment record) s
        = exec (.fragment record) (s.retarget i f.issue f.total f.category false))
    ∧ (e.revision < f.issue.revision.toNat → 1 < f.total →
      ∃ t, exec (arrival source sender record) s = .next t
        ∧ s.onlyChanges [.tb, .table, .store, .free, .cs, .ml, .counters] t
        ∧ t.free = rest ++ e.slots ∧ t.store = s.store.set slot f.payload
        ∧ (t.entry i).state = .assembling ∧ (t.entry i).generation = e.generation ∧ (t.entry i).issue = some f.issue
        ∧ (t.entry i).map = emptyMap.set f.index (some slot) ∧ (t.entry i).total = f.total
        ∧ (t.entry i).category = some f.category ∧ (t.entry i).provisional = false ∧ (t.entry i).checkFailures = 0
        ∧ (t.entry i).kind = some f.kind ∧ (t.entry i).issueTime = some f.issueTime
        ∧ (t.entry i).duration = some f.duration ∧ (t.entry i).areas = (if f.index = 0 then f.areas else [])
        ∧ (t.entry i).heardBroadcast = (source == .broadcast) ∧ (t.entry i).heardRelay = (source == .relay)
        ∧ (t.entry i).followsAcknowledged = false ∧ (t.entry i).replaces = none
        ∧ (t.entry i).want = some ⟨s.now + s.settings.gapFillDelay * 1000, none⟩
        ∧ ∀ j, j ≠ i → t.entry j = s.entry j)

/-- The last fragment of a body brings the completion check.  A body whose check code disagrees is released and
counted as CHECK_FAIL, and the entry collects again from nothing, or closes MALFORMED at its third failure.  A body
whose check code agrees and whose packing is wrong or too long closes MALFORMED with the body released.  A good one
completes: its length and deadline are recorded, and it closes CANCELLED, goes to LOCATING, or closes EXPIRED, by its
kind and its remaining life.  (That the kind is that of the first fragment taken, also where fragment 0 comes last, is the
model's choice between two rules, log 32.) -/
def Obligations.LastFragmentIsChecked : Prop :=
  ∀ (s : State) (source : Source) (sender : Word32) (record : List Byte) (f : Fragment) (i slot : Nat)
    (rest : List Nat), s.Meets source sender record → parseFragment record = some f → s.Completes f i slot rest →
    1 ≤ s.settings.offerMin →
    let e := s.entry i
    let body := s.bodyWith f i
    let life := e.lifeWith f s.tb.alertClock
    ∃ t, exec (arrival source sender record) s = .next t ∧ (t.entry i).generation = e.generation
      ∧ (t.entry i).issue = some f.issue ∧ t.counters.fragmentsTaken = bump s.counters.fragmentsTaken
      ∧ (e.checkWith f ≠ some (checkCode body) →
          t.counters.checkFail = bump s.counters.checkFail ∧ (t.entry i).map = emptyMap
          ∧ t.free = rest ++ (e.map.set f.index (some slot)).filterMap id
          ∧ (t.entry i).areas = [] ∧ (t.entry i).bodyCheck = none ∧ (t.entry i).checkFailures = e.checkFailures + 1
          ∧ (e.checkFailures < 2 → (t.entry i).state = .assembling
              ∧ (t.entry i).assemblyTimer = some (s.now + s.settings.assemblyTimeout * 1000))
          ∧ (2 ≤ e.checkFailures → (t.entry i).state = .closed ∧ (t.entry i).closureReason = some .malformed
              ∧ (t.entry i).closureTime = some s.uptime ∧ (t.entry i).assemblyTimer = none))
      ∧ (e.checkWith f = some (checkCode body) → (∀ n, scan body 0 ≠ .length n) →
          t.counters.malformed = bump s.counters.malformed ∧ (t.entry i).map = emptyMap
          ∧ (t.entry i).state = .closed ∧ (t.entry i).closureReason = some .malformed
          ∧ (t.entry i).closureTime = some s.uptime)
      ∧ (∀ n, e.checkWith f = some (checkCode body) → scan body 0 = .length n →
          (t.entry i).expandedLength = some n ∧ (t.entry i).deadline = some (s.uptime + life)
          ∧ (t.entry i).assemblyTimer = none ∧ (t.entry i).want = none
          ∧ (e.kindWith f = .cancel → (t.entry i).state = .closed ∧ (t.entry i).closureReason = some .cancelled
              ∧ (t.entry i).closureTime = some s.uptime)
          ∧ (e.kindWith f ≠ .cancel → 0 < life → (t.entry i).state = .locating ∧ (t.entry i).verdict = .undecided)
          ∧ (e.kindWith f ≠ .cancel → life = 0 → (t.entry i).state = .closed
              ∧ (t.entry i).closureReason = some .expired ∧ (t.entry i).closureTime = some s.uptime)
          ∧ (life = 0 → (t.entry i).map = emptyMap)
          ∧ (0 < life → (t.entry i).map = e.map.set f.index (some slot)
              ∧ ∃ r, (t.entry i).offer = some r ∧ r.interval = s.settings.offerMin ∧ r.start = s.now
                ∧ r.interval * 500 ≤ r.point ∧ r.point < r.interval * 1000 ∧ r.pointPassed = false ∧ r.heard = 0))

/-- An issuance that completes takes every other entry of its key to FREE, and moves no entry of another key.  Where
there was one other, and the host held or had shown it, or it is closed by an acknowledgement while held and a cancel
completes, one notice is posted with its handle, or is lost with NOTICE_LOST where 16 wait: SUPERSEDED with the successor's
index, CANCELLED for a cancel, EXPIRED for a successor with no life left; no other entry posts one.  A successor takes the
handle of a held predecessor as the one it replaces, and that which another predecessor replaced.  Where an issuance
superseded so has a tally, by a successor with life left or with none, RU marks it superseded, and it carries on in its
state, but that a SETTLED one is freed; a cancel frees the tally, or lets it end its uplink first.  (That the kind is that of the first fragment taken, also where
fragment 0 comes last, is the model's choice between two rules, log 32.) -/
def Obligations.CompletionEndsOthers : Prop :=
  ∀ (s : State) (source : Source) (sender : Word32) (record : List Byte) (f : Fragment) (i slot n : Nat)
    (rest : List Nat), s.Meets source sender record → parseFragment record = some f → s.Completes f i slot rest →
    (s.entry i).checkWith f = some (checkCode (s.bodyWith f i)) → scan (s.bodyWith f i) 0 = .length n →
    let live := 0 < (s.entry i).lifeWith f s.tb.alertClock
    let kind := (s.entry i).kindWith f
    ∃ t, exec (arrival source sender record) s = .next t
      ∧ (∀ j, j ≠ i → (s.entry j).ofKey f.issue.key = true → t.entry j = Entry.freed (s.entry j).generation)
      ∧ (∀ j, j ≠ i → (s.entry j).ofKey f.issue.key = false → (t.entry j).soundsLike (s.entry j))
      ∧ ∀ j, j ≠ i → (s.entry j).ofKey f.issue.key = true →
          (∀ k, k ≠ i → (s.entry k).ofKey f.issue.key = true → k = j) →
          let e := s.entry j
          let noticed := e.isHeld = true ∨ (kind = .cancel ∧ e.state = .closed ∧ e.closureReason = some .acknowledged
            ∧ e.heldWhenAcknowledged = true)
          let ended := s.ru.deferred.filter fun d => some d.issue != e.issue
          let succeeds := kind ≠ .cancel
            ∧ (live ∨ (s.findTally f.issue = none ∧ ∀ d ∈ s.ru.deferred, d.issue ≠ f.issue))
          (noticed → s.pu.notices.length < 16 →
            t.pu.notices = s.pu.notices ++ [if kind = .cancel then ⟨.cancelled, s.handle j, none⟩
              else if live then ⟨.superseded, s.handle j, some i⟩ else ⟨.expired, s.handle j, none⟩]
            ∧ t.flags = s.flags)
          ∧ (noticed → 16 ≤ s.pu.notices.length →
              t.pu.notices = s.pu.notices ∧ t.flags = { s.flags with noticeLost := true })
          ∧ (¬ noticed → t.pu.notices = s.pu.notices ∧ t.flags = s.flags)
          ∧ (kind ≠ .cancel → (t.entry i).replaces = (if e.isHeld = true then some (s.handle j) else e.replaces)
            ∧ (t.entry i).followsAcknowledged
              = ((e.closureReason == some .acknowledged && e.state == .closed) || e.followsAcknowledged))
          ∧ ∀ old, e.issue = some old →
            (succeeds → s.findTally old = none → t.ru = { s.ru with deferred := ended })
            ∧ ∀ k y, s.findTally old = some k → s.tally k = some y →
              (succeeds → y.state ≠ .settled → t.tally k = some { y with superseded := true })
              ∧ (succeeds → y.state = .settled → ended = [] → t.ru = { s.ru with
                  deferred := [], tallies := s.ru.tallies.set k none
                  uplinkQueue := s.ru.uplinkQueue.filter fun m => m != k })
              ∧ (succeeds → y.state = .settled → ended = s.ru.deferred → ended ≠ [] →
                  (∀ d ∈ ended, d.precedence ≤ 7) → ∃ n d, s.served t n k d)
              ∧ (kind = .cancel → ended = [] → s.findTally f.issue = none →
                  (y.state = .uplinking → t.tally k = some { y with ended := true })
                  ∧ (y.state ≠ .uplinking → t.tally k = none))

/-- A body release empties the map, ends the offer record, gives the slots back to the tail of the free list in
ascending order of position, and takes every PIECE of the issuance out of the bulk queue, the one in flight being
marked withdrawn; a release of an empty map changes nothing.  Under store pressure the first candidate of the four steps
is acted on, each ordered by its times and then by index: the body of a CLOSED entry that is no tombstone, of an OUTSIDE
entry, or of a tombstone is released, or an ASSEMBLING entry of another key and lower precedence, with the fewest
positions filled, is freed; and the fragment is then taken with a slot so won. -/
def Obligations.BodyReleaseReturnsSlots : Prop :=
  ∀ (s : State) (i : Nat),
    ((s.entry i).slots = [] → s.releaseBody i = s)
    ∧ (∀ issue, (s.entry i).slots ≠ [] → (s.entry i).issue = some issue → i < s.table.length → s.ArbiterRests →
        let t := s.releaseBody i
        t.entry i = { s.entry i with map := emptyMap, offer := none } ∧ t.free = s.free ++ (s.entry i).slots
        ∧ (∀ j, j ≠ i → t.entry j = s.entry j) ∧ t.store = s.store ∧ s.onlyChanges [.tb, .table, .free, .cs] t
        ∧ (∀ p ∈ t.cs.bulk, p.isPieceOf issue none = false)
        ∧ (∀ f, s.cs.inFlight = some f → t.cs.inFlight
            = some { f with withdrawn := f.withdrawn || f.payload.isPieceOf issue none })
        ∧ ((∀ p ∈ s.cs.bulk, p.isPieceOf issue none = false) → s.cs.inFlight = none → t.cs = s.cs))
    ∧ (∀ key category step, s.pressed key category step i →
        s.makeRoom key category = some (if step = 4 then s.freeEntry i false else s.releaseBody i)
        ∧ (s.freeEntry i false).free = s.free ++ (s.entry i).slots
        ∧ (s.freeEntry i false).entry i = Entry.freed (s.entry i).generation)
    ∧ ∀ record f step, s.ModemIdle → 17 ≤ record.length → record.length ≤ 105 → parseFragment record = some f →
        s.Takes f → s.free = [] → s.pressed f.issue.key f.category step i →
        exec (.fragment record) s
          = exec (.fragment record) (if step = 4 then s.freeEntry i false else s.releaseBody i)

/-! ### The application link -/

/-- A request that ends through start-up is answered NOT_READY with its kind and sequence, and changes nothing else;
from then on a bad one is answered BAD_REQUEST with the kind and sequence as received, likewise.  A gap ends a request
cut short as a bad one, and ends HUNTING with no answer (that the gap's end is 6 ms after the last byte is the model's
choice, log 21).  What is sent while the request is worked on is held (log 8).  A request with a parameter out of its
range is answered BAD_REQUEST, and one whose handle does not fit its entry STALE; neither changes anything else.  (That a
request received whole with no sequence byte is answered under the sequence 0 is the model's choice, log 40.) -/
def Obligations.RefusedRequestsAnswered : Prop :=
  (∀ (s : State) (during : List HostInput), s.al.held = none → (s.al.buffer = .empty ∨ ∃ r, s.al.buffer = .ready r) →
    let result : Result := if s.started then .badRequest else .notReady
    let reply (bytes : List Byte) := responseRecord (requestKind bytes) (requestSeq bytes) result []
    (∀ c kind seq params, hostRequest c = some (kind, seq :: params, during) → s.al.framer = .idle →
        s.started = false → exec c s = .next (s.answered s.now during (responseRecord kind seq .notReady [])))
    ∧ (∀ bytes, s.al.framer = .idle → (Instr.badRequestRecord bytes during).wf = true →
        exec (.badRequestRecord bytes during) s = .next (s.answeredFrom
          (if lengthField bytes = 0 ∨ 7 < lengthField bytes then .hunting else .idle) s.now during (reply bytes)))
    ∧ (∀ bytes, s.al.framer = .idle → bytes ≠ [] → (Instr.appGapTimeout bytes during).wf = true → s.now + 6 ≤ lastMs →
        exec (.appGapTimeout bytes during) s
          = .next ((s.runTo (s.now + 6)).answered s.now during (reply bytes)))
    ∧ (s.al.lastByte + 6 ≤ lastMs →
        (∀ bytes, s.al.framer = .receiving bytes → endsNothing requestMost bytes = true → exec (.appGapTimeout [] during) s
          = .next ((s.runTo (s.al.lastByte + 6)).answered s.al.lastByte during (reply bytes)))
        ∧ (s.al.framer = .hunting →
          let idle := (s.runTo (s.al.lastByte + 6)).withAl { s.al with framer := .idle }
          exec (.appGapTimeout [] []) s = .next idle
          ∧ (∀ bytes rest, exec (.appGapTimeout [] (.bytes bytes :: rest)) s = exec (.badRequestRecord bytes rest) idle)
          ∧ ∀ rest, exec (.appGapTimeout [] (.gap :: rest)) s = exec (.appGapTimeout [] rest) s)))
  ∧ (∀ (s : State) (seq index generation length : Byte) (offset : Word16) (during : List HostInput), s.HostIdle →
    let e := s.entry index.toNat
    let refused (kind : Byte) (r : Result) := s.answered s.now during (responseRecord kind seq r [])
    let stale := e.generation ≠ generation ∨ (e.state ≠ .claimed ∧ e.state ≠ .shown)
    let unclaimed := e.generation ≠ generation ∨ e.state ≠ .claimed
    (31 < index.toNat →
        exec (.complete seq index generation during) s = .next (refused 0x23 .badRequest)
        ∧ exec (.release seq index generation during) s = .next (refused 0x24 .badRequest)
        ∧ exec (.ack seq index generation during) s = .next (refused 0x25 .badRequest))
    ∧ (31 < index.toNat ∨ length.toNat = 0 ∨ 240 < length.toNat →
        exec (.read seq index generation offset length during) s = .next (refused 0x22 .badRequest))
    ∧ (6 < index.toNat → exec (.setThreshold seq index during) s = .next (refused 0x29 .badRequest))
    ∧ (index.toNat ≤ 31 →
        (unclaimed → exec (.complete seq index generation during) s = .next (refused 0x23 .stale)
          ∧ exec (.release seq index generation during) s = .next (refused 0x24 .stale))
        ∧ (stale → exec (.ack seq index generation during) s = .next (refused 0x25 .stale)
          ∧ (1 ≤ length.toNat → length.toNat ≤ 240 →
              exec (.read seq index generation offset length during) s = .next (refused 0x22 .stale)))))

/-- While a request is worked on, what the host sends goes through the framer, and a request that ends is held,
unjudged, the latest replacing any held before.  HELD_REQUEST answers the one worked on, and the buffer then holds its
response, or is WORKING at once for the held one: for a request that ended in start-up the result is NOT_READY, for a
bad one BAD_REQUEST, and otherwise the Presentation Unit's.  A read transfer returns the response that is
there to be read, whole, and the length 0x0000 alone where none is.  (That a request received whole with no sequence byte is
answered under the sequence 0 is the model's choice, log 40.) -/
def Obligations.HeldRequestWaitsItsTurn : Prop :=
  (∀ s : State, (∀ response, s.al.buffer = .ready response → s.al.readTransfer = response)
    ∧ (s.al.buffer = .empty ∨ (∃ q, s.al.buffer = .working q) → s.al.readTransfer = [0, 0]))
  ∧ ∀ (s : State) (q : EndedRequest), s.al.buffer = .working q →
    (∀ c inputs, hostInputs c = some inputs → exec c s = .next (s.meanwhile inputs))
    ∧ (∀ c kind body, hostRequest c = some (kind, body, []) → s.al.framer = .idle →
        exec c s = .next (s.withAl
          { s.al with lastByte := s.now, held := some ⟨linkRecord kind body, !s.started⟩ }))
    ∧ let placed (response : List Byte) : AppLink := (match s.al.held with
        | some next => { s.al with buffer := .working next, held := none }
        | none => { s.al with buffer := .ready response })
      let reply := responseRecord (requestKind q.bytes) (requestSeq q.bytes)
      (q.early = true → exec .heldRequest s = .next (s.withAl (placed (reply .notReady []))))
      ∧ (q.early = false → judgeRequest q.bytes = none →
          exec .heldRequest s = .next (s.withAl (placed (reply .badRequest []))))
      ∧ (∀ r, q.early = false → judgeRequest q.bytes = some r → exec .heldRequest s
          = .next ((s.judge r).state.withAl (placed (reply (s.judge r).result (s.judge r).answer))))

/-- CLAIM: FULL when all claim slots are occupied, NONE when no entry is claimable; else the first claimable entry in
the pending order goes to CLAIMED in the lowest empty claim slot, and the answer gives its handle, issuance, category,
precedence, length, flags and the handle it replaces.  The attention is not disturbed. -/
def Obligations.ClaimHandsOutFirst : Prop :=
  ∀ (s : State) (seq : Byte) (during : List HostInput), s.HostIdle →
    ((∀ k ∈ s.pu.slots, k.isSome = true) → exec (.claim seq during) s
        = .next (s.answered s.now during (responseRecord 0x21 seq .full [])))
    ∧ (none ∈ s.pu.slots → (∀ e ∈ s.table, e.claimable s.pu.threshold = false) → exec (.claim seq during) s
        = .next (s.answered s.now during (responseRecord 0x21 seq .none [])))
    ∧ ∀ (i k : Nat) (issue : Issue) (category : Category) (precedence : Nat), s.OwnerLaw →
        (∀ e ∈ s.table, e.precedence.getD 0 ≤ 7) → i < s.table.length → (s.entry i).claimable s.pu.threshold = true →
        (∀ j, j ≠ i → (s.entry j).claimable s.pu.threshold = true → s.before i j) →
        s.pu.slots[k]? = some none → (∀ j, j < k → s.pu.slots[j]? ≠ some none) →
        (s.entry i).issue = some issue → (s.entry i).category = some category →
        (s.entry i).precedence = some precedence →
        let e := s.entry i
        let flags := (if e.heardRelay = true ∧ e.heardBroadcast = false then 1 else 0)
          + (if e.verdict = .unresolved then 2 else 0) + (if e.followsAcknowledged then 4 else 0)
          + (if e.replaces.isSome then 8 else 0)
        exec (.claim seq during) s = .next
          (((s.withPu { s.pu with slots := s.pu.slots.set k (some ⟨i, e.generation⟩) }).setEntry i
              { e with state := .claimed, claimSlot := some k }).answered s.now during
            (responseRecord 0x21 seq .ok ([byte i, e.generation] ++ issue.bytes ++ [byte category.code, byte precedence]
              ++ num16 (e.expandedLength.getD 0) ++ [byte flags]
              ++ (match e.replaces with
                | some h => [byte h.index, h.generation]
                | none => [0, 0]))))

/-- READ changes no state but the response: it answers the bytes of the expanded body from the offset, as many as
asked for and there are, after their count; an offset at or above the expanded length gives RANGE.  The encoding scan
and the expansion agree: a byte other than 0x1B stands for itself, 0x1B with a count 1..255 and a byte for that many
copies; a run cut short or of count 0, wherever the scan comes to it, is an error, and the scan stops past 2,048; what goes
before is read as it stands alone.  The length the scan reports is the length of the expanded body. -/
def Obligations.ReadAnswersBody : Prop :=
  (∀ (s : State) (seq index length : Byte) (offset : Word16) (during : List HostInput), s.HostIdle →
    index.toNat < 32 → 1 ≤ length.toNat → length.toNat ≤ 240 →
    (s.entry index.toNat).state = .claimed ∨ (s.entry index.toNat).state = .shown →
    let e := s.entry index.toNat
    let expanded := e.expandedLength.getD 0
    let count := min length.toNat (expanded - offset.toNat)
    (offset.toNat < expanded → exec (.read seq index e.generation offset length during) s
      = .next (s.answered s.now during (responseRecord 0x22 seq .ok
          (byte count :: ((expand (s.packed e)).drop offset.toNat).take count))))
    ∧ (expanded ≤ offset.toNat → exec (.read seq index e.generation offset length during) s
      = .next (s.answered s.now during (responseRecord 0x22 seq .range []))))
  ∧ ((∀ b rest, b ≠ 0x1B#8 → expand (b :: rest) = b :: expand rest)
    ∧ (∀ (c b : Byte) rest, expand (0x1B#8 :: c :: b :: rest) = List.replicate c.toNat b ++ expand rest)
    ∧ expand [] = []
    ∧ (∀ n, scan [] n = .length n)
    ∧ (∀ b rest n, b ≠ 0x1B#8 → scan (b :: rest) n = if 2048 < n + 1 then .tooLong else scan rest (n + 1))
    ∧ (∀ (c b : Byte) rest n, c ≠ 0 → scan (0x1B#8 :: c :: b :: rest) n
        = if 2048 < n + c.toNat then .tooLong else scan rest (n + c.toNat))
    ∧ (∀ b rest n, scan (0x1B#8 :: 0 :: b :: rest) n = .error)
    ∧ (∀ n, scan [0x1B#8] n = .error ∧ ∀ c, scan [0x1B#8, c] n = .error)
    ∧ (∀ good rest n, scan good 0 = .length n → scan (good ++ rest) 0 = scan rest n
        ∧ expand (good ++ rest) = expand good ++ expand rest)
    ∧ scan [0x1B#8] 0 = .error ∧ (∀ c, scan [0x1B#8, c] 0 = .error) ∧ (∀ b rest, scan (0x1B#8 :: 0 :: b :: rest) 0 = .error)
    ∧ (∀ body n, scan body 0 = .length n → (expand body).length = n ∧ n ≤ 2048)
    ∧ ∀ body, scan body 0 = .tooLong → 2048 < (expand body).length)

/-- COMPLETE takes a CLAIMED entry to SHOWN and RELEASE takes one back to PENDING, either emptying its claim slot;
precedence, stamp and verdict stay, and the attention is not disturbed, but by a RELEASE at or below the threshold,
after which the entry is not the owner. -/
def Obligations.CompleteAndReleaseEndClaim : Prop :=
  ∀ (s : State) (seq index : Byte) (during : List HostInput) (k : Nat), s.HostIdle → s.OwnerLaw → index.toNat < 32 →
    index.toNat < s.table.length → (s.entry index.toNat).state = .claimed → (s.entry index.toNat).claimSlot = some k →
    let e := s.entry index.toNat
    let unslotted := s.withPu { s.pu with slots := s.pu.slots.set k none }
    exec (.complete seq index e.generation during) s
      = .next ((unslotted.setEntry index.toNat { e with state := .shown, claimSlot := none }).answered s.now during
          (responseRecord 0x23 seq .ok []))
    ∧ (s.pu.threshold < e.precedence.getD 0 → exec (.release seq index e.generation during) s
      = .next ((unslotted.setEntry index.toNat { e with state := .pending, claimSlot := none }).answered s.now during
          (responseRecord 0x24 seq .ok [])))
    ∧ (e.precedence.getD 0 ≤ s.pu.threshold → ∃ t, exec (.release seq index e.generation during) s = .next t
        ∧ t.entry index.toNat = { e with state := .pending, claimSlot := none } ∧ t.pu = unslotted.pu
        ∧ (let u := s.answered s.now during (responseRecord 0x24 seq .ok [])
          t.al = u.al ∧ t.tb = u.tb) ∧ s.onlyChanges [.tb, .table, .pu, .au, .al] t
        ∧ (∀ j, j ≠ index.toNat → (t.entry j).soundsLike (s.entry j))
        ∧ ∀ o, t.au.owner = some o → o.index ≠ index.toNat)

/-- ACK closes a CLAIMED or SHOWN entry as ACKNOWLEDGED, held when acknowledged, its claim slot emptied, its body and
offer record kept; no notice is posted, and RU takes the acknowledgement event.  A tally at ACK already is left alone; in
another the own tag joins receipt and acknowledged set and the own level is ACK, a SETTLED one begins a new round with
failure count 0, and a CONTRIBUTING one asks for a fresh TALLY.  After a redraw the new station tag becomes the own tag
first, where the set has room; that one which a peer's use had put there keeps its covered level is the model's reading
(log 14).  An issuance with no tally takes a free one, lowest first, else the SETTLED one with the oldest settle time; with
neither it is put on the deferred list, or where it is on it already its item's level becomes ACK. -/
def Obligations.AckClosesEntry : Prop :=
  ∀ (s : State) (seq index : Byte) (during : List HostInput) (issue : Issue), s.HostIdle → index.toNat < 32 →
    index.toNat < s.table.length →
    (s.entry index.toNat).state = .claimed ∨ (s.entry index.toNat).state = .shown →
    (s.entry index.toNat).issue = some issue →
    let e := s.entry index.toNat
    ∃ t, exec (.ack seq index e.generation during) s = .next t
      ∧ t.entry index.toNat = { e with
          state := .closed, closureReason := some .acknowledged, closureTime := some s.uptime, want := none
          assemblyTimer := none, heldWhenAcknowledged := true, precedence := none, stamp := none, claimSlot := none
          sounded := false }
      ∧ (∀ j, j ≠ index.toNat → (t.entry j).soundsLike (s.entry j))
      ∧ (∀ k, e.claimSlot = some k → t.pu = { s.pu with slots := s.pu.slots.set k none })
      ∧ (e.claimSlot = none → t.pu = s.pu) ∧ t.ar.cell = s.ar.cell
      ∧ (let u := s.answered s.now during (responseRecord 0x25 seq .ok [])
        t.al = u.al ∧ t.now = u.now)
      ∧ s.ackTaken t issue (e.precedence.getD 0)

/-- FETCH_NOTICE answers EMPTY for an empty queue, and else takes the oldest notice and answers with it.  STATUS
answers the fault flags, the counters, port state, tag, location, clock, threshold and opt-out set, and clears the
flags; it changes no other state.  The alert request line is asserted, once
start-up is over, while an entry is PENDING above the threshold or a notice waits. -/
def Obligations.NoticesAndStatusRead : Prop :=
  (∀ s : State, s.alertRequestLine = true ↔ s.started = true
    ∧ ((∃ e ∈ s.table, e.state = .pending ∧ s.pu.threshold < e.precedence.getD 0) ∨ s.pu.notices ≠ []))
  ∧ ∀ (s : State) (seq : Byte) (during : List HostInput), s.HostIdle →
    (s.pu.notices = [] → exec (.fetchNotice seq during) s
      = .next (s.answered s.now during (responseRecord 0x26 seq .empty [])))
    ∧ (∀ n rest, s.pu.notices = n :: rest → exec (.fetchNotice seq during) s
      = .next ((s.withPu { s.pu with notices := rest }).answered s.now during
          (responseRecord 0x26 seq .ok [byte n.kind.code, byte n.handle.index, n.handle.generation,
            byte (n.successor.getD 0)])))
    ∧ exec (.status seq during) s
      = .next ((s.withFlags FaultFlags.clear).answered s.now during (responseRecord 0x27 seq .ok
          (num16 s.flags.word ++ s.counters.inOrder.flatMap num16 ++ [byte s.cs.port.code] ++ bytes32 s.cs.tag
            ++ bytes32 s.ar.cell ++ [byte s.ar.service.code, byte s.ar.quality,
              byte (if s.tb.alertClock.isSome then 1 else 0), byte s.pu.threshold, s.pu.optout])))
    ∧ ∀ f : FaultFlags, [f.configDefaulted, f.configCrc, f.queryTimeout, f.uplinkTimeout, f.radioFault, f.tagClash,
          f.noticeLost, f.storeFull, f.tableFull] = (List.range 9).map f.word.testBit ∧ f.word < 512

/-- SET_THRESHOLD replaces the threshold; SET_OPTOUT replaces the opt-out set by the mask less NATIONAL, answers with
it, and closes each PENDING entry of its categories as WITHHELD, body and offer record kept; RESTART takes every
CLAIMED entry back to PENDING, empties the claim slots and discards the notices.  No entry changes otherwise, but in
its sounded flag.  (That a SET_OPTOUT of the set already held closes an entry returned to PENDING since is the model's
choice, log 35.) -/
def Obligations.HostSettingsAndRestart : Prop :=
  ∀ (s : State) (seq mask : Byte) (during : List HostInput), s.HostIdle →
    let linkIs (t : State) (kind : Byte) (answer : List Byte) :=
      let u := s.answered s.now during (responseRecord kind seq .ok answer)
      t.al = u.al ∧ t.tb = u.tb
    (mask.toNat ≤ 6 → ∃ t, exec (.setThreshold seq mask during) s = .next t
      ∧ t.pu = { s.pu with threshold := mask.toNat } ∧ linkIs t 0x29 [] ∧ s.onlyChanges [.tb, .table, .pu, .au, .al] t
      ∧ ∀ i, (t.entry i).soundsLike (s.entry i))
    ∧ (∃ t, exec (.setOptout seq mask during) s = .next t ∧ t.pu.optout = mask &&& 0xFE#8
      ∧ t.pu.threshold = s.pu.threshold ∧ t.pu.notices = s.pu.notices ∧ linkIs t 0x2A [mask &&& 0xFE#8]
      ∧ s.onlyChanges [.tb, .table, .pu, .au, .al, .ar] t
      ∧ ∀ i, (∀ c, (s.entry i).state = .pending → (s.entry i).category = some c →
            (mask &&& 0xFE#8).getLsbD c.code = true →
            t.entry i = { s.entry i with
              state := .closed, closureReason := some .withheld, closureTime := some s.uptime, want := none
              assemblyTimer := none, precedence := none, stamp := none, claimSlot := none, sounded := false })
          ∧ ((s.entry i).state ≠ .pending ∨ (∀ c, (s.entry i).category = some c →
              (mask &&& 0xFE#8).getLsbD c.code = false) → (t.entry i).soundsLike (s.entry i)))
    ∧ ∃ t, exec (.restart seq during) s = .next t
      ∧ t.pu = { s.pu with slots := List.replicate 4 none, notices := [] } ∧ linkIs t 0x28 []
      ∧ s.onlyChanges [.tb, .table, .pu, .au, .al] t
      ∧ ∀ i, ((s.entry i).state = .claimed →
            (t.entry i).soundsLike { s.entry i with state := .pending, claimSlot := none })
          ∧ ((s.entry i).state ≠ .claimed → (t.entry i).soundsLike (s.entry i))

/-! ### The radio port -/

/-- READY rises: at the end of start-up or later a DOWN port goes UP, every offer record is reset, for every ASSEMBLING
entry a WANT of its missing indexes is asked for and its gap-fill timer restarts (that they ask in order of index is the
model's choice, log 12), and where none has anything to ask or offer the channel stays quiet; through
start-up, and in FAULTED, only the line changes.  READY falls with the port UP or FAULTED: the port goes DOWN, a frame
in flight is counted lost and starts the late-answer guard, contender, queues and echo list go, CW returns to CWmin
and both runs to 0, tag and mark are kept, and the answer that comes for the frame later is ignored.  In DOWN only the
line changes.  (That a BUSY line that is high as the port goes DOWN keeps its level is the model's choice, log 37.) -/
def Obligations.ReadyLineMovesPort : Prop :=
  (∀ s : State,
    (s.started = false ∨ s.cs.port ≠ .down → exec .readyRise s = .next (s.withCs { s.cs with ready := true }))
    ∧ (s.started = true → s.cs.port = .down → s.PortLaw → 1 ≤ s.settings.offerMin →
      ((∀ e ∈ s.table, e.state ≠ .assembling ∧ e.offer = none) →
          exec .readyRise s = .next (s.withCs { s.cs with ready := true, port := .up }))
      ∧ ∃ t, exec .readyRise s = .next t ∧ t.cs.port = .up ∧ t.cs.ready = true
        ∧ s.onlyChanges [.tb, .table, .cs, .counters] t
        ∧ (let wants := (List.range s.table.length).filterMap fun i =>
            if (s.entry i).state = .assembling then
              (s.entry i).issue.map fun k => Payload.want k (s.entry i).missing
            else none
          let up := s.withCs { s.cs with ready := true, port := .up }
          ∃ u, up.onlyChanges [.tb, .table] u ∧ u.now = s.now
            ∧ t.cs = (wants.foldl (fun v p => v.request p) u).cs
            ∧ t.counters = (wants.foldl (fun v p => v.request p) u).counters)
        ∧ ∀ i, (∀ r, (s.entry i).offer = some r → ∃ q, (t.entry i).offer = some q
              ∧ q.interval = s.settings.offerMin ∧ q.start = s.now ∧ q.interval * 500 ≤ q.point
              ∧ q.point < q.interval * 1000 ∧ q.pointPassed = false ∧ q.heard = 0)
            ∧ ((s.entry i).offer = none → (t.entry i).offer = none)
            ∧ (t.entry i).want = (if (s.entry i).state = .assembling then
                (s.entry i).want.map fun w => { w with gapEnd := s.now + s.settings.gapFillDelay * 1000 }
              else (s.entry i).want)
            ∧ (t.entry i).state = (s.entry i).state ∧ (t.entry i).map = (s.entry i).map))
  ∧ (∀ s : State,
    let fallen (counters : Counters) (guard : Option Nat) := (s.withCounters counters).withCs
      { s.cs with
        ready := false, port := .down, contender := none, inFlight := none, control := [], bulk := [], echo := []
        cw := s.settings.cwMin, controlRun := 0, timeoutRun := 0, guardEnd := guard }
    (s.cs.port = .down → exec .readyFall s = .next (s.withCs { s.cs with ready := false }))
    ∧ (s.cs.port ≠ .down → s.cs.inFlight = none → exec .readyFall s = .next (fallen s.counters s.cs.guardEnd))
    ∧ (s.cs.port ≠ .down → ∀ f, s.cs.inFlight = some f →
        exec .readyFall s = .next (fallen { s.counters with framesLost := bump s.counters.framesLost }
          (some (s.now + s.settings.portTimeout)))
        ∧ ∀ t, exec .readyFall s = .next t → exec .sent t = .next t ∧ exec .lost t = .next t))

/-- A BUSY rise stops the slot being counted; a fall begins a fresh slot for a contender whose count is not 0, and
hands over one whose count is 0 unless the late-answer guard runs; with no contender the line alone changes.  A whole
slot ends: the count goes down by one.  At 0, with BUSY low and the guard not running, the frame is handed over; above
0 a fresh slot begins; where BUSY rises at that moment, after the slot's end, the contender waits.  The late-answer
guard ends: a contender that waits at 0 with BUSY low is handed over, and nothing else changes.  (That the level of the
line is followed in every state of the port is the model's choice, log 37; that a fall of a line that is low changes nothing
is its reading, log 17.) -/
def Obligations.BackoffRuns : Prop :=
  (∀ s : State, s.cs.echo.length ≤ 4 →
    exec .busyRise s = .next (s.withCs
      { s.cs with busy := true, contender := s.cs.contender.map fun k => { k with slotEnd := none } })
    ∧ (s.cs.busy = false → exec .busyFall s = .next s)
    ∧ (s.cs.busy = true →
      let quiet := s.withCs { s.cs with busy := false }
      (s.cs.contender = none → exec .busyFall s = .next quiet)
      ∧ ∀ k, s.cs.contender = some k →
        (k.count ≠ 0 → exec .busyFall s = .next (quiet.withCs { quiet.cs with
          contender := some ⟨k.queue, k.count, some (s.now + s.settings.slotTime)⟩ }))
        ∧ (k.count = 0 → s.cs.guardEnd ≠ none → exec .busyFall s = .next (quiet.withCs { quiet.cs with
          contender := some ⟨k.queue, 0, none⟩ }))
        ∧ ∀ p rest, k.count = 0 → s.cs.guardEnd = none → s.cs.port = .up → s.cs.inFlight = none →
          s.cs.waiting k.queue = p :: rest → exec .busyFall s = .next (quiet.handedOver k.queue p rest)))
  ∧ (∀ (s : State) (k : Contender) (tEnd : Nat), s.cs.contender = some k → k.slotEnd = some tEnd → tEnd ≤ lastMs →
    s.cs.echo.length ≤ 4 → s.cs.busy = false →
    let at' := s.runTo tEnd
    let left := k.count - 1
    exec (.backoffSlotEnd true) s
      = .next (at'.withCs { s.cs with busy := true, contender := some ⟨k.queue, left, none⟩ })
    ∧ (left ≠ 0 → exec (.backoffSlotEnd false) s = .next (at'.withCs
        { s.cs with contender := some ⟨k.queue, left, some (at'.now + s.settings.slotTime)⟩ }))
    ∧ (left = 0 → s.cs.guardEnd ≠ none → exec (.backoffSlotEnd false) s = .next (at'.withCs
        { s.cs with contender := some ⟨k.queue, 0, none⟩ }))
    ∧ ∀ p rest, left = 0 → s.cs.guardEnd = none → s.cs.port = .up → s.cs.inFlight = none →
        s.cs.waiting k.queue = p :: rest → exec (.backoffSlotEnd false) s = .next (at'.handedOver k.queue p rest))
  ∧ (∀ (s : State) (tEnd : Nat), s.cs.guardEnd = some tEnd → tEnd ≤ lastMs → s.cs.echo.length ≤ 4 →
    let after := (s.runTo tEnd).withCs { s.cs with guardEnd := none }
    (s.cs.contender = none ∨ s.cs.busy = true ∨ (∃ k, s.cs.contender = some k ∧ k.count ≠ 0) →
      exec .lateAnswerGuardEnd s = .next after)
    ∧ ∀ k p rest, s.cs.contender = some k → k.count = 0 → s.cs.busy = false → s.cs.port = .up → s.cs.inFlight = none →
      s.cs.waiting k.queue = p :: rest → exec .lateAnswerGuardEnd s = .next (after.handedOver k.queue p rest))

/-- SENT for the frame in flight: FRAMES_SENT advances by one, the timeout run returns to 0 and CW to CWmin, an
ASSEMBLING entry whose WANT it was notes the time and restarts its gap-fill timer, and the arbiter chooses the next
contender.  An answer to no frame, or while the late-answer guard runs, changes nothing. -/
def Obligations.SentEndsFrame : Prop :=
  ∀ s : State,
    (s.cs.inFlight = none ∨ s.cs.guardEnd ≠ none → exec .sent s = .next s ∧ exec .lost s = .next s)
    ∧ ∀ f, s.cs.inFlight = some f → s.cs.guardEnd = none → s.cs.contender = none → 1 ≤ s.settings.cwMin →
      ∃ t, exec .sent s = .next t ∧ t.counters = { s.counters with framesSent := bump s.counters.framesSent }
        ∧ t.cs.timeoutRun = 0 ∧ t.cs.cw = s.settings.cwMin ∧ t.cs.port = s.cs.port ∧ t.cs.tag = s.cs.tag
        ∧ t.cs.guardEnd = none ∧ s.onlyChanges [.tb, .table, .cs, .counters] t
        ∧ (s.cs.control = [] → s.cs.bulk = [] → t.cs.inFlight = none ∧ t.cs.contender = none)
        ∧ (∀ p, s.cs.port = .up → s.cs.controlRun = 4 → s.cs.bulk.head? = some p → t.contends .bulk p)
        ∧ (∀ p, s.cs.port = .up → (s.cs.controlRun ≠ 4 ∨ s.cs.bulk = []) → s.cs.control.head? = some p →
            t.contends .control p)
        ∧ (∀ p, s.cs.port = .up → s.cs.control = [] → s.cs.bulk.head? = some p → t.contends .bulk p)
        ∧ (f.payload.kind ≠ .want → t.table = s.table)
        ∧ ∀ issue wanted i, f.payload = .want issue wanted →
            s.findEntry (fun e => e.state == .assembling && e.ofIssue issue) = some i →
            t.table = s.table.set i { s.entry i with want := (s.entry i).want.map fun _ =>
              ⟨s.now + s.settings.gapFillDelay * 1000, some s.now⟩ }

/-- LOST for the frame in flight: FRAMES_LOST advances by one, CW doubles up to CWmax, the timeout run returns to 0.
A withdrawn frame is discarded, and the arbiter chooses; another goes back to the head of its queue, merged with a waiting
frame of its identity, and is the contender. -/
def Obligations.LostFrameComesBack : Prop :=
  ∀ (s : State) (f : InFlight), s.cs.inFlight = some f → s.cs.guardEnd = none → s.cs.contender = none →
    s.cs.port = .up → 1 ≤ min (2 * s.cs.cw) s.settings.cwMax →
    let queue := s.cs.waiting f.payload.queue
    ∃ t, exec .lost s = .next t ∧ t.counters = { s.counters with framesLost := bump s.counters.framesLost }
      ∧ t.cs.timeoutRun = 0 ∧ t.cs.cw = min (2 * s.cs.cw) s.settings.cwMax ∧ t.cs.port = .up
      ∧ s.onlyChanges [.tb, .cs, .counters] t
      ∧ (f.withdrawn = false → (∀ w ∈ queue, f.payload.sameIdentity w = false) →
          t.contends f.payload.queue f.payload)
      ∧ (f.withdrawn = false → ∀ w, w ∈ queue → f.payload.sameIdentity w = true →
          (∀ v ∈ queue, f.payload.sameIdentity v = true → v = w) →
          (f.payload.kind ≠ .want → t.contends f.payload.queue w)
          ∧ ∀ issue m n, f.payload = .want issue m → w = .want issue n → t.contends .control (.want issue (m ||| n)))
      ∧ (f.withdrawn = true → s.cs.control = [] → s.cs.bulk = [] → t.cs.inFlight = none ∧ t.cs.contender = none)
      ∧ (f.withdrawn = true → ∀ p, s.cs.control = [] → s.cs.bulk.head? = some p → t.contends .bulk p)
      ∧ (f.withdrawn = true → ∀ p, s.cs.controlRun = 4 → s.cs.bulk.head? = some p → t.contends .bulk p)
      ∧ (f.withdrawn = true → ∀ p, (s.cs.controlRun ≠ 4 ∨ s.cs.bulk = []) → s.cs.control.head? = some p →
          t.contends .control p)

/-- The port timer of the frame in flight runs out: RADIO_FAULT is set, the frame counts as lost, CW doubles, the
timeout run advances and the late-answer guard runs.  The frame goes back to the head of its queue, merged with a waiting
frame of its identity; a withdrawn one is discarded.  Short of three in a row the frame put back is the contender, or after
a discarded one that which the arbiter chooses; the third takes the port to FAULTED, with no contender. -/
def Obligations.PortTimeoutCountsLost : Prop :=
  ∀ (s : State) (f : InFlight), s.cs.inFlight = some f → s.cs.contender = none → s.cs.port = .up →
    f.timerEnd ≤ lastMs → s.cs.timeoutRun ≤ 2 → 1 ≤ min (2 * s.cs.cw) s.settings.cwMax →
    let at' := s.runTo f.timerEnd
    let queue := s.cs.waiting f.payload.queue
    let others := queue.filter fun v => !f.payload.sameIdentity v
    ∃ t, exec .portTimeout s = .next t ∧ t.flags = { s.flags with radioFault := true } ∧ t.now = at'.now
      ∧ t.counters = { s.counters with framesLost := bump s.counters.framesLost }
      ∧ t.cs.timeoutRun = s.cs.timeoutRun + 1 ∧ t.cs.cw = min (2 * s.cs.cw) s.settings.cwMax
      ∧ t.cs.guardEnd = some (at'.now + s.settings.portTimeout) ∧ t.cs.inFlight = none
      ∧ s.onlyChanges [.tb, .cs, .flags, .counters] t
      ∧ (f.withdrawn = true → t.cs.control = s.cs.control ∧ t.cs.bulk = s.cs.bulk)
      ∧ (f.withdrawn = false → (∀ w ∈ queue, f.payload.sameIdentity w = false) →
          t.cs.waiting f.payload.queue = f.payload :: queue)
      ∧ (f.withdrawn = false → ∀ w, w ∈ queue → f.payload.sameIdentity w = true →
          (∀ v ∈ queue, f.payload.sameIdentity v = true → v = w) →
          (f.payload.kind ≠ .want → t.cs.waiting f.payload.queue = w :: others)
          ∧ ∀ issue m n, f.payload = .want issue m → w = .want issue n →
            t.cs.waiting f.payload.queue = .want issue (m ||| n) :: others)
      ∧ (s.cs.timeoutRun = 2 → t.cs.port = .faulted ∧ t.cs.contender = none)
      ∧ (s.cs.timeoutRun < 2 → t.cs.port = .up
          ∧ (f.withdrawn = false → ∃ k, t.cs.contender = some k ∧ k.queue = f.payload.queue ∧ k.count < t.cs.cw)
          ∧ (f.withdrawn = true → s.cs.control = [] → s.cs.bulk = [] → t.cs.contender = none)
          ∧ (f.withdrawn = true → s.cs.control ≠ [] ∨ s.cs.bulk ≠ [] → ∃ k, t.cs.contender = some k ∧ k.count < t.cs.cw
            ∧ k.queue = if s.cs.control = [] ∨ (s.cs.controlRun = 4 ∧ s.cs.bulk ≠ []) then .bulk else .control))

/-- The reception filter: with the port DOWN a frame is discarded unread; else a bad frame, one with a body its kind
does not allow, and one with a sender tag that is none, are dropped with LINK_ERROR; an echo of our own is dropped
without count; and a body that its block finds wrong is dropped with LINK_ERROR. -/
def Obligations.FrameFilterDrops : Prop :=
  ∀ s : State,
    (∀ bytes, parseFrame bytes = none → exec (.badFrame bytes) s
      = .next (if s.cs.port = .down then s else s.count .linkError))
    ∧ (∀ c kind sender body, relayFrame c = some (kind, sender, body) →
      (s.cs.port = .down → exec c s = .next s)
      ∧ (s.cs.port ≠ .down → bodyGood kind body = false ∨ tagGood sender = false → exec c s = .next (s.count .linkError))
      ∧ (s.cs.port ≠ .down → bodyGood kind body = true → tagGood sender = true →
          (⟨sender, kind, frameCheck kind sender body⟩ : EchoItem) ∈ s.cs.echo → exec c s = .next s))
    ∧ ∀ sender body,
      (s.Hears .offer sender body → parseOffer body = none → exec (.offer sender body) s = .next (s.count .linkError))
      ∧ (s.Hears .want sender body → parseWant body = none → exec (.want sender body) s = .next (s.count .linkError))
      ∧ (s.Hears .tally sender body → parseTally body = none → exec (.tally sender body) s = .next (s.count .linkError))
      ∧ (s.Hears .stand sender body → parseStand body = none → exec (.stand sender body) s = .next (s.count .linkError))
      ∧ (s.Hears .covered sender body → parseCovered body = none →
          exec (.covered sender body) s = .next (s.count .linkError))
      ∧ (s.Hears .yield sender body → parseIssue body = none → exec (.yield sender body) s = .next (s.count .linkError))

/-- A frame that bears our tag and is no echo is a clash: TAG_CLASH is set, and a new tag, a station tag other than
the old, is drawn at once, or marked while a tally is STANDING, COLLECTING or UPLINKING; and the frame is then delivered by
its kind, as a frame heard in the state that the clash has led to.  TAG_REDRAW draws a marked
tag once no tally is, and changes nothing otherwise. -/
def Obligations.ClashDrawsNewTag : Prop :=
  ∀ s : State,
    (∀ c kind body, relayFrame c = some (kind, s.cs.tag, body) → s.cs.port ≠ .down → bodyGood kind body = true →
      tagGood s.cs.tag = true → s.cs.isEcho ⟨kind, s.cs.tag, body, frameCheck kind s.cs.tag body⟩ = false →
      ∃ t, exec c s = .next t ∧ t.flags.tagClash = true
        ∧ (s.roundRuns = true → t.cs.tag = s.cs.tag ∧ t.cs.tagMarked = true)
        ∧ (s.roundRuns = false → tagGood t.cs.tag = true ∧ t.cs.tag ≠ s.cs.tag ∧ t.cs.tagMarked = false)
        ∧ ∃ u, exec c s = exec c u ∧ u.Hears kind s.cs.tag body
          ∧ u.flags = { s.flags with tagClash := true }
          ∧ u.cs = { s.cs with tag := u.cs.tag, tagMarked := s.roundRuns }
          ∧ (s.roundRuns = true → u.cs.tag = s.cs.tag)
          ∧ (s.roundRuns = false → tagGood u.cs.tag = true ∧ u.cs.tag ≠ s.cs.tag)
          ∧ u.now = s.now ∧ s.onlyChanges [.tb, .cs, .flags] u)
    ∧ (s.cs.tagMarked = false ∨ s.roundRuns = true → exec .tagRedraw s = .next s)
    ∧ (s.cs.tagMarked = true → s.roundRuns = false → ∃ t, exec .tagRedraw s = .next t
        ∧ tagGood t.cs.tag = true ∧ t.cs.tag ≠ s.cs.tag ∧ t.cs = { s.cs with tag := t.cs.tag, tagMarked := false }
        ∧ s.onlyChanges [.tb, .cs] t)

/-- A request to queue a frame: refused uncounted while the channel is unavailable; merged in place with a waiting
frame of its identity, two WANT maps united, a PIECE left as it is, another kind's body replaced; refused with
QUEUE_FULL where its queue is full; else queued at the tail, behind a contender or a frame in flight, or at once the
contender. -/
def Obligations.RequestIsQueuedOrMerged : Prop :=
  ∀ (s : State) (p : Payload), let waiting := s.cs.waiting p.queue
    (s.cs.port ≠ .up → s.request p = s)
    ∧ (s.cs.port = .up →
      ((∃ w ∈ waiting, w.sameIdentity p = true) → s.request p = s.withCs (s.cs.setWaiting p.queue
          (waiting.map fun w => if w.sameIdentity p then w.merge p else w)))
      ∧ ((∀ w ∈ waiting, w.sameIdentity p = false) →
        (s.cs.room p.queue ≤ waiting.length → s.request p = s.count .queueFull)
        ∧ (waiting.length < s.cs.room p.queue →
          (s.cs.contender ≠ none ∨ s.cs.inFlight ≠ none →
            s.request p = s.withCs (s.cs.setWaiting p.queue (waiting ++ [p])))
          ∧ (s.cs.contender = none → s.cs.inFlight = none → s.cs.control = [] → s.cs.bulk = [] → 1 ≤ s.cs.cw →
            (s.request p).contends p.queue p))))
    ∧ (∀ issue m n, (Payload.want issue m).merge (.want issue n) = .want issue (m ||| n))
    ∧ (∀ issue k r, (Payload.piece issue k r).merge p = .piece issue k r)
    ∧ ∀ w : Payload, w.sameIdentity p = true → p.kind ≠ .want → p.kind ≠ .piece → w.merge p = p

/-! ### Frames of peers -/

/-- An OFFER of a key whose one complete entry stands at a higher revision resets that entry's offer record, and one
at its own revision adds one to the count heard, up to 255; without a record neither does anything, and an OFFER
against a tombstone's key at a higher revision does nothing.  An OFFER beyond every complete entry of its key: below
the ASSEMBLING entry's revision it does nothing; at it, a WANT names the positions still empty, unless a WANT went out
within the gap-fill delay; above it the entry is retargeted, with the OFFER's total and category, and a WANT names every
index; where nothing of the key assembles, a FREE entry is taken for it, provisional, and a WANT
names every index. -/
def Obligations.OfferIsSettled : Prop :=
  (∀ (s : State) (sender : Word32) (issue : Issue) (total i : Nat) (category : Category),
    s.Hears .offer sender (Payload.offer issue total category).body → issue.key.origin ≠ 0 → 1 ≤ total → total ≤ 16 →
    (s.entry i).isComplete = true → (s.entry i).ofKey issue.key = true →
    (∀ j, (s.entry j).isComplete = true → (s.entry j).ofKey issue.key = true → j = i) → 1 ≤ s.settings.offerMin →
    let e := s.entry i
    let run := exec (.offer sender (Payload.offer issue total category).body) s
    (issue.revision.toNat ≤ e.revision → e.offer = none → run = .next s)
    ∧ (e.revision < issue.revision.toNat → e.isTombstone = true → run = .next s)
    ∧ (∀ r, e.issue = some issue → e.offer = some r →
        run = .next (s.setEntry i { e with offer := some { r with heard := min 255 (r.heard + 1) } }))
    ∧ (∀ r, issue.revision.toNat < e.revision → e.offer = some r → ∃ t q, run = .next t
        ∧ t.table = s.table.set i { e with offer := some q } ∧ s.onlyChanges [.tb, .table] t
        ∧ q.interval = s.settings.offerMin ∧ q.start = s.now ∧ q.interval * 500 ≤ q.point
        ∧ q.point < q.interval * 1000 ∧ q.pointPassed = false ∧ q.heard = 0))
  ∧ (∀ (s : State) (sender : Word32) (issue : Issue) (total : Nat) (category : Category),
    s.Hears .offer sender (Payload.offer issue total category).body → issue.key.origin ≠ 0 → 1 ≤ total → total ≤ 16 →
    (∀ e ∈ s.table, e.isComplete = true → e.ofKey issue.key = true →
      e.isTombstone = false ∧ e.revision < issue.revision.toNat) →
    let run := exec (.offer sender (Payload.offer issue total category).body) s
    (∀ i, s.assemblingOf issue.key = some i →
      let e := s.entry i
      (issue.revision.toNat < e.revision → run = .next s)
      ∧ (∀ w sent, e.issue = some issue → e.want = some w → w.lastSent = some sent →
          s.now < sent + s.settings.gapFillDelay * 1000 → run = .next s)
      ∧ (e.issue = some issue → (∀ w sent, e.want = some w → w.lastSent = some sent →
            sent + s.settings.gapFillDelay * 1000 ≤ s.now) →
          run = .next (s.request (.want issue e.missing)))
      ∧ (e.revision < issue.revision.toNat → ∃ t, run = .next t ∧ (t.entry i).issue = some issue
          ∧ (t.entry i).state = .assembling ∧ (t.entry i).generation = e.generation ∧ (t.entry i).total = total
          ∧ (t.entry i).category = some category ∧ (t.entry i).kind = none ∧ (t.entry i).issueTime = none
          ∧ (t.entry i).duration = none ∧ (t.entry i).areas = [] ∧ (t.entry i).bodyCheck = none
          ∧ (t.entry i).heardBroadcast = false ∧ (t.entry i).heardRelay = false ∧ (t.entry i).checkFailures = 0
          ∧ (t.entry i).assemblyTimer = some (s.now + s.settings.assemblyTimeout * 1000)
          ∧ (t.entry i).provisional = true ∧ (t.entry i).slots = [] ∧ t.free = s.free ++ e.slots
          ∧ (t.entry i).want = some ⟨s.now + s.settings.gapFillDelay * 1000, none⟩
          ∧ (let asked := (s.releaseBody i).request (.want issue (BitVec.ofNat 16 (2 ^ total - 1)))
            t.cs = asked.cs ∧ t.counters = asked.counters)
          ∧ ∀ j, j ≠ i → t.entry j = s.entry j))
    ∧ ∀ i, s.assemblingOf issue.key = none → i < s.table.length → (s.entry i).state = .free →
      (∀ j, j < i → (s.entry j).state ≠ .free) →
      run = .next ((s.setEntry i { Entry.freed ((s.entry i).generation + 1) with
        state := .assembling, issue := some issue, category := some category, total := total, provisional := true
        takenAt := some s.uptime, assemblyTimer := some (s.now + s.settings.assemblyTimeout * 1000)
        want := some ⟨s.now + s.settings.gapFillDelay * 1000, none⟩ }).request
          (.want issue (BitVec.ofNat 16 (2 ^ total - 1)))))
  ∧ ∀ (e : Entry) (k : Nat), e.missing.getLsbD k = true ↔ k < 16 ∧ k < e.total ∧ e.map.getD k none = none

/-- A WANT of an entry's own issuance is supplied from it: for each index wanted and held, in ascending order, a PIECE
with the fragment rebuilt from entry and store is asked for.  The offer record of a complete entry at its revision or a
higher one is reset, before the supply (the spec does not order the two: that is the model's choice, log 12).  A WANT below
the revision of the key's complete entry is not supplied; an ASSEMBLING successor of higher revision changes neither.  One of a key that no entry holds at its revision or higher changes
nothing. -/
def Obligations.WantIsSupplied : Prop :=
  ∀ (s : State) (sender : Word32) (issue : Issue) (wanted : Word16),
    s.Hears .want sender (Payload.want issue wanted).body → issue.key.origin ≠ 0 → wanted ≠ 0 →
    let apart (i j : Nat) : Prop := (s.entry j).revision < issue.revision.toNat ∨ j = i
      ∨ ((s.entry j).isComplete = false ∧ issue.revision.toNat < (s.entry j).revision)
    let run := exec (.want sender (Payload.want issue wanted).body) s
    ((∀ e ∈ s.table, e.ofKey issue.key = true → e.revision < issue.revision.toNat) → run = .next s)
    ∧ (∀ i, (s.entry i).ofKey issue.key = true → issue.revision.toNat < (s.entry i).revision →
      (∀ j, (s.entry j).ofKey issue.key = true → apart i j) →
      ((s.entry i).isComplete = false ∨ (s.entry i).offer = none → run = .next s)
      ∧ ∀ r, (s.entry i).isComplete = true → (s.entry i).offer = some r → 1 ≤ s.settings.offerMin → ∃ q,
        run = .next (s.drew.setEntry i { s.entry i with offer := some q }) ∧ q.interval = s.settings.offerMin
        ∧ q.start = s.now ∧ q.interval * 500 ≤ q.point ∧ q.point < q.interval * 1000 ∧ q.heard = 0
        ∧ q.pointPassed = false)
    ∧ ∀ (i : Nat) (kind : Kind), (s.entry i).ofIssue issue = true →
      (∀ j, (s.entry j).ofKey issue.key = true → apart i j) →
      (s.entry i).kind = some kind → (s.entry i).total ≤ 16 →
      let e := s.entry i
      let held := (List.range 16).filter fun k => wanted.getLsbD k && e.holdsIndex k
      let record (k : Nat) : List Byte := Fragment.bytes
        { issue := issue, index := k, total := e.total, kind := kind, category := e.category.getD .test
          issueTime := e.issueTime.getD 0, duration := e.duration.getD 0
          bodyCheck := if k = 0 then e.bodyCheck.getD 0 else 0, areas := if k = 0 then e.areas else []
          payload := s.store.read ((e.map.getD k none).getD 0) }
      let supplied (s : State) := held.foldl (fun s k => s.request (.piece issue k (record k))) s
      (e.isComplete = false ∨ e.offer = none → run = .next (supplied s))
      ∧ (∀ r, e.isComplete = true → e.offer = some r → 1 ≤ s.settings.offerMin → ∃ q, run
          = .next (supplied (s.drew.setEntry i { e with offer := some q })) ∧ q.interval = s.settings.offerMin
          ∧ q.start = s.now ∧ q.interval * 500 ≤ q.point ∧ q.point < q.interval * 1000 ∧ q.heard = 0
          ∧ q.pointPassed = false)

/-- A PIECE heard goes to Fragment Intake, and then, whatever that decides of it, our own PIECE of its issue and index is
removed: taken out of the bulk queue, and marked withdrawn in flight (that Fragment Intake acts first is the model's
choice, log 12).  A removal closes up the frames behind; where the frame removed is the contender, it gives up its count
and the arbiter chooses anew.  A PIECE that is malformed or a duplicate advances its counter, and one that fills a position
of its entry is taken, in both cases with the removal. -/
def Obligations.PieceSuppressesOurs : Prop :=
  (∀ (s : State) (sender : Word32) (record : List Byte) (issue : Issue) (index : Nat),
    s.Hears .piece sender record → pieceName record = some (issue, index) →
    let named (p : Payload) := p.isPieceOf issue (some index)
    let run := exec (.piece sender record) s
    run = .next ((s.intake .relay record).removePieces issue (some index))
    ∧ (parseFragment record = none → run = .next ((s.count .malformed).removePieces issue (some index)))
    ∧ ∀ f, parseFragment record = some f →
      (s.isLive f → (∃ e ∈ s.table, e.isComplete = true ∧ e.ofKey f.issue.key = true
          ∧ (e.isTombstone = true ∨ f.issue.revision.toNat ≤ e.revision)) →
        run = .next ((s.count .duplicate).removePieces issue (some index)))
      ∧ ∀ (i slot : Nat) (rest : List Nat), s.Admits f → s.assemblingOf f.issue.key = some i → s.free = slot :: rest →
        (s.entry i).map.length = 16 → (s.entry i).issue = some f.issue → (s.entry i).total = f.total →
        (s.entry i).category = some f.category → (s.entry i).map.getD f.index none = none →
        (∃ k, k < f.total ∧ k ≠ f.index ∧ (s.entry i).map.getD k none = none) →
        ∃ t, run = .next t ∧ s.onlyChanges [.tb, .table, .store, .free, .cs, .counters] t
          ∧ (t.entry i).map = (s.entry i).map.set f.index (some slot) ∧ (t.entry i).heardRelay = true
          ∧ (∀ j, j ≠ i → t.entry j = s.entry j) ∧ t.free = rest ∧ t.store = s.store.set slot f.payload
          ∧ t.counters = { s.counters with fragmentsTaken := bump s.counters.fragmentsTaken }
          ∧ (∀ p ∈ t.cs.bulk, named p = false)
          ∧ ∀ g, t.cs.inFlight = some g → named g.payload = true → g.withdrawn = true)
  ∧ ∀ (s : State) (issue : Issue) (index : Nat),
    let named (p : Payload) := p.isPieceOf issue (some index)
    let left := s.cs.bulk.filter fun p => !named p
    let t := s.removePieces issue (some index)
    s.onlyChanges [.tb, .cs] t
    ∧ ((∀ k, s.cs.contender = some k → k.queue = .bulk → ∀ p, s.cs.bulk.head? = some p → named p = false) →
      (s.cs.port ≠ .up ∨ s.cs.inFlight ≠ none ∨ s.cs.contender ≠ none ∨ (s.cs.control = [] ∧ left = [])) →
      t = s.withCs { s.cs with
        bulk := left
        inFlight := s.cs.inFlight.map fun f => { f with withdrawn := f.withdrawn || named f.payload } })
    ∧ ∀ k p, s.cs.contender = some k → k.queue = .bulk → s.cs.bulk.head? = some p → named p = true → s.cs.port = .up →
      s.cs.inFlight = none → 1 ≤ s.cs.cw →
      (s.cs.control = [] → left = [] → t = s.withCs { s.cs with bulk := [], contender := none })
      ∧ (∀ q, s.cs.controlRun ≠ 4 ∨ left = [] → s.cs.control.head? = some q → t.contends .control q)
      ∧ (∀ q, s.cs.controlRun = 4 ∨ s.cs.control = [] → left.head? = some q → t.contends .bulk q)

/-- A TALLY heard is merged into the tally of its issuance: a tag absent joins the receipt set while it holds fewer
than 64, uncovered, and one with status ACK is in the acknowledged set from then on.  Nothing else changes, but that a
COLLECTING tally whose set reaches 64 goes to UPLINKING, and the uplink queue is served.  A TALLY of an issuance with no
tally changes nothing.  (That a COLLECTING tally whose set held 64 tags already stays there is the model's choice, log 39.) -/
def Obligations.TallyHeardIsMerged : Prop :=
  (∀ (s : State) (sender : Word32) (issue : Issue) (items : List Item),
    s.Hears .tally sender (Payload.tally issue items).body → issue.key.origin ≠ 0 →
    (∀ x ∈ items, tagGood x.tag = true ∧ x.status ≠ .none) →
    let run := exec (.tally sender (Payload.tally issue items).body) s
    (s.findTally issue = none → run = .next s)
    ∧ ∀ k y, s.findTally issue = some k → s.tally k = some y →
      let merged := items.foldl (fun ms x => joinTag ms x.tag (x.status == .ack)) y.members
      let full := y.members.length < 64 ∧ 64 ≤ merged.length
      (y.state ≠ .collecting ∨ ¬ full → run = .next (s.setTally k (some { y with members := merged })))
      ∧ (y.state = .collecting → full → run = .next (State.nextUplink (s.withRu { s.ru with
            tallies := s.ru.tallies.set k (some { y with members := merged, state := .uplinking, timer := none })
            uplinkQueue := s.ru.uplinkQueue ++ [k] }))))
    ∧ ∀ (ms : List Member) (tag : Word32) (acked : Bool),
      ((∀ m ∈ ms, m.tag ≠ tag) → joinTag ms tag acked = if ms.length < 64 then ms ++ [⟨tag, acked, .none⟩] else ms)
      ∧ (∀ m ∈ ms, m.tag = tag → joinTag ms tag acked
          = ms.map fun x => if x.tag = tag then { x with acked := x.acked || acked } else x)

/-- A STAND heard by a WAITING or STANDING tally with a better bid, lower or equal with the lower tag, makes it
CONTRIBUTING to the sender under the contributor guard, and our TALLY is asked for, with the own tag first and then up
to 15 due tags, unless the sender's tally is full at 64.  Any other STAND changes nothing, one of an issuance with no tally
among them. -/
def Obligations.StandHeardIsCompared : Prop :=
  ∀ (s : State) (sender : Word32) (issue : Issue) (bid size : Nat),
    s.Hears .stand sender (Payload.stand issue bid size).body → issue.key.origin ≠ 0 → bid ≤ 65535 → 1 ≤ size →
    size ≤ 64 →
    let run := exec (.stand sender (Payload.stand issue bid size).body) s
    (s.findTally issue = none → run = .next s)
    ∧ ∀ (k : Nat) (y : Tally), s.findTally issue = some k → s.tally k = some y →
    let better := bid < y.bid ∨ (bid = y.bid ∧ sender.toNat < s.cs.tag.toNat)
    let contributing := s.setTally k (some { y with
      state := .contributing, reporter := some sender, timer := some (s.now + s.settings.contributorGuard * 1000) })
    ((y.state = .waiting ∨ y.state = .standing) → better →
      (size = 64 → run = .next contributing)
      ∧ (size ≠ 64 → run = .next (contributing.request (.tally issue y.contribution))))
    ∧ (¬ better ∨ (y.state ≠ .waiting ∧ y.state ≠ .standing) → run = .next s)

/-- A COVERED frame heard raises the covered level of each named tag the receipt set holds, and the reported level
where the own tag is among them; a WAITING or CONTRIBUTING tally then reported at its own level settles.  One that is
superseded is freed instead; and where items are deferred the tally is freed at once and given to the one of highest
precedence, ties going to the earliest arrival.  A YIELD
heard from the reporter of a CONTRIBUTING tally returns it to WAITING with a fresh delay; any other YIELD changes
nothing, nor does a COVERED or a YIELD of an issuance with no tally. -/
def Obligations.CoveredAndYieldHeard : Prop :=
  ∀ (s : State) (sender : Word32) (issue : Issue), issue.key.origin ≠ 0 →
    (s.findTally issue = none →
      (∀ level part tags, s.Hears .covered sender (Payload.covered issue level part tags).body → level ≠ .none →
        (∀ x ∈ tags, tagGood x = true) →
        exec (.covered sender (Payload.covered issue level part tags).body) s = .next s)
      ∧ (s.Hears .yield sender (Payload.yield issue).body →
        exec (.yield sender (Payload.yield issue).body) s = .next s))
    ∧ ∀ (k : Nat) (y : Tally), s.findTally issue = some k → s.tally k = some y →
    (∀ level part tags, s.Hears .covered sender (Payload.covered issue level part tags).body → level ≠ .none →
      (∀ x ∈ tags, tagGood x = true) →
      let raised (l : Level) : Level := if l.rank < level.rank then level else l
      let z : Tally := { y with
        members := y.members.map fun m => if m.tag ∈ tags then { m with covered := raised m.covered } else m
        reported := if y.ownTag ∈ tags ∧ (∃ m ∈ y.members, m.tag = y.ownTag) then raised y.reported else y.reported }
      let settles := (y.state = .waiting ∨ y.state = .contributing) ∧ y.ownLevel.rank ≤ z.reported.rank
      let run := exec (.covered sender (Payload.covered issue level part tags).body) s
      (¬ settles → run = .next (s.setTally k (some z)))
      ∧ (settles → ∃ t, run = .next t ∧ (s.setTally k (some z)).tallySettles t k z))
    ∧ (s.Hears .yield sender (Payload.yield issue).body →
      let run := exec (.yield sender (Payload.yield issue).body) s
      (y.state ≠ .contributing ∨ y.reporter ≠ some sender → run = .next s)
      ∧ (y.state = .contributing → y.reporter = some sender → ∃ d, run = .next (s.drew.setTally k (some { y with
            state := .waiting, reporter := none, settleTime := none, digest := [], timer := some (s.now + d)
            bid := min 65535 (d / 10) }))
          ∧ (3 - s.ar.quality) * s.settings.reportStep * (y.failures + 1) * 1000 ≤ d
          ∧ d ≤ (3 - s.ar.quality) * s.settings.reportStep * (y.failures + 1) * 1000 + s.settings.reportSpread * 1000))

/-! ### Timers and inner steps -/

/-- The assembly timer of an ASSEMBLING entry and the husk hold of a husk run out at their times: the entry goes to
FREE with its generation, its slots go back to the tail of the free list, and no other entry moves and no notice is
posted.  Of another entry they change nothing. -/
def Obligations.AssemblyAndHuskEndFree : Prop :=
  ∀ (s : State) (i : Nat), i < s.table.length → (s.entry i).claimSlot = none →
    let e := s.entry i
    let freed (o : Host.Outcome State Fault Refusal) (tEnd : Nat) := ∃ t, o = .next t
      ∧ t.now = (s.runTo tEnd).now ∧ t.table = s.table.set i (Entry.freed e.generation) ∧ t.free = s.free ++ e.slots
      ∧ t.pu = s.pu ∧ t.au = s.au ∧ t.ml = s.ml ∧ t.store = s.store ∧ t.flags = s.flags
    (∀ tEnd, e.state = .assembling → e.assemblyTimer = some tEnd → tEnd ≤ lastMs → freed (exec (.assemblyTimeout i) s) tEnd)
    ∧ (e.state ≠ .assembling ∨ e.assemblyTimer = none → exec (.assemblyTimeout i) s = .next s)
    ∧ (∀ closed, e.state = .closed → e.bodyHeld = false → e.closureTime = some closed →
        let tEnd := (e.deadline.getD closed + s.settings.huskHold) * 1000
        tEnd ≤ lastMs → freed (exec (.huskHoldEnd i) s) tEnd)
    ∧ (e.state ≠ .closed ∨ e.bodyHeld = true → exec (.huskHoldEnd i) s = .next s)

/-- The uptime reaches an entry's expiry deadline: a LOCATING, OUTSIDE, PENDING, CLAIMED or SHOWN entry closes EXPIRED
with its body released and leaves waiting set and claim slot, and one the host holds or has shown posts EXPIRED; a
CLOSED entry releases its body and keeps its reason.  An entry without a deadline, or ASSEMBLING, is not touched.  RU is
told that an entry so closed has ended: its deferred item leaves the list; its tally, in UPLINKING, is to be freed when
its uplink ends, and in any other state is freed at once, and given to the deferred item of highest precedence, if any. -/
def Obligations.DeadlineExpiresEntry : Prop :=
  ∀ (s : State) (i : Nat), i < s.table.length →
    let e := s.entry i
    (e.deadline = none ∨ e.state = .free ∨ e.state = .assembling → exec (.expiryDeadline i) s = .next s)
    ∧ ∀ deadline, e.deadline = some deadline → deadline * 1000 ≤ lastMs →
      let at' := s.runTo (deadline * 1000)
      (e.state = .closed → e.slots ≠ [] → ∃ t, exec (.expiryDeadline i) s = .next t
        ∧ t.table = s.table.set i { e with map := emptyMap, offer := none } ∧ t.free = s.free ++ e.slots
        ∧ t.now = at'.now ∧ s.onlyChanges [.tb, .table, .free, .cs] t)
      ∧ (e.state = .locating ∨ e.state = .outside ∨ e.state = .pending ∨ e.state = .claimed ∨ e.state = .shown →
        ∃ t, exec (.expiryDeadline i) s = .next t ∧ t.now = at'.now ∧ (t.entry i).state = .closed
          ∧ (t.entry i).closureReason = some .expired ∧ (t.entry i).closureTime = some at'.uptime
          ∧ (t.entry i).slots = [] ∧ (t.entry i).generation = e.generation ∧ (t.entry i).issue = e.issue
          ∧ t.free = s.free ++ e.slots ∧ i ∉ t.ar.waiting ∧ (∀ j, j ≠ i → (t.entry j).soundsLike (s.entry j))
          ∧ (∀ k, e.claimSlot = some k → t.pu.slots = s.pu.slots.set k none)
          ∧ (e.isHeld = true → s.pu.notices.length < 16 →
              t.pu.notices = s.pu.notices ++ [⟨.expired, ⟨i, e.generation⟩, none⟩] ∧ t.flags = s.flags)
          ∧ (e.isHeld = true → 16 ≤ s.pu.notices.length →
              t.pu.notices = s.pu.notices ∧ t.flags = { s.flags with noticeLost := true })
          ∧ (e.isHeld = false → t.pu.notices = s.pu.notices)
          ∧ ∀ issue, e.issue = some issue →
              (∀ d ∈ t.ru.deferred, d.issue ≠ issue)
              ∧ (s.findTally issue = none → t.ru = { s.ru with
                  deferred := s.ru.deferred.filter fun d => d.issue != issue })
              ∧ ∀ k y, s.findTally issue = some k → s.tally k = some y →
                (y.state = .uplinking → t.tally k = some { y with ended := true } ∧ t.ru.uplinkQueue = s.ru.uplinkQueue)
                ∧ (y.state ≠ .uplinking → s.ru.deferred = [] → t.ru = { s.ru with
                    tallies := s.ru.tallies.set k none, uplinkQueue := s.ru.uplinkQueue.filter fun n => n != k })
                ∧ (y.state ≠ .uplinking → s.ru.deferred ≠ [] → s.isDeferred issue = false →
                    (∀ d ∈ s.ru.deferred, d.precedence ≤ 7) → ∃ n d, s.served t n k d))

/-- The verdict procedure takes in a LOCATING entry.  With the area check off, an empty area list, or a cached code
that matches, it is INSIDE; with no serving cell UNRESOLVED; with a cached code that does not match OUTSIDE; and an
entry with its body goes to PENDING or, at precedence 0, to CLOSED(WITHHELD), or to OUTSIDE.  PENDING and WITHHELD give RU
the receipt event: the own tag joins the issuance's tally at level RECEIPT, or a tally is taken and waits with its delay
drawn, or the item is deferred; OUTSIDE gives none.  At a miss it joins the
waiting set, and where none is outstanding a query is handed to the modem link, begun at once or behind what waits there.  An entry without its body that is OUTSIDE goes there; one
that is INSIDE or UNRESOLVED goes back to ASSEMBLING at the same revision and generation, with an empty map, and a WANT
names every index, or to FREE where another entry of its key is ASSEMBLING. -/
def Obligations.VerdictProcedureDecides : Prop :=
  (∀ (s : State) (i : Nat) (category : Category), i < s.table.length → (s.entry i).state = .locating →
    i ∉ s.ar.waiting → (s.entry i).bodyHeld = true → (s.entry i).category = some category → s.OwnerLaw →
    let e := s.entry i
    let run := exec (.verdictProcedure i) s
    let placed (v : Verdict) := ∃ t, run = .next t ∧ s.placedAs t i v category ∧ (t.entry i).map = e.map
      ∧ (∀ j, j ≠ i → (t.entry j).soundsLike (s.entry j)) ∧ t.ar.waiting = s.ar.waiting
    let checked := s.settings.areaCheck ≠ 0 ∧ e.areas ≠ []
    (¬ checked → placed .inside)
    ∧ (checked → s.ar.cell = 0 → placed .unresolved)
    ∧ (checked → s.ar.cell ≠ 0 → ∀ code, s.ar.cached s.ar.cell = some code →
        (areaMatches e.areas code = true → placed .inside)
        ∧ (areaMatches e.areas code = false → run = .next ((s.setEntry i
            { e with state := .outside, verdict := .outside }).withAr (s.ar.touched s.ar.cell))))
    ∧ (checked → s.ar.cell ≠ 0 → s.ar.cached s.ar.cell = none →
        (∀ other, s.ml.queryMarker = some other →
          run = .next (s.withAr { s.ar with waiting := s.ar.waiting ++ [i] }))
        ∧ (s.ml.queryMarker = none → run = .next ((s.withAr { s.ar with
            waiting := s.ar.waiting ++ [i], queryTimer := some (s.now + s.settings.queryTimeout * 1000) }).withMl
            (({ s.ml with queryMarker := some s.ar.cell } : ModemLink).handed (.regionQuery s.ar.cell)))))
    ∧ ∀ code, areaMatches e.areas code = (e.areas.isEmpty || e.areas.any fun d =>
        (List.range 32).all fun b => b < 32 - 8 * d.depth || d.code.getLsbD b == code.getLsbD b))
  ∧ (∀ (s : State) (i : Nat) (issue : Issue), i < s.table.length → (s.entry i).state = .locating → i ∉ s.ar.waiting →
    (s.entry i).bodyHeld = false → (s.entry i).issue = some issue → 1 ≤ (s.entry i).total → (s.entry i).total ≤ 16 →
    s.OwnerLaw →
    let e := s.entry i
    let run := exec (.verdictProcedure i) s
    let checked := s.settings.areaCheck ≠ 0 ∧ e.areas ≠ []
    let looked := s.withAr (s.ar.touched s.ar.cell)
    (∀ code, checked → s.ar.cell ≠ 0 → s.ar.cached s.ar.cell = some code → areaMatches e.areas code = false →
        run = .next (looked.setEntry i { e with state := .outside, verdict := .outside }))
    ∧ ∀ u : State, ((¬ checked ∨ s.ar.cell = 0) ∧ u = s) ∨ (checked ∧ s.ar.cell ≠ 0 ∧ u = looked
          ∧ ∃ code, s.ar.cached s.ar.cell = some code ∧ areaMatches e.areas code = true) →
      ((∀ j, (s.entry j).state = .assembling → (s.entry j).ofKey issue.key = false) →
        run = .next ((u.setEntry i { e with
          state := .assembling, verdict := .undecided, map := emptyMap, checkFailures := 0, heardBroadcast := false
          heardRelay := false, expandedLength := none, deadline := none
          assemblyTimer := some (s.now + s.settings.assemblyTimeout * 1000)
          want := some ⟨s.now + s.settings.gapFillDelay * 1000, none⟩ }).request
            (.want issue (BitVec.ofNat 16 (2 ^ e.total - 1)))))
      ∧ ((∃ j, (s.entry j).state = .assembling ∧ (s.entry j).ofKey issue.key = true) → e.claimSlot = none →
        ∃ t, run = .next t ∧ t.table = s.table.set i (Entry.freed e.generation) ∧ t.free = s.free ++ e.slots
          ∧ t.pu = s.pu ∧ t.au = s.au ∧ t.ar = u.ar))

/-- The query timer runs out: QUERY_TIMEOUT is set, the query is over, and an unsent record is withdrawn.  For the
serving cell the waiting set is emptied, and a lone waiting entry with its body gets UNRESOLVED.  For another cell AR
looks at the serving cell: where none waits nothing follows; a code in the cache gives a lone waiting entry with its body
its verdict; with no serving cell it is UNRESOLVED; and else a new query for the serving cell is sent while the entries
wait on. -/
def Obligations.QueryTimeoutEndsQuery : Prop :=
  ∀ (s : State) (cell : Word32) (tEnd : Nat), s.ml.queryMarker = some cell → s.ar.queryTimer = some tEnd →
    tEnd ≤ lastMs →
    let ended := (s.runTo tEnd).queryOver.flag .queryTimeout
    ∃ t, exec .queryTimerEnd s = .next t ∧ t.flags = { s.flags with queryTimeout := true } ∧ t.now = ended.now
      ∧ (cell ≠ s.ar.cell → ended.followedUp t)
      ∧ (cell = s.ar.cell → t.ml = ended.ml ∧ t.ar = { ended.ar with waiting := [] }
        ∧ ∀ i category, s.ar.waiting = [i] → i < s.table.length → (s.entry i).bodyHeld = true →
          (s.entry i).category = some category → ended.placedAs t i .unresolved category)

/-- The relay timers of an entry.  At its offer point an OFFER is asked for where fewer than k were heard; at the end
of an offer interval one of twice the length begins, up to the maximum, with a point drawn in its second half; at
the end of the gap-fill timer a WANT of an ASSEMBLING entry names the positions still empty, and the timer restarts. -/
def Obligations.RelayTimersRun : Prop :=
  ∀ (s : State) (i : Nat), i < s.table.length →
    let e := s.entry i
    (∀ r issue category, e.offer = some r → r.pointPassed = false → r.start + r.point ≤ lastMs → e.issue = some issue →
      e.category = some category →
      let at' := (s.runTo (r.start + r.point)).setEntry i { e with offer := some { r with pointPassed := true } }
      exec (.offerPoint i) s
        = .next (if r.heard < s.settings.redundancy then at'.request (.offer issue e.total category) else at'))
    ∧ (∀ r, e.offer = some r → r.start + r.interval * 1000 ≤ lastMs →
      let at' := s.runTo (r.start + r.interval * 1000)
      ∃ q, exec (.offerIntervalEnd i) s = .next (at'.drew.setEntry i { e with offer := some q })
        ∧ q.interval = min (2 * r.interval) s.settings.offerMax ∧ q.start = at'.now ∧ q.pointPassed = false ∧ q.heard = 0
        ∧ (1 ≤ q.interval → q.interval * 500 ≤ q.point ∧ q.point < q.interval * 1000))
    ∧ (∀ w issue, e.state = .assembling → e.want = some w → w.gapEnd ≤ lastMs → e.issue = some issue →
      let at' := s.runTo w.gapEnd
      exec (.gapFillTimerEnd i) s = .next ((at'.setEntry i { e with
        want := some { w with gapEnd := at'.now + s.settings.gapFillDelay * 1000 } }).request (.want issue e.missing)))
    ∧ (∀ k, e.missing.getLsbD k = true ↔ k < 16 ∧ k < e.total ∧ e.map.getD k none = none)
    ∧ (e.offer = none → exec (.offerPoint i) s = .next s ∧ exec (.offerIntervalEnd i) s = .next s)
    ∧ (e.want = none ∨ e.state ≠ .assembling → exec (.gapFillTimerEnd i) s = .next s)

/-- The timers of a tally.  A report delay that ends without reporting service is drawn anew; with service and a
channel it asks for a STAND with bid and tally size and starts the stand hold; with service and no channel, and at
the end of the collection window, the tally joins the uplink queue, which is served while no uplink is outstanding.  The end of the stand hold opens the window; the end
of the contributor guard returns the tally to WAITING with a fresh delay.  A tally whose window ends with no uplink
outstanding and service to report is sent: its due tags with their statuses, in set order, go to the modem in an
UPLINK under the station tag, the uplink is outstanding and its timeout runs.  (That the window is opened, and runs whole,
also where the set holds 64 tags already is the model's choice, log 39.) -/
def Obligations.TallyTimersRun : Prop :=
  (∀ (s : State) (k : Nat) (y : Tally) (tEnd : Nat), k < s.ru.tallies.length → s.tally k = some y → y.timer = some tEnd →
    tEnd ≤ lastMs →
    let at' := s.runTo tEnd
    let service := s.ar.cell ≠ 0 ∧ s.ar.service = .full ∧ s.ml.modemReady = true
    let waits (o : Host.Outcome State Fault Refusal) := ∃ d, o = .next (at'.drew.setTally k (some { y with
          state := .waiting, reporter := none, settleTime := none, digest := [], timer := some (at'.now + d)
          bid := min 65535 (d / 10) }))
        ∧ (3 - s.ar.quality) * s.settings.reportStep * (y.failures + 1) * 1000 ≤ d
        ∧ d ≤ (3 - s.ar.quality) * s.settings.reportStep * (y.failures + 1) * 1000 + s.settings.reportSpread * 1000
    let queued := at'.withRu { s.ru with
      tallies := s.ru.tallies.set k (some { y with state := .uplinking, timer := none })
      uplinkQueue := s.ru.uplinkQueue ++ [k] }
    (y.state = .waiting → (¬ service → waits (exec (.reportDelayEnd k) s))
      ∧ (service → s.cs.port ≠ .up → exec (.reportDelayEnd k) s = .next queued.nextUplink)
      ∧ (service → s.cs.port = .up → exec (.reportDelayEnd k) s = .next ((at'.setTally k (some { y with
          state := .standing, timer := some (at'.now + s.settings.standHold) })).request
            (.stand y.issue y.bid y.members.length))))
    ∧ (y.state = .standing → exec (.standHoldEnd k) s = .next (at'.setTally k (some { y with
        state := .collecting, timer := some (at'.now + s.settings.collectionWindow * 1000) })))
    ∧ (y.state = .collecting → exec (.collectionWindowEnd k) s = .next queued.nextUplink)
    ∧ (y.state = .contributing → waits (exec (.contributorGuardEnd k) s))
    ∧ (y.state ≠ .waiting → exec (.reportDelayEnd k) s = .next s)
    ∧ (y.state ≠ .standing → exec (.standHoldEnd k) s = .next s)
    ∧ (y.state ≠ .collecting → exec (.collectionWindowEnd k) s = .next s)
    ∧ (y.state ≠ .contributing → exec (.contributorGuardEnd k) s = .next s))
  ∧ (∀ (s : State) (k : Nat) (y : Tally) (tEnd : Nat), k < s.ru.tallies.length → s.tally k = some y →
    y.timer = some tEnd → tEnd ≤ lastMs → y.state = .collecting → s.ml.uplinkMarker = none → s.ru.uplinkQueue = [] →
    s.ar.cell ≠ 0 → s.ar.service = .full → s.ml.modemReady = true →
    let at' := s.runTo tEnd
    (y.dueTags ≠ [] → exec (.collectionWindowEnd k) s
      = .next (at'.digestSent k { y with state := .uplinking })))

/-! ### Attention and keys -/

/-- A phase of a cadence output ends: ON goes to OFF; OFF counts a burst, up to 255, and goes to ON again, or, with
the bursts of a counted output done, to DONE.  Where that completes the cadence the owner's sounded flag is set and the
owner is chosen anew: with no other eligible entry there is no owner and no cadence any more.  Whenever the owner is
chosen, an owner that is still first in the pending order goes on; another entry that is first becomes owner, and its
cadence starts with the profile mapped from its precedence, its enabled outputs ON and the others DISABLED; a profile with
no output enabled completes at once, and the next eligible entry is looked at.  The pins follow the outputs by their modes,
and are not driven through start-up. -/
def Obligations.CadencePhasesRun : Prop :=
  (∀ (s : State) (o : Output) (c : Cadence) (tEnd : Nat), s.au.cadence = some c → (c.output o).phaseEnd = some tEnd →
    tEnd ≤ lastMs →
    let at' := s.runTo tEnd
    let value (v : Nat) := s.settings.cadenceValue c.profile o v
    let run := exec (.cadencePhaseEnd o) s
    let with' (x : OutputState) := at'.withAu { s.au with cadence := some (c.setOutput o x) }
    let bursts := min 255 ((c.output o).bursts + 1)
    let counted (p : Output) := s.settings.enables c.profile p ∧ s.settings.cadenceValue c.profile p 3 ≠ 0
    let other := match o with
      | .tone => Output.buzz
      | .buzz => Output.tone
    ((c.output o).phase = .on →
        run = .next (with' ⟨.off, (c.output o).bursts, some (at'.now + value 2 * value 0)⟩))
    ∧ ((c.output o).phase = .off → ¬ (counted o ∧ bursts = value 3) →
        run = .next (with' ⟨.on, bursts, some (at'.now + value 1 * value 0)⟩))
    ∧ ((c.output o).phase = .off → counted o → bursts = value 3 → counted other → (c.output other).phase ≠ .done →
        run = .next (with' ⟨.done, bursts, none⟩))
    ∧ ∀ owner, (c.output o).phase = .off → counted o → bursts = value 3 →
        (¬ counted other ∨ (c.output other).phase = .done) → s.au.owner = some owner → owner.index < s.table.length →
        let sounded := at'.setEntry owner.index { s.entry owner.index with sounded := true }
        run = .next (sounded.withAu { s.au with cadence := some (c.setOutput o ⟨.done, bursts, none⟩) }).attend
        ∧ ((∀ j, j ≠ owner.index → (s.entry j).eligible s.pu.threshold = false) →
          run = .next (sounded.withAu { s.au with owner := none, cadence := none }))
        ∧ ∀ j, sounded.firstToSound j → (∀ e ∈ s.table, e.precedence.getD 0 ≤ 7) →
          s.settings.enables (sounded.mappedProfile j) .tone ∨ s.settings.enables (sounded.mappedProfile j) .buzz →
          run = .next (sounded.soundsFrom j))
  ∧ (∀ s : State,
    ((∀ j, (s.entry j).eligible s.pu.threshold = false) → s.attend = s.withAu { s.au with owner := none, cadence := none })
    ∧ ∀ i, s.firstToSound i → (∀ e ∈ s.table, e.precedence.getD 0 ≤ 7) →
      let owns := ∃ o, s.au.owner = some o ∧ o.index = i ∧ o.generation = (s.entry i).generation
      let sounds := s.settings.enables (s.mappedProfile i) .tone ∨ s.settings.enables (s.mappedProfile i) .buzz
      (owns → s.attend = s)
      ∧ (¬ owns → sounds → s.attend = s.soundsFrom i)
      ∧ (¬ owns → ¬ sounds →
        s.attend = ((s.soundsFrom i).setEntry i { s.entry i with sounded := true }).attend))
  ∧ ∀ (s : State) (o : Output),
    let mode := match o with
      | .tone => s.settings.toneMode
      | .buzz => s.settings.buzzMode
    let active := ∃ c, s.au.cadence = some c ∧ (c.output o).phase = .on
    (s.started = false ∨ mode = 0 → s.pin o = .floating)
    ∧ (s.started = true → mode = 1 → (active → s.pin o = .high) ∧ (¬ active → s.pin o = .low))
    ∧ (s.started = true → mode = 2 → (active → s.pin o = .low) ∧ (¬ active → s.pin o = .floating))

/-- What drives a key input changes: through start-up the input is not read; from then on a change of its level
restarts the debounce timer for 20 ms, and the same level changes nothing else.  What nothing drives is at its pull;
with pull NONE its level is free.  The debounce timer of a key runs out: its level is active where it is the key's setting's.
The accepted level, or a change to inactive, presses nothing.  A change to active is a press: ACK closes the owner
ACKNOWLEDGED, empties its claim slot, gives RU the acknowledgement event (as to a redrawn tag, log 14), posts KEY_ACK where the
host holds or has shown it, or sets NOTICE_LOST where 16 notices wait, and counts IDLE_KEY where there is none; SILENCE sets the sounded flag of every eligible entry, with
KEY_SILENCE, or NOTICE_LOST, for such an owner, after which there is no owner, and does nothing where there is none. -/
def Obligations.KeysAreDebounced : Prop :=
  (∀ (s : State) (key : KeyName) (drive : Drive),
    let x := s.au.key key
    (s.started = false → exec (.keyEdge key drive) s = .next (s.setKey key { x with drive := drive }))
    ∧ (s.started = true → ∀ high, (drive = .high ∧ high = true) ∨ (drive = .low ∧ high = false)
          ∨ (drive = .nothing ∧ s.settings.pull key = 1 ∧ high = true)
          ∨ (drive = .nothing ∧ s.settings.pull key = 2 ∧ high = false) →
        exec (.keyEdge key drive) s = .next (s.setKey key { x with
          drive := drive, levelHigh := high
          timer := if high = x.levelHigh then x.timer else some (s.now + 20) }))
    ∧ (s.started = true → s.settings.pull key = 0 → ∃ t high, exec (.keyEdge key .nothing) s = .next t
        ∧ t.au.key key = { x with
            drive := .nothing, levelHigh := high
            timer := if high = x.levelHigh then x.timer else some (s.now + 20) }
        ∧ s.onlyChanges [.tb, .au] t))
  ∧ (∀ (s : State) (key : KeyName) (tEnd : Nat), (s.au.key key).timer = some tEnd → tEnd ≤ lastMs →
    let active := (s.au.key key).levelHigh == (match key with
      | .ack => s.settings.ackActive == 1
      | .silence => s.settings.silenceActive == 1)
    let lost (o : Owner) : FaultFlags := if (s.entry o.index).isHeld = true ∧ 16 ≤ s.pu.notices.length then
      { s.flags with noticeLost := true } else s.flags
    let at' := (s.runTo tEnd).setKey key { s.au.key key with accepted := active, timer := none }
    let press := active = true ∧ (s.au.key key).accepted = false
    let run := exec (.debounceEnd key) s
    (¬ press → run = .next at')
    ∧ (press → s.au.owner = none → run = .next (match key with
        | .ack => at'.count .idleKey
        | .silence => at'))
    ∧ (press → key = .ack → ∀ o, s.au.owner = some o → o.index < s.table.length → ∃ t, run = .next t
        ∧ (t.entry o.index).state = .closed ∧ (t.entry o.index).closureReason = some .acknowledged
        ∧ (t.entry o.index).closureTime = some at'.uptime
        ∧ (t.entry o.index).heldWhenAcknowledged = (s.entry o.index).isHeld
        ∧ (t.entry o.index).map = (s.entry o.index).map
        ∧ (∀ j, j ≠ o.index → (t.entry j).soundsLike (s.entry j))
        ∧ t.pu.notices = (if (s.entry o.index).isHeld = true ∧ s.pu.notices.length < 16 then
            s.pu.notices ++ [⟨.keyAck, ⟨o.index, (s.entry o.index).generation⟩, none⟩] else s.pu.notices)
        ∧ t.flags = lost o
        ∧ (∀ k, (s.entry o.index).claimSlot = some k → t.pu.slots = s.pu.slots.set k none)
        ∧ ((s.entry o.index).claimSlot = none → t.pu.slots = s.pu.slots)
        ∧ (∀ issue, (s.entry o.index).issue = some issue →
            at'.ackTaken t issue ((s.entry o.index).precedence.getD 0))
        ∧ ∀ p, t.au.owner = some p → p.index ≠ o.index)
    ∧ (press → key = .silence → ∀ o, s.au.owner = some o → ∃ t, run = .next t
        ∧ t.table = s.table.map (fun e => { e with sounded := e.sounded || e.eligible s.pu.threshold })
        ∧ t.au.owner = none ∧ t.au.cadence = none
        ∧ t.pu.notices = (if (s.entry o.index).isHeld = true ∧ s.pu.notices.length < 16 then
            s.pu.notices ++ [⟨.keySilence, ⟨o.index, (s.entry o.index).generation⟩, none⟩] else s.pu.notices)
        ∧ t.flags = lost o ∧ t.pu.slots = s.pu.slots
        ∧ s.onlyChanges [.tb, .table, .pu, .au, .flags] t))

/-! ### Encodings -/

/-- Building and reading a fragment record agree: every well-formed fragment is read back from its bytes, with every
field at every value the layout admits, and every record that is read is the bytes of the fragment it is read as. -/
def Obligations.FragmentEncodingAgrees : Prop :=
  (∀ f : Fragment, f.issue.key.origin ≠ 0 → f.index < f.total → f.total ≤ 16 → f.duration ≠ 0 → f.areas.length ≤ 8 →
    (f.areas = [] ∨ f.index = 0) → (∀ d ∈ f.areas, 1 ≤ d.depth ∧ d.depth ≤ 4) → f.payload.length ≤ 48 →
    parseFragment f.bytes = some f ∧ f.bytes.length = 17 + 5 * f.areas.length + f.payload.length)
  ∧ ∀ record f, parseFragment record = some f → f.bytes = record ∧ f.issue.key.origin ≠ 0 ∧ f.index < f.total
      ∧ f.total ≤ 16 ∧ f.duration ≠ 0 ∧ f.areas.length ≤ 8 ∧ (f.areas = [] ∨ f.index = 0)
      ∧ (∀ d ∈ f.areas, 1 ≤ d.depth ∧ d.depth ≤ 4) ∧ f.payload.length ≤ 48

/-- Building and reading a relay frame agree: a frame of any kind, good sender tag and allowed body passes the filter
with its parts; and each kind of body is read back from what it was built of.  Building and reading the records of the
two wire links agree: the framer finds a record whole, its check passes, and each kind of request is read back with
its parameters. -/
def Obligations.FrameAndRecordEncodingsAgree : Prop :=
  ((∀ kind sender body, bodyGood kind body = true → tagGood sender = true →
    parseFrame (frameBytes kind sender body) = some ⟨kind, sender, body, frameCheck kind sender body⟩
      ∧ (frameBytes kind sender body).length = body.length + 10)
  ∧ ∀ issue : Issue, issue.key.origin ≠ 0 →
    parseIssue (Payload.yield issue).body = some issue ∧ bodyGood .yield (Payload.yield issue).body = true
    ∧ (∀ total category, 1 ≤ total → total ≤ 16 →
        parseOffer (Payload.offer issue total category).body = some (issue, total, category)
        ∧ bodyGood .offer (Payload.offer issue total category).body = true)
    ∧ (∀ wanted, wanted ≠ 0 → parseWant (Payload.want issue wanted).body = some (issue, wanted)
        ∧ bodyGood .want (Payload.want issue wanted).body = true)
    ∧ (∀ bid size, bid ≤ 65535 → 1 ≤ size → size ≤ 64 →
        parseStand (Payload.stand issue bid size).body = some (issue, bid, size)
        ∧ bodyGood .stand (Payload.stand issue bid size).body = true)
    ∧ (∀ items : List Item, 1 ≤ items.length → items.length ≤ 16 →
        (∀ x ∈ items, tagGood x.tag = true ∧ x.status ≠ .none) →
        parseTally (Payload.tally issue items).body = some (issue, items)
        ∧ bodyGood .tally (Payload.tally issue items).body = true)
    ∧ (∀ level part (tags : List Word32), level ≠ .none → 1 ≤ tags.length → tags.length ≤ 24 →
        (∀ x ∈ tags, tagGood x = true) →
        parseCovered (Payload.covered issue level part tags).body = some (issue, level, tags)
        ∧ bodyGood .covered (Payload.covered issue level part tags).body = true))
  ∧ ((∀ kind body, body.length ≤ 6 → Framer.feed requestMost .idle (linkRecord kind body)
      = (.idle, [.record (linkRecord kind body)]) ∧ recordCheckGood (linkRecord kind body) = true
      ∧ requestKind (linkRecord kind body) = kind ∧ recordBody (linkRecord kind body) = body)
  ∧ (∀ kind body, body.length ≤ 105 → Framer.feed modemMost .idle (linkRecord kind body)
      = (.idle, [.record (linkRecord kind body)]) ∧ judgeModem (linkRecord kind body) = modemRecord kind body)
  ∧ ∀ (seq i g a b c : Byte) (w : Word16),
    judgeRequest (linkRecord 0x21 [seq]) = some .claim
    ∧ judgeRequest (linkRecord 0x22 ([seq, i, g] ++ bytes16 w ++ [c])) = some (.read ⟨i.toNat, g⟩ w.toNat c.toNat)
    ∧ judgeRequest (linkRecord 0x23 [seq, i, g]) = some (.complete ⟨i.toNat, g⟩)
    ∧ judgeRequest (linkRecord 0x24 [seq, i, g]) = some (.release ⟨i.toNat, g⟩)
    ∧ judgeRequest (linkRecord 0x25 [seq, i, g]) = some (.ack ⟨i.toNat, g⟩)
    ∧ judgeRequest (linkRecord 0x26 [seq]) = some .fetchNotice ∧ judgeRequest (linkRecord 0x27 [seq]) = some .status
    ∧ judgeRequest (linkRecord 0x28 [seq]) = some .restart
    ∧ judgeRequest (linkRecord 0x29 [seq, a]) = some (.setThreshold a.toNat)
    ∧ judgeRequest (linkRecord 0x2A [seq, b]) = some (.setOptout b))

/-! ### Laws that every step keeps -/

/-- The state after reset obeys every law. -/
def Obligations.ResetObeysLaws : Prop :=
  State.reset.Shape ∧ State.reset.InRange ∧ State.reset.PortLaw ∧ State.reset.TagLaw ∧ State.reset.EarlyLaw ∧ State.reset.SlotLaw
    ∧ State.reset.WaitLaw ∧ State.reset.ClaimLaw ∧ State.reset.OwnerLaw ∧ State.reset.OneAssembling

/-- Every step keeps the sizes of table, maps, store, cache, tallies and claim slots, and the ranges. -/
def Obligations.StepKeepsSizesAndRanges : Prop :=
  ∀ s t : State, s.Shape → s.InRange → step s = .next t → t.Shape ∧ t.InRange

/-- Every step keeps the laws of the relay channel, of the station tag, and of the requests that ended in start-up. -/
def Obligations.StepKeepsChannelLaws : Prop :=
  ∀ s t : State, s.PortLaw → s.TagLaw → s.EarlyLaw → step s = .next t → t.PortLaw ∧ t.TagLaw ∧ t.EarlyLaw

/-- Every step keeps the one-to-one match of CLAIMED entries and claim slots. -/
def Obligations.StepKeepsClaims : Prop :=
  ∀ s t : State, s.WaitLaw → s.ClaimLaw → step s = .next t → t.WaitLaw ∧ t.ClaimLaw

/-- Every step leaves the first eligible entry as the owner, with a cadence. -/
def Obligations.StepKeepsOwner : Prop :=
  ∀ s t : State, s.WaitLaw → s.OwnerLaw → step s = .next t → t.WaitLaw ∧ t.OwnerLaw

/-- Every step keeps each store slot on the free list once or in one position of one entry's map, and never both. -/
def Obligations.StepKeepsSlots : Prop :=
  ∀ s t : State, s.WaitLaw → s.OwnerLaw → s.SlotLaw → step s = .next t → t.WaitLaw ∧ t.OwnerLaw ∧ t.SlotLaw

/-- Every step keeps at most one entry ASSEMBLING for any key. -/
def Obligations.StepKeepsOneAssembling : Prop :=
  ∀ s t : State, s.OneAssembling → step s = .next t → t.OneAssembling
end

