-- ==== Sys2Proof/Laws/State.lean ====
section
/-! SUPPORT. What each update of State leaves and sets: one lemma per field per update, true by rfl. -/

namespace Sys2Proof.Machine

@[simp] theorem State.withTb_tb (s : State) (x : TimeBase) : (s.withTb x).tb = x := rfl
@[simp] theorem State.withTb_sl (s : State) (x : TimeBase) : (s.withTb x).sl = s.sl := rfl
@[simp] theorem State.withTb_settings (s : State) (x : TimeBase) : (s.withTb x).settings = s.settings := rfl
@[simp] theorem State.withTb_table (s : State) (x : TimeBase) : (s.withTb x).table = s.table := rfl
@[simp] theorem State.withTb_store (s : State) (x : TimeBase) : (s.withTb x).store = s.store := rfl
@[simp] theorem State.withTb_free (s : State) (x : TimeBase) : (s.withTb x).free = s.free := rfl
@[simp] theorem State.withTb_ar (s : State) (x : TimeBase) : (s.withTb x).ar = s.ar := rfl
@[simp] theorem State.withTb_cs (s : State) (x : TimeBase) : (s.withTb x).cs = s.cs := rfl
@[simp] theorem State.withTb_ru (s : State) (x : TimeBase) : (s.withTb x).ru = s.ru := rfl
@[simp] theorem State.withTb_pu (s : State) (x : TimeBase) : (s.withTb x).pu = s.pu := rfl
@[simp] theorem State.withTb_au (s : State) (x : TimeBase) : (s.withTb x).au = s.au := rfl
@[simp] theorem State.withTb_ml (s : State) (x : TimeBase) : (s.withTb x).ml = s.ml := rfl
@[simp] theorem State.withTb_al (s : State) (x : TimeBase) : (s.withTb x).al = s.al := rfl
@[simp] theorem State.withTb_flags (s : State) (x : TimeBase) : (s.withTb x).flags = s.flags := rfl
@[simp] theorem State.withTb_counters (s : State) (x : TimeBase) : (s.withTb x).counters = s.counters := rfl
@[simp] theorem State.withTb_pending (s : State) (x : TimeBase) : (s.withTb x).pending = s.pending := rfl

@[simp] theorem State.withSl_tb (s : State) (x : Loader) : (s.withSl x).tb = s.tb := rfl
@[simp] theorem State.withSl_sl (s : State) (x : Loader) : (s.withSl x).sl = x := rfl
@[simp] theorem State.withSl_settings (s : State) (x : Loader) : (s.withSl x).settings = s.settings := rfl
@[simp] theorem State.withSl_table (s : State) (x : Loader) : (s.withSl x).table = s.table := rfl
@[simp] theorem State.withSl_store (s : State) (x : Loader) : (s.withSl x).store = s.store := rfl
@[simp] theorem State.withSl_free (s : State) (x : Loader) : (s.withSl x).free = s.free := rfl
@[simp] theorem State.withSl_ar (s : State) (x : Loader) : (s.withSl x).ar = s.ar := rfl
@[simp] theorem State.withSl_cs (s : State) (x : Loader) : (s.withSl x).cs = s.cs := rfl
@[simp] theorem State.withSl_ru (s : State) (x : Loader) : (s.withSl x).ru = s.ru := rfl
@[simp] theorem State.withSl_pu (s : State) (x : Loader) : (s.withSl x).pu = s.pu := rfl
@[simp] theorem State.withSl_au (s : State) (x : Loader) : (s.withSl x).au = s.au := rfl
@[simp] theorem State.withSl_ml (s : State) (x : Loader) : (s.withSl x).ml = s.ml := rfl
@[simp] theorem State.withSl_al (s : State) (x : Loader) : (s.withSl x).al = s.al := rfl
@[simp] theorem State.withSl_flags (s : State) (x : Loader) : (s.withSl x).flags = s.flags := rfl
@[simp] theorem State.withSl_counters (s : State) (x : Loader) : (s.withSl x).counters = s.counters := rfl
@[simp] theorem State.withSl_pending (s : State) (x : Loader) : (s.withSl x).pending = s.pending := rfl

@[simp] theorem State.withSettings_tb (s : State) (x : Settings) : (s.withSettings x).tb = s.tb := rfl
@[simp] theorem State.withSettings_sl (s : State) (x : Settings) : (s.withSettings x).sl = s.sl := rfl
@[simp] theorem State.withSettings_settings (s : State) (x : Settings) : (s.withSettings x).settings = x := rfl
@[simp] theorem State.withSettings_table (s : State) (x : Settings) : (s.withSettings x).table = s.table := rfl
@[simp] theorem State.withSettings_store (s : State) (x : Settings) : (s.withSettings x).store = s.store := rfl
@[simp] theorem State.withSettings_free (s : State) (x : Settings) : (s.withSettings x).free = s.free := rfl
@[simp] theorem State.withSettings_ar (s : State) (x : Settings) : (s.withSettings x).ar = s.ar := rfl
@[simp] theorem State.withSettings_cs (s : State) (x : Settings) : (s.withSettings x).cs = s.cs := rfl
@[simp] theorem State.withSettings_ru (s : State) (x : Settings) : (s.withSettings x).ru = s.ru := rfl
@[simp] theorem State.withSettings_pu (s : State) (x : Settings) : (s.withSettings x).pu = s.pu := rfl
@[simp] theorem State.withSettings_au (s : State) (x : Settings) : (s.withSettings x).au = s.au := rfl
@[simp] theorem State.withSettings_ml (s : State) (x : Settings) : (s.withSettings x).ml = s.ml := rfl
@[simp] theorem State.withSettings_al (s : State) (x : Settings) : (s.withSettings x).al = s.al := rfl
@[simp] theorem State.withSettings_flags (s : State) (x : Settings) : (s.withSettings x).flags = s.flags := rfl
@[simp] theorem State.withSettings_counters (s : State) (x : Settings) : (s.withSettings x).counters = s.counters := rfl
@[simp] theorem State.withSettings_pending (s : State) (x : Settings) : (s.withSettings x).pending = s.pending := rfl

@[simp] theorem State.withTable_tb (s : State) (x : List Entry) : (s.withTable x).tb = s.tb := rfl
@[simp] theorem State.withTable_sl (s : State) (x : List Entry) : (s.withTable x).sl = s.sl := rfl
@[simp] theorem State.withTable_settings (s : State) (x : List Entry) : (s.withTable x).settings = s.settings := rfl
@[simp] theorem State.withTable_table (s : State) (x : List Entry) : (s.withTable x).table = x := rfl
@[simp] theorem State.withTable_store (s : State) (x : List Entry) : (s.withTable x).store = s.store := rfl
@[simp] theorem State.withTable_free (s : State) (x : List Entry) : (s.withTable x).free = s.free := rfl
@[simp] theorem State.withTable_ar (s : State) (x : List Entry) : (s.withTable x).ar = s.ar := rfl
@[simp] theorem State.withTable_cs (s : State) (x : List Entry) : (s.withTable x).cs = s.cs := rfl
@[simp] theorem State.withTable_ru (s : State) (x : List Entry) : (s.withTable x).ru = s.ru := rfl
@[simp] theorem State.withTable_pu (s : State) (x : List Entry) : (s.withTable x).pu = s.pu := rfl
@[simp] theorem State.withTable_au (s : State) (x : List Entry) : (s.withTable x).au = s.au := rfl
@[simp] theorem State.withTable_ml (s : State) (x : List Entry) : (s.withTable x).ml = s.ml := rfl
@[simp] theorem State.withTable_al (s : State) (x : List Entry) : (s.withTable x).al = s.al := rfl
@[simp] theorem State.withTable_flags (s : State) (x : List Entry) : (s.withTable x).flags = s.flags := rfl
@[simp] theorem State.withTable_counters (s : State) (x : List Entry) : (s.withTable x).counters = s.counters := rfl
@[simp] theorem State.withTable_pending (s : State) (x : List Entry) : (s.withTable x).pending = s.pending := rfl

@[simp] theorem State.withStore_tb (s : State) (x : Memory) : (s.withStore x).tb = s.tb := rfl
@[simp] theorem State.withStore_sl (s : State) (x : Memory) : (s.withStore x).sl = s.sl := rfl
@[simp] theorem State.withStore_settings (s : State) (x : Memory) : (s.withStore x).settings = s.settings := rfl
@[simp] theorem State.withStore_table (s : State) (x : Memory) : (s.withStore x).table = s.table := rfl
@[simp] theorem State.withStore_store (s : State) (x : Memory) : (s.withStore x).store = x := rfl
@[simp] theorem State.withStore_free (s : State) (x : Memory) : (s.withStore x).free = s.free := rfl
@[simp] theorem State.withStore_ar (s : State) (x : Memory) : (s.withStore x).ar = s.ar := rfl
@[simp] theorem State.withStore_cs (s : State) (x : Memory) : (s.withStore x).cs = s.cs := rfl
@[simp] theorem State.withStore_ru (s : State) (x : Memory) : (s.withStore x).ru = s.ru := rfl
@[simp] theorem State.withStore_pu (s : State) (x : Memory) : (s.withStore x).pu = s.pu := rfl
@[simp] theorem State.withStore_au (s : State) (x : Memory) : (s.withStore x).au = s.au := rfl
@[simp] theorem State.withStore_ml (s : State) (x : Memory) : (s.withStore x).ml = s.ml := rfl
@[simp] theorem State.withStore_al (s : State) (x : Memory) : (s.withStore x).al = s.al := rfl
@[simp] theorem State.withStore_flags (s : State) (x : Memory) : (s.withStore x).flags = s.flags := rfl
@[simp] theorem State.withStore_counters (s : State) (x : Memory) : (s.withStore x).counters = s.counters := rfl
@[simp] theorem State.withStore_pending (s : State) (x : Memory) : (s.withStore x).pending = s.pending := rfl

@[simp] theorem State.withFree_tb (s : State) (x : List Nat) : (s.withFree x).tb = s.tb := rfl
@[simp] theorem State.withFree_sl (s : State) (x : List Nat) : (s.withFree x).sl = s.sl := rfl
@[simp] theorem State.withFree_settings (s : State) (x : List Nat) : (s.withFree x).settings = s.settings := rfl
@[simp] theorem State.withFree_table (s : State) (x : List Nat) : (s.withFree x).table = s.table := rfl
@[simp] theorem State.withFree_store (s : State) (x : List Nat) : (s.withFree x).store = s.store := rfl
@[simp] theorem State.withFree_free (s : State) (x : List Nat) : (s.withFree x).free = x := rfl
@[simp] theorem State.withFree_ar (s : State) (x : List Nat) : (s.withFree x).ar = s.ar := rfl
@[simp] theorem State.withFree_cs (s : State) (x : List Nat) : (s.withFree x).cs = s.cs := rfl
@[simp] theorem State.withFree_ru (s : State) (x : List Nat) : (s.withFree x).ru = s.ru := rfl
@[simp] theorem State.withFree_pu (s : State) (x : List Nat) : (s.withFree x).pu = s.pu := rfl
@[simp] theorem State.withFree_au (s : State) (x : List Nat) : (s.withFree x).au = s.au := rfl
@[simp] theorem State.withFree_ml (s : State) (x : List Nat) : (s.withFree x).ml = s.ml := rfl
@[simp] theorem State.withFree_al (s : State) (x : List Nat) : (s.withFree x).al = s.al := rfl
@[simp] theorem State.withFree_flags (s : State) (x : List Nat) : (s.withFree x).flags = s.flags := rfl
@[simp] theorem State.withFree_counters (s : State) (x : List Nat) : (s.withFree x).counters = s.counters := rfl
@[simp] theorem State.withFree_pending (s : State) (x : List Nat) : (s.withFree x).pending = s.pending := rfl

@[simp] theorem State.withAr_tb (s : State) (x : Resolver) : (s.withAr x).tb = s.tb := rfl
@[simp] theorem State.withAr_sl (s : State) (x : Resolver) : (s.withAr x).sl = s.sl := rfl
@[simp] theorem State.withAr_settings (s : State) (x : Resolver) : (s.withAr x).settings = s.settings := rfl
@[simp] theorem State.withAr_table (s : State) (x : Resolver) : (s.withAr x).table = s.table := rfl
@[simp] theorem State.withAr_store (s : State) (x : Resolver) : (s.withAr x).store = s.store := rfl
@[simp] theorem State.withAr_free (s : State) (x : Resolver) : (s.withAr x).free = s.free := rfl
@[simp] theorem State.withAr_ar (s : State) (x : Resolver) : (s.withAr x).ar = x := rfl
@[simp] theorem State.withAr_cs (s : State) (x : Resolver) : (s.withAr x).cs = s.cs := rfl
@[simp] theorem State.withAr_ru (s : State) (x : Resolver) : (s.withAr x).ru = s.ru := rfl
@[simp] theorem State.withAr_pu (s : State) (x : Resolver) : (s.withAr x).pu = s.pu := rfl
@[simp] theorem State.withAr_au (s : State) (x : Resolver) : (s.withAr x).au = s.au := rfl
@[simp] theorem State.withAr_ml (s : State) (x : Resolver) : (s.withAr x).ml = s.ml := rfl
@[simp] theorem State.withAr_al (s : State) (x : Resolver) : (s.withAr x).al = s.al := rfl
@[simp] theorem State.withAr_flags (s : State) (x : Resolver) : (s.withAr x).flags = s.flags := rfl
@[simp] theorem State.withAr_counters (s : State) (x : Resolver) : (s.withAr x).counters = s.counters := rfl
@[simp] theorem State.withAr_pending (s : State) (x : Resolver) : (s.withAr x).pending = s.pending := rfl

@[simp] theorem State.withCs_tb (s : State) (x : Station) : (s.withCs x).tb = s.tb := rfl
@[simp] theorem State.withCs_sl (s : State) (x : Station) : (s.withCs x).sl = s.sl := rfl
@[simp] theorem State.withCs_settings (s : State) (x : Station) : (s.withCs x).settings = s.settings := rfl
@[simp] theorem State.withCs_table (s : State) (x : Station) : (s.withCs x).table = s.table := rfl
@[simp] theorem State.withCs_store (s : State) (x : Station) : (s.withCs x).store = s.store := rfl
@[simp] theorem State.withCs_free (s : State) (x : Station) : (s.withCs x).free = s.free := rfl
@[simp] theorem State.withCs_ar (s : State) (x : Station) : (s.withCs x).ar = s.ar := rfl
@[simp] theorem State.withCs_cs (s : State) (x : Station) : (s.withCs x).cs = x := rfl
@[simp] theorem State.withCs_ru (s : State) (x : Station) : (s.withCs x).ru = s.ru := rfl
@[simp] theorem State.withCs_pu (s : State) (x : Station) : (s.withCs x).pu = s.pu := rfl
@[simp] theorem State.withCs_au (s : State) (x : Station) : (s.withCs x).au = s.au := rfl
@[simp] theorem State.withCs_ml (s : State) (x : Station) : (s.withCs x).ml = s.ml := rfl
@[simp] theorem State.withCs_al (s : State) (x : Station) : (s.withCs x).al = s.al := rfl
@[simp] theorem State.withCs_flags (s : State) (x : Station) : (s.withCs x).flags = s.flags := rfl
@[simp] theorem State.withCs_counters (s : State) (x : Station) : (s.withCs x).counters = s.counters := rfl
@[simp] theorem State.withCs_pending (s : State) (x : Station) : (s.withCs x).pending = s.pending := rfl

@[simp] theorem State.withRu_tb (s : State) (x : Report) : (s.withRu x).tb = s.tb := rfl
@[simp] theorem State.withRu_sl (s : State) (x : Report) : (s.withRu x).sl = s.sl := rfl
@[simp] theorem State.withRu_settings (s : State) (x : Report) : (s.withRu x).settings = s.settings := rfl
@[simp] theorem State.withRu_table (s : State) (x : Report) : (s.withRu x).table = s.table := rfl
@[simp] theorem State.withRu_store (s : State) (x : Report) : (s.withRu x).store = s.store := rfl
@[simp] theorem State.withRu_free (s : State) (x : Report) : (s.withRu x).free = s.free := rfl
@[simp] theorem State.withRu_ar (s : State) (x : Report) : (s.withRu x).ar = s.ar := rfl
@[simp] theorem State.withRu_cs (s : State) (x : Report) : (s.withRu x).cs = s.cs := rfl
@[simp] theorem State.withRu_ru (s : State) (x : Report) : (s.withRu x).ru = x := rfl
@[simp] theorem State.withRu_pu (s : State) (x : Report) : (s.withRu x).pu = s.pu := rfl
@[simp] theorem State.withRu_au (s : State) (x : Report) : (s.withRu x).au = s.au := rfl
@[simp] theorem State.withRu_ml (s : State) (x : Report) : (s.withRu x).ml = s.ml := rfl
@[simp] theorem State.withRu_al (s : State) (x : Report) : (s.withRu x).al = s.al := rfl
@[simp] theorem State.withRu_flags (s : State) (x : Report) : (s.withRu x).flags = s.flags := rfl
@[simp] theorem State.withRu_counters (s : State) (x : Report) : (s.withRu x).counters = s.counters := rfl
@[simp] theorem State.withRu_pending (s : State) (x : Report) : (s.withRu x).pending = s.pending := rfl

@[simp] theorem State.withPu_tb (s : State) (x : Presentation) : (s.withPu x).tb = s.tb := rfl
@[simp] theorem State.withPu_sl (s : State) (x : Presentation) : (s.withPu x).sl = s.sl := rfl
@[simp] theorem State.withPu_settings (s : State) (x : Presentation) : (s.withPu x).settings = s.settings := rfl
@[simp] theorem State.withPu_table (s : State) (x : Presentation) : (s.withPu x).table = s.table := rfl
@[simp] theorem State.withPu_store (s : State) (x : Presentation) : (s.withPu x).store = s.store := rfl
@[simp] theorem State.withPu_free (s : State) (x : Presentation) : (s.withPu x).free = s.free := rfl
@[simp] theorem State.withPu_ar (s : State) (x : Presentation) : (s.withPu x).ar = s.ar := rfl
@[simp] theorem State.withPu_cs (s : State) (x : Presentation) : (s.withPu x).cs = s.cs := rfl
@[simp] theorem State.withPu_ru (s : State) (x : Presentation) : (s.withPu x).ru = s.ru := rfl
@[simp] theorem State.withPu_pu (s : State) (x : Presentation) : (s.withPu x).pu = x := rfl
@[simp] theorem State.withPu_au (s : State) (x : Presentation) : (s.withPu x).au = s.au := rfl
@[simp] theorem State.withPu_ml (s : State) (x : Presentation) : (s.withPu x).ml = s.ml := rfl
@[simp] theorem State.withPu_al (s : State) (x : Presentation) : (s.withPu x).al = s.al := rfl
@[simp] theorem State.withPu_flags (s : State) (x : Presentation) : (s.withPu x).flags = s.flags := rfl
@[simp] theorem State.withPu_counters (s : State) (x : Presentation) : (s.withPu x).counters = s.counters := rfl
@[simp] theorem State.withPu_pending (s : State) (x : Presentation) : (s.withPu x).pending = s.pending := rfl

@[simp] theorem State.withAu_tb (s : State) (x : Attention) : (s.withAu x).tb = s.tb := rfl
@[simp] theorem State.withAu_sl (s : State) (x : Attention) : (s.withAu x).sl = s.sl := rfl
@[simp] theorem State.withAu_settings (s : State) (x : Attention) : (s.withAu x).settings = s.settings := rfl
@[simp] theorem State.withAu_table (s : State) (x : Attention) : (s.withAu x).table = s.table := rfl
@[simp] theorem State.withAu_store (s : State) (x : Attention) : (s.withAu x).store = s.store := rfl
@[simp] theorem State.withAu_free (s : State) (x : Attention) : (s.withAu x).free = s.free := rfl
@[simp] theorem State.withAu_ar (s : State) (x : Attention) : (s.withAu x).ar = s.ar := rfl
@[simp] theorem State.withAu_cs (s : State) (x : Attention) : (s.withAu x).cs = s.cs := rfl
@[simp] theorem State.withAu_ru (s : State) (x : Attention) : (s.withAu x).ru = s.ru := rfl
@[simp] theorem State.withAu_pu (s : State) (x : Attention) : (s.withAu x).pu = s.pu := rfl
@[simp] theorem State.withAu_au (s : State) (x : Attention) : (s.withAu x).au = x := rfl
@[simp] theorem State.withAu_ml (s : State) (x : Attention) : (s.withAu x).ml = s.ml := rfl
@[simp] theorem State.withAu_al (s : State) (x : Attention) : (s.withAu x).al = s.al := rfl
@[simp] theorem State.withAu_flags (s : State) (x : Attention) : (s.withAu x).flags = s.flags := rfl
@[simp] theorem State.withAu_counters (s : State) (x : Attention) : (s.withAu x).counters = s.counters := rfl
@[simp] theorem State.withAu_pending (s : State) (x : Attention) : (s.withAu x).pending = s.pending := rfl

@[simp] theorem State.withMl_tb (s : State) (x : ModemLink) : (s.withMl x).tb = s.tb := rfl
@[simp] theorem State.withMl_sl (s : State) (x : ModemLink) : (s.withMl x).sl = s.sl := rfl
@[simp] theorem State.withMl_settings (s : State) (x : ModemLink) : (s.withMl x).settings = s.settings := rfl
@[simp] theorem State.withMl_table (s : State) (x : ModemLink) : (s.withMl x).table = s.table := rfl
@[simp] theorem State.withMl_store (s : State) (x : ModemLink) : (s.withMl x).store = s.store := rfl
@[simp] theorem State.withMl_free (s : State) (x : ModemLink) : (s.withMl x).free = s.free := rfl
@[simp] theorem State.withMl_ar (s : State) (x : ModemLink) : (s.withMl x).ar = s.ar := rfl
@[simp] theorem State.withMl_cs (s : State) (x : ModemLink) : (s.withMl x).cs = s.cs := rfl
@[simp] theorem State.withMl_ru (s : State) (x : ModemLink) : (s.withMl x).ru = s.ru := rfl
@[simp] theorem State.withMl_pu (s : State) (x : ModemLink) : (s.withMl x).pu = s.pu := rfl
@[simp] theorem State.withMl_au (s : State) (x : ModemLink) : (s.withMl x).au = s.au := rfl
@[simp] theorem State.withMl_ml (s : State) (x : ModemLink) : (s.withMl x).ml = x := rfl
@[simp] theorem State.withMl_al (s : State) (x : ModemLink) : (s.withMl x).al = s.al := rfl
@[simp] theorem State.withMl_flags (s : State) (x : ModemLink) : (s.withMl x).flags = s.flags := rfl
@[simp] theorem State.withMl_counters (s : State) (x : ModemLink) : (s.withMl x).counters = s.counters := rfl
@[simp] theorem State.withMl_pending (s : State) (x : ModemLink) : (s.withMl x).pending = s.pending := rfl

@[simp] theorem State.withAl_tb (s : State) (x : AppLink) : (s.withAl x).tb = s.tb := rfl
@[simp] theorem State.withAl_sl (s : State) (x : AppLink) : (s.withAl x).sl = s.sl := rfl
@[simp] theorem State.withAl_settings (s : State) (x : AppLink) : (s.withAl x).settings = s.settings := rfl
@[simp] theorem State.withAl_table (s : State) (x : AppLink) : (s.withAl x).table = s.table := rfl
@[simp] theorem State.withAl_store (s : State) (x : AppLink) : (s.withAl x).store = s.store := rfl
@[simp] theorem State.withAl_free (s : State) (x : AppLink) : (s.withAl x).free = s.free := rfl
@[simp] theorem State.withAl_ar (s : State) (x : AppLink) : (s.withAl x).ar = s.ar := rfl
@[simp] theorem State.withAl_cs (s : State) (x : AppLink) : (s.withAl x).cs = s.cs := rfl
@[simp] theorem State.withAl_ru (s : State) (x : AppLink) : (s.withAl x).ru = s.ru := rfl
@[simp] theorem State.withAl_pu (s : State) (x : AppLink) : (s.withAl x).pu = s.pu := rfl
@[simp] theorem State.withAl_au (s : State) (x : AppLink) : (s.withAl x).au = s.au := rfl
@[simp] theorem State.withAl_ml (s : State) (x : AppLink) : (s.withAl x).ml = s.ml := rfl
@[simp] theorem State.withAl_al (s : State) (x : AppLink) : (s.withAl x).al = x := rfl
@[simp] theorem State.withAl_flags (s : State) (x : AppLink) : (s.withAl x).flags = s.flags := rfl
@[simp] theorem State.withAl_counters (s : State) (x : AppLink) : (s.withAl x).counters = s.counters := rfl
@[simp] theorem State.withAl_pending (s : State) (x : AppLink) : (s.withAl x).pending = s.pending := rfl

@[simp] theorem State.withFlags_tb (s : State) (x : FaultFlags) : (s.withFlags x).tb = s.tb := rfl
@[simp] theorem State.withFlags_sl (s : State) (x : FaultFlags) : (s.withFlags x).sl = s.sl := rfl
@[simp] theorem State.withFlags_settings (s : State) (x : FaultFlags) : (s.withFlags x).settings = s.settings := rfl
@[simp] theorem State.withFlags_table (s : State) (x : FaultFlags) : (s.withFlags x).table = s.table := rfl
@[simp] theorem State.withFlags_store (s : State) (x : FaultFlags) : (s.withFlags x).store = s.store := rfl
@[simp] theorem State.withFlags_free (s : State) (x : FaultFlags) : (s.withFlags x).free = s.free := rfl
@[simp] theorem State.withFlags_ar (s : State) (x : FaultFlags) : (s.withFlags x).ar = s.ar := rfl
@[simp] theorem State.withFlags_cs (s : State) (x : FaultFlags) : (s.withFlags x).cs = s.cs := rfl
@[simp] theorem State.withFlags_ru (s : State) (x : FaultFlags) : (s.withFlags x).ru = s.ru := rfl
@[simp] theorem State.withFlags_pu (s : State) (x : FaultFlags) : (s.withFlags x).pu = s.pu := rfl
@[simp] theorem State.withFlags_au (s : State) (x : FaultFlags) : (s.withFlags x).au = s.au := rfl
@[simp] theorem State.withFlags_ml (s : State) (x : FaultFlags) : (s.withFlags x).ml = s.ml := rfl
@[simp] theorem State.withFlags_al (s : State) (x : FaultFlags) : (s.withFlags x).al = s.al := rfl
@[simp] theorem State.withFlags_flags (s : State) (x : FaultFlags) : (s.withFlags x).flags = x := rfl
@[simp] theorem State.withFlags_counters (s : State) (x : FaultFlags) : (s.withFlags x).counters = s.counters := rfl
@[simp] theorem State.withFlags_pending (s : State) (x : FaultFlags) : (s.withFlags x).pending = s.pending := rfl

@[simp] theorem State.withCounters_tb (s : State) (x : Counters) : (s.withCounters x).tb = s.tb := rfl
@[simp] theorem State.withCounters_sl (s : State) (x : Counters) : (s.withCounters x).sl = s.sl := rfl
@[simp] theorem State.withCounters_settings (s : State) (x : Counters) : (s.withCounters x).settings = s.settings := rfl
@[simp] theorem State.withCounters_table (s : State) (x : Counters) : (s.withCounters x).table = s.table := rfl
@[simp] theorem State.withCounters_store (s : State) (x : Counters) : (s.withCounters x).store = s.store := rfl
@[simp] theorem State.withCounters_free (s : State) (x : Counters) : (s.withCounters x).free = s.free := rfl
@[simp] theorem State.withCounters_ar (s : State) (x : Counters) : (s.withCounters x).ar = s.ar := rfl
@[simp] theorem State.withCounters_cs (s : State) (x : Counters) : (s.withCounters x).cs = s.cs := rfl
@[simp] theorem State.withCounters_ru (s : State) (x : Counters) : (s.withCounters x).ru = s.ru := rfl
@[simp] theorem State.withCounters_pu (s : State) (x : Counters) : (s.withCounters x).pu = s.pu := rfl
@[simp] theorem State.withCounters_au (s : State) (x : Counters) : (s.withCounters x).au = s.au := rfl
@[simp] theorem State.withCounters_ml (s : State) (x : Counters) : (s.withCounters x).ml = s.ml := rfl
@[simp] theorem State.withCounters_al (s : State) (x : Counters) : (s.withCounters x).al = s.al := rfl
@[simp] theorem State.withCounters_flags (s : State) (x : Counters) : (s.withCounters x).flags = s.flags := rfl
@[simp] theorem State.withCounters_counters (s : State) (x : Counters) : (s.withCounters x).counters = x := rfl
@[simp] theorem State.withCounters_pending (s : State) (x : Counters) : (s.withCounters x).pending = s.pending := rfl

@[simp] theorem State.withPending_tb (s : State) (x : List Instr) : (s.withPending x).tb = s.tb := rfl
@[simp] theorem State.withPending_sl (s : State) (x : List Instr) : (s.withPending x).sl = s.sl := rfl
@[simp] theorem State.withPending_settings (s : State) (x : List Instr) : (s.withPending x).settings = s.settings := rfl
@[simp] theorem State.withPending_table (s : State) (x : List Instr) : (s.withPending x).table = s.table := rfl
@[simp] theorem State.withPending_store (s : State) (x : List Instr) : (s.withPending x).store = s.store := rfl
@[simp] theorem State.withPending_free (s : State) (x : List Instr) : (s.withPending x).free = s.free := rfl
@[simp] theorem State.withPending_ar (s : State) (x : List Instr) : (s.withPending x).ar = s.ar := rfl
@[simp] theorem State.withPending_cs (s : State) (x : List Instr) : (s.withPending x).cs = s.cs := rfl
@[simp] theorem State.withPending_ru (s : State) (x : List Instr) : (s.withPending x).ru = s.ru := rfl
@[simp] theorem State.withPending_pu (s : State) (x : List Instr) : (s.withPending x).pu = s.pu := rfl
@[simp] theorem State.withPending_au (s : State) (x : List Instr) : (s.withPending x).au = s.au := rfl
@[simp] theorem State.withPending_ml (s : State) (x : List Instr) : (s.withPending x).ml = s.ml := rfl
@[simp] theorem State.withPending_al (s : State) (x : List Instr) : (s.withPending x).al = s.al := rfl
@[simp] theorem State.withPending_flags (s : State) (x : List Instr) : (s.withPending x).flags = s.flags := rfl
@[simp] theorem State.withPending_counters (s : State) (x : List Instr) : (s.withPending x).counters = s.counters := rfl
@[simp] theorem State.withPending_pending (s : State) (x : List Instr) : (s.withPending x).pending = x := rfl

end Sys2Proof.Machine
end

