-- ==== Sys2Proof/Laws/Frames.lean ====
section
/-! SUPPORT. The frame of every shared operation of the relay channel, the links and the records: the parts of State it can
change.  Two lemmas each: `_frame` says it, `_keeps` lets simp pass over the operation under any larger frame -/

namespace Sys2Proof.Machine

/-! ### The algebra of frames -/

/-- Nothing changes. -/
@[simp] theorem State.onlyChanges.refl (ps : List Part) (s : State) : State.onlyChanges ps s s := by
  intro p _; cases p <;> rfl

/-- One more change after others. -/
theorem State.onlyChanges.step {ps qs : List Part} {s t u : State} (h : State.onlyChanges ps s t)
    (g : State.onlyChanges qs t u) (hq : ∀ p ∈ qs, p ∈ ps) : State.onlyChanges ps s u := by
  intro p hp
  have h1 := h p hp
  have h2 := g p (fun hq' => hp (hq p hq'))
  cases p <;> exact h2.trans h1

/-- A change within a frame can be left out. -/
theorem State.onlyChanges.iff {ps qs : List Part} {s t u : State} (g : State.onlyChanges qs t u)
    (hq : ∀ p ∈ qs, p ∈ ps) : State.onlyChanges ps s u ↔ State.onlyChanges ps s t := by
  constructor
  · intro h p hp
    have h1 := h p hp
    have h2 := g p (fun hq' => hp (hq p hq'))
    cases p <;> exact h2.symm.trans h1
  · exact fun h => h.step g hq

/-- A frame within a larger one. -/
theorem State.onlyChanges.mono {ps qs : List Part} {s t : State} (h : State.onlyChanges qs s t)
    (hq : ∀ p ∈ qs, p ∈ ps) : State.onlyChanges ps s t :=
  (State.onlyChanges.refl ps s).step h hq

/-- A fold of operations of one frame. -/
theorem State.onlyChanges.foldl {α : Type} {ps : List Part} {s : State} {f : State → α → State} (l : List α)
    (hf : ∀ s x, State.onlyChanges ps s (f s x)) : State.onlyChanges ps s (l.foldl f s) := by
  induction l generalizing s with
  | nil => exact State.onlyChanges.refl _ _
  | cons x xs ih => exact (hf s x).step ih (fun _ hp => hp)

/-- simp passes over a fold of operations of one frame. -/
@[simp] theorem State.onlyChanges.foldl_keeps {α : Type} {ps : List Part} {s t : State} {f : State → α → State}
    (l : List α) (hf : ∀ s x, State.onlyChanges ps s (f s x)) :
    State.onlyChanges ps s (l.foldl f t) ↔ State.onlyChanges ps s t :=
  State.onlyChanges.iff (State.onlyChanges.foldl l hf) (fun _ hp => hp)

/-- simp passes into both branches of a test. -/
@[simp] theorem State.onlyChanges.ite {ps : List Part} {s a b : State} {c : Prop} [Decidable c] :
    State.onlyChanges ps s (if c then a else b) ↔ if c then State.onlyChanges ps s a else State.onlyChanges ps s b := by
  split <;> rfl

/-- A timer's end changes time, and what its block changes. -/
theorem State.runsOut_frame {ps : List Part} (s : State) (at' : Nat) {act : State → State} (htb : Part.tb ∈ ps)
    (ha : ∀ s, State.onlyChanges ps s (act s)) : State.onlyChanges ps s (s.runsOut at' act) := by
  have hr : State.onlyChanges ps s (s.runTo at') := by
    intro p hp; cases p <;> first | rfl | exact absurd htb hp
  unfold State.runsOut
  split
  · exact hr.step (ha _) (fun _ hp => hp)
  · exact State.onlyChanges.refl _ _

/-! ### One update -/

theorem State.withTb_frame (s : State) (x : TimeBase) : State.onlyChanges [.tb] s (s.withTb x) := by
  intro p hp
  cases p <;> first | rfl | exact absurd (List.mem_singleton.mpr rfl) hp

@[simp] theorem State.withTb_keeps {ps : List Part} {s t : State} (x : TimeBase) (h : ∀ p ∈ [Part.tb], p ∈ ps) :
    State.onlyChanges ps s (t.withTb x) ↔ State.onlyChanges ps s t :=
  State.onlyChanges.iff (State.withTb_frame t x) h

theorem State.withSl_frame (s : State) (x : Loader) : State.onlyChanges [.sl] s (s.withSl x) := by
  intro p hp
  cases p <;> first | rfl | exact absurd (List.mem_singleton.mpr rfl) hp

@[simp] theorem State.withSl_keeps {ps : List Part} {s t : State} (x : Loader) (h : ∀ p ∈ [Part.sl], p ∈ ps) :
    State.onlyChanges ps s (t.withSl x) ↔ State.onlyChanges ps s t :=
  State.onlyChanges.iff (State.withSl_frame t x) h

theorem State.withSettings_frame (s : State) (x : Settings) : State.onlyChanges [.settings] s (s.withSettings x) := by
  intro p hp
  cases p <;> first | rfl | exact absurd (List.mem_singleton.mpr rfl) hp

@[simp] theorem State.withSettings_keeps {ps : List Part} {s t : State} (x : Settings) (h : ∀ p ∈ [Part.settings], p ∈ ps) :
    State.onlyChanges ps s (t.withSettings x) ↔ State.onlyChanges ps s t :=
  State.onlyChanges.iff (State.withSettings_frame t x) h

theorem State.withTable_frame (s : State) (x : List Entry) : State.onlyChanges [.table] s (s.withTable x) := by
  intro p hp
  cases p <;> first | rfl | exact absurd (List.mem_singleton.mpr rfl) hp

@[simp] theorem State.withTable_keeps {ps : List Part} {s t : State} (x : List Entry) (h : ∀ p ∈ [Part.table], p ∈ ps) :
    State.onlyChanges ps s (t.withTable x) ↔ State.onlyChanges ps s t :=
  State.onlyChanges.iff (State.withTable_frame t x) h

theorem State.withStore_frame (s : State) (x : Memory) : State.onlyChanges [.store] s (s.withStore x) := by
  intro p hp
  cases p <;> first | rfl | exact absurd (List.mem_singleton.mpr rfl) hp

@[simp] theorem State.withStore_keeps {ps : List Part} {s t : State} (x : Memory) (h : ∀ p ∈ [Part.store], p ∈ ps) :
    State.onlyChanges ps s (t.withStore x) ↔ State.onlyChanges ps s t :=
  State.onlyChanges.iff (State.withStore_frame t x) h

theorem State.withFree_frame (s : State) (x : List Nat) : State.onlyChanges [.free] s (s.withFree x) := by
  intro p hp
  cases p <;> first | rfl | exact absurd (List.mem_singleton.mpr rfl) hp

@[simp] theorem State.withFree_keeps {ps : List Part} {s t : State} (x : List Nat) (h : ∀ p ∈ [Part.free], p ∈ ps) :
    State.onlyChanges ps s (t.withFree x) ↔ State.onlyChanges ps s t :=
  State.onlyChanges.iff (State.withFree_frame t x) h

theorem State.withAr_frame (s : State) (x : Resolver) : State.onlyChanges [.ar] s (s.withAr x) := by
  intro p hp
  cases p <;> first | rfl | exact absurd (List.mem_singleton.mpr rfl) hp

@[simp] theorem State.withAr_keeps {ps : List Part} {s t : State} (x : Resolver) (h : ∀ p ∈ [Part.ar], p ∈ ps) :
    State.onlyChanges ps s (t.withAr x) ↔ State.onlyChanges ps s t :=
  State.onlyChanges.iff (State.withAr_frame t x) h

theorem State.withCs_frame (s : State) (x : Station) : State.onlyChanges [.cs] s (s.withCs x) := by
  intro p hp
  cases p <;> first | rfl | exact absurd (List.mem_singleton.mpr rfl) hp

@[simp] theorem State.withCs_keeps {ps : List Part} {s t : State} (x : Station) (h : ∀ p ∈ [Part.cs], p ∈ ps) :
    State.onlyChanges ps s (t.withCs x) ↔ State.onlyChanges ps s t :=
  State.onlyChanges.iff (State.withCs_frame t x) h

theorem State.withRu_frame (s : State) (x : Report) : State.onlyChanges [.ru] s (s.withRu x) := by
  intro p hp
  cases p <;> first | rfl | exact absurd (List.mem_singleton.mpr rfl) hp

@[simp] theorem State.withRu_keeps {ps : List Part} {s t : State} (x : Report) (h : ∀ p ∈ [Part.ru], p ∈ ps) :
    State.onlyChanges ps s (t.withRu x) ↔ State.onlyChanges ps s t :=
  State.onlyChanges.iff (State.withRu_frame t x) h

theorem State.withPu_frame (s : State) (x : Presentation) : State.onlyChanges [.pu] s (s.withPu x) := by
  intro p hp
  cases p <;> first | rfl | exact absurd (List.mem_singleton.mpr rfl) hp

@[simp] theorem State.withPu_keeps {ps : List Part} {s t : State} (x : Presentation) (h : ∀ p ∈ [Part.pu], p ∈ ps) :
    State.onlyChanges ps s (t.withPu x) ↔ State.onlyChanges ps s t :=
  State.onlyChanges.iff (State.withPu_frame t x) h

theorem State.withAu_frame (s : State) (x : Attention) : State.onlyChanges [.au] s (s.withAu x) := by
  intro p hp
  cases p <;> first | rfl | exact absurd (List.mem_singleton.mpr rfl) hp

@[simp] theorem State.withAu_keeps {ps : List Part} {s t : State} (x : Attention) (h : ∀ p ∈ [Part.au], p ∈ ps) :
    State.onlyChanges ps s (t.withAu x) ↔ State.onlyChanges ps s t :=
  State.onlyChanges.iff (State.withAu_frame t x) h

theorem State.withMl_frame (s : State) (x : ModemLink) : State.onlyChanges [.ml] s (s.withMl x) := by
  intro p hp
  cases p <;> first | rfl | exact absurd (List.mem_singleton.mpr rfl) hp

@[simp] theorem State.withMl_keeps {ps : List Part} {s t : State} (x : ModemLink) (h : ∀ p ∈ [Part.ml], p ∈ ps) :
    State.onlyChanges ps s (t.withMl x) ↔ State.onlyChanges ps s t :=
  State.onlyChanges.iff (State.withMl_frame t x) h

theorem State.withAl_frame (s : State) (x : AppLink) : State.onlyChanges [.al] s (s.withAl x) := by
  intro p hp
  cases p <;> first | rfl | exact absurd (List.mem_singleton.mpr rfl) hp

@[simp] theorem State.withAl_keeps {ps : List Part} {s t : State} (x : AppLink) (h : ∀ p ∈ [Part.al], p ∈ ps) :
    State.onlyChanges ps s (t.withAl x) ↔ State.onlyChanges ps s t :=
  State.onlyChanges.iff (State.withAl_frame t x) h

theorem State.withFlags_frame (s : State) (x : FaultFlags) : State.onlyChanges [.flags] s (s.withFlags x) := by
  intro p hp
  cases p <;> first | rfl | exact absurd (List.mem_singleton.mpr rfl) hp

@[simp] theorem State.withFlags_keeps {ps : List Part} {s t : State} (x : FaultFlags) (h : ∀ p ∈ [Part.flags], p ∈ ps) :
    State.onlyChanges ps s (t.withFlags x) ↔ State.onlyChanges ps s t :=
  State.onlyChanges.iff (State.withFlags_frame t x) h

theorem State.withCounters_frame (s : State) (x : Counters) : State.onlyChanges [.counters] s (s.withCounters x) := by
  intro p hp
  cases p <;> first | rfl | exact absurd (List.mem_singleton.mpr rfl) hp

@[simp] theorem State.withCounters_keeps {ps : List Part} {s t : State} (x : Counters) (h : ∀ p ∈ [Part.counters], p ∈ ps) :
    State.onlyChanges ps s (t.withCounters x) ↔ State.onlyChanges ps s t :=
  State.onlyChanges.iff (State.withCounters_frame t x) h

theorem State.withPending_frame (s : State) (x : List Instr) : State.onlyChanges [.pending] s (s.withPending x) := by
  intro p hp
  cases p <;> first | rfl | exact absurd (List.mem_singleton.mpr rfl) hp

@[simp] theorem State.withPending_keeps {ps : List Part} {s t : State} (x : List Instr) (h : ∀ p ∈ [Part.pending], p ∈ ps) :
    State.onlyChanges ps s (t.withPending x) ↔ State.onlyChanges ps s t :=
  State.onlyChanges.iff (State.withPending_frame t x) h

/-! ### Ops.lean -/

theorem State.runTo_frame (s : State) (t : Nat) :
    State.onlyChanges [.tb] s (State.runTo s t) := by
  unfold State.runTo
  simp

@[simp] theorem State.runTo_keeps {ps : List Part} {s u : State} (t : Nat) (hp : ∀ p ∈ [Part.tb], p ∈ ps) :
    State.onlyChanges ps s (State.runTo u t) ↔ State.onlyChanges ps s u :=
  State.onlyChanges.iff (State.runTo_frame u t) hp

theorem State.drew_frame (s : State) :
    State.onlyChanges [.tb] s (State.drew s) := by
  unfold State.drew
  simp

@[simp] theorem State.drew_keeps {ps : List Part} {s u : State}  (hp : ∀ p ∈ [Part.tb], p ∈ ps) :
    State.onlyChanges ps s (State.drew u) ↔ State.onlyChanges ps s u :=
  State.onlyChanges.iff (State.drew_frame u) hp

theorem State.setEntry_frame (s : State) (i : Nat) (e : Entry) :
    State.onlyChanges [.table] s (State.setEntry s i e) := by
  unfold State.setEntry
  simp

@[simp] theorem State.setEntry_keeps {ps : List Part} {s u : State} (i : Nat) (e : Entry) (hp : ∀ p ∈ [Part.table], p ∈ ps) :
    State.onlyChanges ps s (State.setEntry u i e) ↔ State.onlyChanges ps s u :=
  State.onlyChanges.iff (State.setEntry_frame u i e) hp

theorem State.modEntry_frame (s : State) (i : Nat) (f : Entry → Entry) :
    State.onlyChanges [.table] s (State.modEntry s i f) := by
  unfold State.modEntry
  simp

@[simp] theorem State.modEntry_keeps {ps : List Part} {s u : State} (i : Nat) (f : Entry → Entry) (hp : ∀ p ∈ [Part.table], p ∈ ps) :
    State.onlyChanges ps s (State.modEntry u i f) ↔ State.onlyChanges ps s u :=
  State.onlyChanges.iff (State.modEntry_frame u i f) hp

/-! ### Flags.lean -/

theorem State.flag_frame (s : State) (f : Flag) :
    State.onlyChanges [.flags] s (State.flag s f) := by
  unfold State.flag
  simp

@[simp] theorem State.flag_keeps {ps : List Part} {s u : State} (f : Flag) (hp : ∀ p ∈ [Part.flags], p ∈ ps) :
    State.onlyChanges ps s (State.flag u f) ↔ State.onlyChanges ps s u :=
  State.onlyChanges.iff (State.flag_frame u f) hp

theorem State.count_frame (s : State) (c : Counter) :
    State.onlyChanges [.counters] s (State.count s c) := by
  unfold State.count
  simp

@[simp] theorem State.count_keeps {ps : List Part} {s u : State} (c : Counter) (hp : ∀ p ∈ [Part.counters], p ∈ ps) :
    State.onlyChanges ps s (State.count u c) ↔ State.onlyChanges ps s u :=
  State.onlyChanges.iff (State.count_frame u c) hp

/-! ### Channel.lean -/

theorem State.afterTagDraw_frame (s : State) :
    State.onlyChanges [.tb] s (State.afterTagDraw s) := by
  unfold State.afterTagDraw
  repeat' split
  all_goals simp

@[simp] theorem State.afterTagDraw_keeps {ps : List Part} {s u : State}  (hp : ∀ p ∈ [Part.tb], p ∈ ps) :
    State.onlyChanges ps s (State.afterTagDraw u) ↔ State.onlyChanges ps s u :=
  State.onlyChanges.iff (State.afterTagDraw_frame u) hp

theorem State.drawTag_frame (s : State) :
    State.onlyChanges [.tb, .cs] s (State.drawTag s) := by
  unfold State.drawTag
  simp

@[simp] theorem State.drawTag_keeps {ps : List Part} {s u : State}  (hp : ∀ p ∈ [Part.tb, Part.cs], p ∈ ps) :
    State.onlyChanges ps s (State.drawTag u) ↔ State.onlyChanges ps s u :=
  State.onlyChanges.iff (State.drawTag_frame u) hp

theorem State.handOver_frame (s : State) (q : Queue) :
    State.onlyChanges [.cs] s (State.handOver s q) := by
  unfold State.handOver
  dsimp only
  repeat' split
  all_goals simp

@[simp] theorem State.handOver_keeps {ps : List Part} {s u : State} (q : Queue) (hp : ∀ p ∈ [Part.cs], p ∈ ps) :
    State.onlyChanges ps s (State.handOver u q) ↔ State.onlyChanges ps s u :=
  State.onlyChanges.iff (State.handOver_frame u q) hp

theorem State.tryHandOver_frame (s : State) :
    State.onlyChanges [.cs] s (State.tryHandOver s) := by
  unfold State.tryHandOver
  repeat' split
  all_goals simp

@[simp] theorem State.tryHandOver_keeps {ps : List Part} {s u : State}  (hp : ∀ p ∈ [Part.cs], p ∈ ps) :
    State.onlyChanges ps s (State.tryHandOver u) ↔ State.onlyChanges ps s u :=
  State.onlyChanges.iff (State.tryHandOver_frame u) hp

theorem State.contend_frame (s : State) (q : Queue) :
    State.onlyChanges [.tb, .cs] s (State.contend s q) := by
  unfold State.contend
  dsimp only
  repeat' split
  all_goals simp

@[simp] theorem State.contend_keeps {ps : List Part} {s u : State} (q : Queue) (hp : ∀ p ∈ [Part.tb, Part.cs], p ∈ ps) :
    State.onlyChanges ps s (State.contend u q) ↔ State.onlyChanges ps s u :=
  State.onlyChanges.iff (State.contend_frame u q) hp

theorem State.arbitrate_frame (s : State) :
    State.onlyChanges [.tb, .cs] s (State.arbitrate s) := by
  unfold State.arbitrate
  repeat' split
  all_goals simp

@[simp] theorem State.arbitrate_keeps {ps : List Part} {s u : State}  (hp : ∀ p ∈ [Part.tb, Part.cs], p ∈ ps) :
    State.onlyChanges ps s (State.arbitrate u) ↔ State.onlyChanges ps s u :=
  State.onlyChanges.iff (State.arbitrate_frame u) hp

theorem State.request_frame (s : State) (p : Payload) :
    State.onlyChanges [.tb, .cs, .counters] s (State.request s p) := by
  unfold State.request
  repeat' split
  all_goals simp

@[simp] theorem State.request_keeps {ps : List Part} {s u : State} (p : Payload) (hp : ∀ p ∈ [Part.tb, Part.cs, Part.counters], p ∈ ps) :
    State.onlyChanges ps s (State.request u p) ↔ State.onlyChanges ps s u :=
  State.onlyChanges.iff (State.request_frame u p) hp

theorem State.removePieces_frame (s : State) (i : Issue) (index : Option Nat) :
    State.onlyChanges [.tb, .cs] s (State.removePieces s i index) := by
  unfold State.removePieces
  repeat' split
  all_goals simp

@[simp] theorem State.removePieces_keeps {ps : List Part} {s u : State} (i : Issue) (index : Option Nat) (hp : ∀ p ∈ [Part.tb, Part.cs], p ∈ ps) :
    State.onlyChanges ps s (State.removePieces u i index) ↔ State.onlyChanges ps s u :=
  State.onlyChanges.iff (State.removePieces_frame u i index) hp

theorem State.putBack_frame (s : State) (f : InFlight) :
    State.onlyChanges [.cs] s (State.putBack s f) := by
  unfold State.putBack
  dsimp only
  repeat' split
  all_goals simp

@[simp] theorem State.putBack_keeps {ps : List Part} {s u : State} (f : InFlight) (hp : ∀ p ∈ [Part.cs], p ∈ ps) :
    State.onlyChanges ps s (State.putBack u f) ↔ State.onlyChanges ps s u :=
  State.onlyChanges.iff (State.putBack_frame u f) hp

theorem State.contendAfterLoss_frame (s : State) (f : InFlight) :
    State.onlyChanges [.tb, .cs] s (State.contendAfterLoss s f) := by
  unfold State.contendAfterLoss
  repeat' split
  all_goals simp

@[simp] theorem State.contendAfterLoss_keeps {ps : List Part} {s u : State} (f : InFlight) (hp : ∀ p ∈ [Part.tb, Part.cs], p ∈ ps) :
    State.onlyChanges ps s (State.contendAfterLoss u f) ↔ State.onlyChanges ps s u :=
  State.onlyChanges.iff (State.contendAfterLoss_frame u f) hp

/-! ### ModemSend.lean -/

theorem State.sendQuery_frame (s : State) (cell : Word32) :
    State.onlyChanges [.ml] s (State.sendQuery s cell) := by
  unfold State.sendQuery
  simp

@[simp] theorem State.sendQuery_keeps {ps : List Part} {s u : State} (cell : Word32) (hp : ∀ p ∈ [Part.ml], p ∈ ps) :
    State.onlyChanges ps s (State.sendQuery u cell) ↔ State.onlyChanges ps s u :=
  State.onlyChanges.iff (State.sendQuery_frame u cell) hp

theorem State.sendUplink_frame (s : State) (i : Issue) (reporter : Word32) (items : List Item) :
    State.onlyChanges [.ml] s (State.sendUplink s i reporter items) := by
  unfold State.sendUplink
  simp

@[simp] theorem State.sendUplink_keeps {ps : List Part} {s u : State} (i : Issue) (reporter : Word32) (items : List Item) (hp : ∀ p ∈ [Part.ml], p ∈ ps) :
    State.onlyChanges ps s (State.sendUplink u i reporter items) ↔ State.onlyChanges ps s u :=
  State.onlyChanges.iff (State.sendUplink_frame u i reporter items) hp

theorem State.clearQuery_frame (s : State) :
    State.onlyChanges [.ml] s (State.clearQuery s) := by
  unfold State.clearQuery
  simp

@[simp] theorem State.clearQuery_keeps {ps : List Part} {s u : State}  (hp : ∀ p ∈ [Part.ml], p ∈ ps) :
    State.onlyChanges ps s (State.clearQuery u) ↔ State.onlyChanges ps s u :=
  State.onlyChanges.iff (State.clearQuery_frame u) hp

theorem State.clearUplink_frame (s : State) :
    State.onlyChanges [.ml] s (State.clearUplink s) := by
  unfold State.clearUplink
  simp

@[simp] theorem State.clearUplink_keeps {ps : List Part} {s u : State}  (hp : ∀ p ∈ [Part.ml], p ∈ ps) :
    State.onlyChanges ps s (State.clearUplink u) ↔ State.onlyChanges ps s u :=
  State.onlyChanges.iff (State.clearUplink_frame u) hp

/-! ### Records.lean -/

theorem State.beginInterval_frame (s : State) (i interval : Nat) :
    State.onlyChanges [.tb, .table] s (State.beginInterval s i interval) := by
  unfold State.beginInterval
  simp

@[simp] theorem State.beginInterval_keeps {ps : List Part} {s u : State} (i interval : Nat) (hp : ∀ p ∈ [Part.tb, Part.table], p ∈ ps) :
    State.onlyChanges ps s (State.beginInterval u i interval) ↔ State.onlyChanges ps s u :=
  State.onlyChanges.iff (State.beginInterval_frame u i interval) hp

theorem State.startOffer_frame (s : State) (i : Nat) :
    State.onlyChanges [.tb, .table] s (State.startOffer s i) := by
  unfold State.startOffer
  simp

@[simp] theorem State.startOffer_keeps {ps : List Part} {s u : State} (i : Nat) (hp : ∀ p ∈ [Part.tb, Part.table], p ∈ ps) :
    State.onlyChanges ps s (State.startOffer u i) ↔ State.onlyChanges ps s u :=
  State.onlyChanges.iff (State.startOffer_frame u i) hp

theorem State.resetOffer_frame (s : State) (i : Nat) :
    State.onlyChanges [.tb, .table] s (State.resetOffer s i) := by
  unfold State.resetOffer
  repeat' split
  all_goals simp

@[simp] theorem State.resetOffer_keeps {ps : List Part} {s u : State} (i : Nat) (hp : ∀ p ∈ [Part.tb, Part.table], p ∈ ps) :
    State.onlyChanges ps s (State.resetOffer u i) ↔ State.onlyChanges ps s u :=
  State.onlyChanges.iff (State.resetOffer_frame u i) hp

theorem State.heardOffer_frame (s : State) (i : Nat) :
    State.onlyChanges [.table] s (State.heardOffer s i) := by
  unfold State.heardOffer
  simp

@[simp] theorem State.heardOffer_keeps {ps : List Part} {s u : State} (i : Nat) (hp : ∀ p ∈ [Part.table], p ∈ ps) :
    State.onlyChanges ps s (State.heardOffer u i) ↔ State.onlyChanges ps s u :=
  State.onlyChanges.iff (State.heardOffer_frame u i) hp

theorem State.startWant_frame (s : State) (i : Nat) :
    State.onlyChanges [.table] s (State.startWant s i) := by
  unfold State.startWant
  simp

@[simp] theorem State.startWant_keeps {ps : List Part} {s u : State} (i : Nat) (hp : ∀ p ∈ [Part.table], p ∈ ps) :
    State.onlyChanges ps s (State.startWant u i) ↔ State.onlyChanges ps s u :=
  State.onlyChanges.iff (State.startWant_frame u i) hp

theorem State.restartGap_frame (s : State) (i : Nat) :
    State.onlyChanges [.table] s (State.restartGap s i) := by
  unfold State.restartGap
  simp

@[simp] theorem State.restartGap_keeps {ps : List Part} {s u : State} (i : Nat) (hp : ∀ p ∈ [Part.table], p ∈ ps) :
    State.onlyChanges ps s (State.restartGap u i) ↔ State.onlyChanges ps s u :=
  State.onlyChanges.iff (State.restartGap_frame u i) hp

theorem State.requestWant_frame (s : State) (i : Nat) :
    State.onlyChanges [.tb, .cs, .counters] s (State.requestWant s i) := by
  unfold State.requestWant
  repeat' split
  all_goals simp

@[simp] theorem State.requestWant_keeps {ps : List Part} {s u : State} (i : Nat) (hp : ∀ p ∈ [Part.tb, Part.cs, Part.counters], p ∈ ps) :
    State.onlyChanges ps s (State.requestWant u i) ↔ State.onlyChanges ps s u :=
  State.onlyChanges.iff (State.requestWant_frame u i) hp

theorem State.requestOffer_frame (s : State) (i : Nat) :
    State.onlyChanges [.tb, .cs, .counters] s (State.requestOffer s i) := by
  unfold State.requestOffer
  repeat' split
  all_goals simp

@[simp] theorem State.requestOffer_keeps {ps : List Part} {s u : State} (i : Nat) (hp : ∀ p ∈ [Part.tb, Part.cs, Part.counters], p ∈ ps) :
    State.onlyChanges ps s (State.requestOffer u i) ↔ State.onlyChanges ps s u :=
  State.onlyChanges.iff (State.requestOffer_frame u i) hp

theorem State.wantSent_frame (s : State) (issue : Issue) :
    State.onlyChanges [.table] s (State.wantSent s issue) := by
  unfold State.wantSent
  repeat' split
  all_goals simp

@[simp] theorem State.wantSent_keeps {ps : List Part} {s u : State} (issue : Issue) (hp : ∀ p ∈ [Part.table], p ∈ ps) :
    State.onlyChanges ps s (State.wantSent u issue) ↔ State.onlyChanges ps s u :=
  State.onlyChanges.iff (State.wantSent_frame u issue) hp

theorem State.relayAvailable_frame (s : State) :
    State.onlyChanges [.tb, .table, .cs, .counters] s (State.relayAvailable s) := by
  unfold State.relayAvailable
  dsimp only
  simp

@[simp] theorem State.relayAvailable_keeps {ps : List Part} {s u : State}  (hp : ∀ p ∈ [Part.tb, Part.table, Part.cs, Part.counters], p ∈ ps) :
    State.onlyChanges ps s (State.relayAvailable u) ↔ State.onlyChanges ps s u :=
  State.onlyChanges.iff (State.relayAvailable_frame u) hp

/-! ### Report.lean -/

theorem State.setTally_frame (s : State) (t : Nat) (y : Option Tally) :
    State.onlyChanges [.ru] s (State.setTally s t y) := by
  unfold State.setTally
  simp

@[simp] theorem State.setTally_keeps {ps : List Part} {s u : State} (t : Nat) (y : Option Tally) (hp : ∀ p ∈ [Part.ru], p ∈ ps) :
    State.onlyChanges ps s (State.setTally u t y) ↔ State.onlyChanges ps s u :=
  State.onlyChanges.iff (State.setTally_frame u t y) hp

theorem State.modTally_frame (s : State) (t : Nat) (f : Tally → Tally) :
    State.onlyChanges [.ru] s (State.modTally s t f) := by
  unfold State.modTally
  repeat' split
  all_goals simp

@[simp] theorem State.modTally_keeps {ps : List Part} {s u : State} (t : Nat) (f : Tally → Tally) (hp : ∀ p ∈ [Part.ru], p ∈ ps) :
    State.onlyChanges ps s (State.modTally u t f) ↔ State.onlyChanges ps s u :=
  State.onlyChanges.iff (State.modTally_frame u t f) hp

theorem State.enterWaiting_frame (s : State) (t : Nat) :
    State.onlyChanges [.tb, .ru] s (State.enterWaiting s t) := by
  unfold State.enterWaiting
  dsimp only
  repeat' split
  all_goals simp

@[simp] theorem State.enterWaiting_keeps {ps : List Part} {s u : State} (t : Nat) (hp : ∀ p ∈ [Part.tb, Part.ru], p ∈ ps) :
    State.onlyChanges ps s (State.enterWaiting u t) ↔ State.onlyChanges ps s u :=
  State.onlyChanges.iff (State.enterWaiting_frame u t) hp

theorem State.takeTally_frame (s : State) (t : Nat) (i : Issue) (level : Level) :
    State.onlyChanges [.tb, .ru] s (State.takeTally s t i level) := by
  unfold State.takeTally
  simp

@[simp] theorem State.takeTally_keeps {ps : List Part} {s u : State} (t : Nat) (i : Issue) (level : Level) (hp : ∀ p ∈ [Part.tb, Part.ru], p ∈ ps) :
    State.onlyChanges ps s (State.takeTally u t i level) ↔ State.onlyChanges ps s u :=
  State.onlyChanges.iff (State.takeTally_frame u t i level) hp

theorem State.serveDeferred_frame (s : State) (t : Nat) :
    State.onlyChanges [.tb, .ru] s (State.serveDeferred s t) := by
  unfold State.serveDeferred
  repeat' split
  all_goals simp

@[simp] theorem State.serveDeferred_keeps {ps : List Part} {s u : State} (t : Nat) (hp : ∀ p ∈ [Part.tb, Part.ru], p ∈ ps) :
    State.onlyChanges ps s (State.serveDeferred u t) ↔ State.onlyChanges ps s u :=
  State.onlyChanges.iff (State.serveDeferred_frame u t) hp

theorem State.freeTally_frame (s : State) (t : Nat) :
    State.onlyChanges [.tb, .ru] s (State.freeTally s t) := by
  unfold State.freeTally
  simp

@[simp] theorem State.freeTally_keeps {ps : List Part} {s u : State} (t : Nat) (hp : ∀ p ∈ [Part.tb, Part.ru], p ∈ ps) :
    State.onlyChanges ps s (State.freeTally u t) ↔ State.onlyChanges ps s u :=
  State.onlyChanges.iff (State.freeTally_frame u t) hp

theorem State.settle_frame (s : State) (t : Nat) :
    State.onlyChanges [.tb, .ru] s (State.settle s t) := by
  unfold State.settle
  repeat' split
  all_goals simp

@[simp] theorem State.settle_keeps {ps : List Part} {s u : State} (t : Nat) (hp : ∀ p ∈ [Part.tb, Part.ru], p ∈ ps) :
    State.onlyChanges ps s (State.settle u t) ↔ State.onlyChanges ps s u :=
  State.onlyChanges.iff (State.settle_frame u t) hp

theorem State.takeOrDefer_frame (s : State) (i : Issue) (precedence : Nat) (level : Level) :
    State.onlyChanges [.tb, .ru] s (State.takeOrDefer s i precedence level) := by
  unfold State.takeOrDefer
  repeat' split
  all_goals simp

@[simp] theorem State.takeOrDefer_keeps {ps : List Part} {s u : State} (i : Issue) (precedence : Nat) (level : Level) (hp : ∀ p ∈ [Part.tb, Part.ru], p ∈ ps) :
    State.onlyChanges ps s (State.takeOrDefer u i precedence level) ↔ State.onlyChanges ps s u :=
  State.onlyChanges.iff (State.takeOrDefer_frame u i precedence level) hp

theorem State.receiptEvent_frame (s : State) (i : Issue) (precedence : Nat) :
    State.onlyChanges [.tb, .ru] s (State.receiptEvent s i precedence) := by
  unfold State.receiptEvent
  repeat' split
  all_goals simp

@[simp] theorem State.receiptEvent_keeps {ps : List Part} {s u : State} (i : Issue) (precedence : Nat) (hp : ∀ p ∈ [Part.tb, Part.ru], p ∈ ps) :
    State.onlyChanges ps s (State.receiptEvent u i precedence) ↔ State.onlyChanges ps s u :=
  State.onlyChanges.iff (State.receiptEvent_frame u i precedence) hp

theorem State.receiptEvents_frame (s : State) (rs : List Receipt) :
    State.onlyChanges [.tb, .ru] s (State.receiptEvents s rs) := by
  unfold State.receiptEvents
  simp

@[simp] theorem State.receiptEvents_keeps {ps : List Part} {s u : State} (rs : List Receipt) (hp : ∀ p ∈ [Part.tb, Part.ru], p ∈ ps) :
    State.onlyChanges ps s (State.receiptEvents u rs) ↔ State.onlyChanges ps s u :=
  State.onlyChanges.iff (State.receiptEvents_frame u rs) hp

theorem State.requestTally_frame (s : State) (t : Nat) :
    State.onlyChanges [.tb, .cs, .counters] s (State.requestTally s t) := by
  unfold State.requestTally
  repeat' split
  all_goals simp

@[simp] theorem State.requestTally_keeps {ps : List Part} {s u : State} (t : Nat) (hp : ∀ p ∈ [Part.tb, Part.cs, Part.counters], p ∈ ps) :
    State.onlyChanges ps s (State.requestTally u t) ↔ State.onlyChanges ps s u :=
  State.onlyChanges.iff (State.requestTally_frame u t) hp

theorem State.ackEvent_frame (s : State) (i : Issue) (precedence : Nat) :
    State.onlyChanges [.tb, .cs, .ru, .counters] s (State.ackEvent s i precedence) := by
  unfold State.ackEvent
  dsimp only
  repeat' split
  all_goals simp

@[simp] theorem State.ackEvent_keeps {ps : List Part} {s u : State} (i : Issue) (precedence : Nat) (hp : ∀ p ∈ [Part.tb, Part.cs, Part.ru, Part.counters], p ∈ ps) :
    State.onlyChanges ps s (State.ackEvent u i precedence) ↔ State.onlyChanges ps s u :=
  State.onlyChanges.iff (State.ackEvent_frame u i precedence) hp

theorem State.leaveUplink_frame (s : State) (t : Nat) :
    State.onlyChanges [.tb, .ru] s (State.leaveUplink s t) := by
  unfold State.leaveUplink
  repeat' split
  all_goals simp

@[simp] theorem State.leaveUplink_keeps {ps : List Part} {s u : State} (t : Nat) (hp : ∀ p ∈ [Part.tb, Part.ru], p ∈ ps) :
    State.onlyChanges ps s (State.leaveUplink u t) ↔ State.onlyChanges ps s u :=
  State.onlyChanges.iff (State.leaveUplink_frame u t) hp

theorem State.uplinkAccepted_frame (s : State) (t : Nat) (items : List Item) :
    State.onlyChanges [.tb, .cs, .ru, .counters] s (State.uplinkAccepted s t items) := by
  unfold State.uplinkAccepted
  repeat' split
  all_goals simp

@[simp] theorem State.uplinkAccepted_keeps {ps : List Part} {s u : State} (t : Nat) (items : List Item) (hp : ∀ p ∈ [Part.tb, Part.cs, Part.ru, Part.counters], p ∈ ps) :
    State.onlyChanges ps s (State.uplinkAccepted u t items) ↔ State.onlyChanges ps s u :=
  State.onlyChanges.iff (State.uplinkAccepted_frame u t items) hp

theorem State.uplinkFailed_frame (s : State) (t : Nat) :
    State.onlyChanges [.tb, .cs, .ru, .counters] s (State.uplinkFailed s t) := by
  unfold State.uplinkFailed
  dsimp only
  repeat' split
  all_goals simp

@[simp] theorem State.uplinkFailed_keeps {ps : List Part} {s u : State} (t : Nat) (hp : ∀ p ∈ [Part.tb, Part.cs, Part.ru, Part.counters], p ∈ ps) :
    State.onlyChanges ps s (State.uplinkFailed u t) ↔ State.onlyChanges ps s u :=
  State.onlyChanges.iff (State.uplinkFailed_frame u t) hp

theorem State.sendDigest_frame (s : State) (t : Nat) :
    State.onlyChanges [.tb, .cs, .ru, .ml, .counters] s (State.sendDigest s t) := by
  unfold State.sendDigest
  repeat' split
  all_goals simp

@[simp] theorem State.sendDigest_keeps {ps : List Part} {s u : State} (t : Nat) (hp : ∀ p ∈ [Part.tb, Part.cs, Part.ru, Part.ml, Part.counters], p ∈ ps) :
    State.onlyChanges ps s (State.sendDigest u t) ↔ State.onlyChanges ps s u :=
  State.onlyChanges.iff (State.sendDigest_frame u t) hp

theorem State.serveUplinks_frame (n : Nat) (s : State) :
    State.onlyChanges [.tb, .cs, .ru, .ml, .counters] s (State.serveUplinks n s) := by
  induction n generalizing s with
  | zero => simp [State.serveUplinks]
  | succ n ih =>
    unfold State.serveUplinks
    dsimp only
    repeat' split
    all_goals simp [(State.onlyChanges.iff (ih _) (fun _ hp => hp))]

@[simp] theorem State.serveUplinks_keeps {ps : List Part} {s u : State} (n : Nat) (hp : ∀ p ∈ [Part.tb, Part.cs, Part.ru, Part.ml, Part.counters], p ∈ ps) :
    State.onlyChanges ps s (State.serveUplinks n u) ↔ State.onlyChanges ps s u :=
  State.onlyChanges.iff (State.serveUplinks_frame n u) hp

theorem State.nextUplink_frame (s : State) :
    State.onlyChanges [.tb, .cs, .ru, .ml, .counters] s (State.nextUplink s) := by
  unfold State.nextUplink
  simp

@[simp] theorem State.nextUplink_keeps {ps : List Part} {s u : State}  (hp : ∀ p ∈ [Part.tb, Part.cs, Part.ru, Part.ml, Part.counters], p ∈ ps) :
    State.onlyChanges ps s (State.nextUplink u) ↔ State.onlyChanges ps s u :=
  State.onlyChanges.iff (State.nextUplink_frame u) hp

theorem State.joinUplink_frame (s : State) (t : Nat) :
    State.onlyChanges [.tb, .cs, .ru, .ml, .counters] s (State.joinUplink s t) := by
  unfold State.joinUplink
  dsimp only
  simp

@[simp] theorem State.joinUplink_keeps {ps : List Part} {s u : State} (t : Nat) (hp : ∀ p ∈ [Part.tb, Part.cs, Part.ru, Part.ml, Part.counters], p ∈ ps) :
    State.onlyChanges ps s (State.joinUplink u t) ↔ State.onlyChanges ps s u :=
  State.onlyChanges.iff (State.joinUplink_frame u t) hp

theorem State.endUplink_frame (s : State) (accepted : Bool) :
    State.onlyChanges [.tb, .cs, .ru, .ml, .counters] s (State.endUplink s accepted) := by
  unfold State.endUplink
  dsimp only
  repeat' split
  all_goals simp

@[simp] theorem State.endUplink_keeps {ps : List Part} {s u : State} (accepted : Bool) (hp : ∀ p ∈ [Part.tb, Part.cs, Part.ru, Part.ml, Part.counters], p ∈ ps) :
    State.onlyChanges ps s (State.endUplink u accepted) ↔ State.onlyChanges ps s u :=
  State.onlyChanges.iff (State.endUplink_frame u accepted) hp

theorem State.heardStand_frame (s : State) (sender : Word32) (i : Issue) (bid size : Nat) :
    State.onlyChanges [.tb, .cs, .ru, .counters] s (State.heardStand s sender i bid size) := by
  unfold State.heardStand
  dsimp only
  repeat' split
  all_goals simp

@[simp] theorem State.heardStand_keeps {ps : List Part} {s u : State} (sender : Word32) (i : Issue) (bid size : Nat) (hp : ∀ p ∈ [Part.tb, Part.cs, Part.ru, Part.counters], p ∈ ps) :
    State.onlyChanges ps s (State.heardStand u sender i bid size) ↔ State.onlyChanges ps s u :=
  State.onlyChanges.iff (State.heardStand_frame u sender i bid size) hp

theorem State.heardTally_frame (s : State) (i : Issue) (items : List Item) :
    State.onlyChanges [.tb, .cs, .ru, .ml, .counters] s (State.heardTally s i items) := by
  unfold State.heardTally
  dsimp only
  repeat' split
  all_goals simp

@[simp] theorem State.heardTally_keeps {ps : List Part} {s u : State} (i : Issue) (items : List Item) (hp : ∀ p ∈ [Part.tb, Part.cs, Part.ru, Part.ml, Part.counters], p ∈ ps) :
    State.onlyChanges ps s (State.heardTally u i items) ↔ State.onlyChanges ps s u :=
  State.onlyChanges.iff (State.heardTally_frame u i items) hp

theorem State.heardCovered_frame (s : State) (i : Issue) (level : Level) (tags : List Word32) :
    State.onlyChanges [.tb, .ru] s (State.heardCovered s i level tags) := by
  unfold State.heardCovered
  dsimp only
  repeat' split
  all_goals simp

@[simp] theorem State.heardCovered_keeps {ps : List Part} {s u : State} (i : Issue) (level : Level) (tags : List Word32) (hp : ∀ p ∈ [Part.tb, Part.ru], p ∈ ps) :
    State.onlyChanges ps s (State.heardCovered u i level tags) ↔ State.onlyChanges ps s u :=
  State.onlyChanges.iff (State.heardCovered_frame u i level tags) hp

theorem State.heardYield_frame (s : State) (sender : Word32) (i : Issue) :
    State.onlyChanges [.tb, .ru] s (State.heardYield s sender i) := by
  unfold State.heardYield
  repeat' split
  all_goals simp

@[simp] theorem State.heardYield_keeps {ps : List Part} {s u : State} (sender : Word32) (i : Issue) (hp : ∀ p ∈ [Part.tb, Part.ru], p ∈ ps) :
    State.onlyChanges ps s (State.heardYield u sender i) ↔ State.onlyChanges ps s u :=
  State.onlyChanges.iff (State.heardYield_frame u sender i) hp

theorem State.entryEnds_frame (s : State) (i : Issue) (superseded : Bool) :
    State.onlyChanges [.tb, .ru] s (State.entryEnds s i superseded) := by
  unfold State.entryEnds
  dsimp only
  repeat' split
  all_goals simp

@[simp] theorem State.entryEnds_keeps {ps : List Part} {s u : State} (i : Issue) (superseded : Bool) (hp : ∀ p ∈ [Part.tb, Part.ru], p ∈ ps) :
    State.onlyChanges ps s (State.entryEnds u i superseded) ↔ State.onlyChanges ps s u :=
  State.onlyChanges.iff (State.entryEnds_frame u i superseded) hp

end Sys2Proof.Machine
end

