-- ==== Sys2Proof/Laws/FramesTable.lean ====
section
/-! SUPPORT. The frame of every shared operation of the table, presentation, attention and of each party's commands. -/

namespace Sys2Proof.Machine

/-! ### Notices.lean -/

theorem State.post_frame (s : State) (n : Notice) :
    State.onlyChanges [.pu, .flags] s (State.post s n) := by
  unfold State.post
  repeat' split
  all_goals simp

@[simp] theorem State.post_keeps {ps : List Part} {s u : State} (n : Notice) (hp : ∀ p ∈ [Part.pu, Part.flags], p ∈ ps) :
    State.onlyChanges ps s (State.post u n) ↔ State.onlyChanges ps s u :=
  State.onlyChanges.iff (State.post_frame u n) hp

theorem State.postIfHeld_frame (s : State) (i : Nat) (kind : NoticeKind) (successor : Option Nat) :
    State.onlyChanges [.pu, .flags] s (State.postIfHeld s i kind successor) := by
  unfold State.postIfHeld
  repeat' split
  all_goals simp

@[simp] theorem State.postIfHeld_keeps {ps : List Part} {s u : State} (i : Nat) (kind : NoticeKind) (successor : Option Nat) (hp : ∀ p ∈ [Part.pu, Part.flags], p ∈ ps) :
    State.onlyChanges ps s (State.postIfHeld u i kind successor) ↔ State.onlyChanges ps s u :=
  State.onlyChanges.iff (State.postIfHeld_frame u i kind successor) hp

theorem State.emptySlot_frame (s : State) (i : Nat) :
    State.onlyChanges [.pu] s (State.emptySlot s i) := by
  unfold State.emptySlot
  repeat' split
  all_goals simp

@[simp] theorem State.emptySlot_keeps {ps : List Part} {s u : State} (i : Nat) (hp : ∀ p ∈ [Part.pu], p ∈ ps) :
    State.onlyChanges ps s (State.emptySlot u i) ↔ State.onlyChanges ps s u :=
  State.onlyChanges.iff (State.emptySlot_frame u i) hp

/-! ### Attend.lean -/

theorem State.setSounded_frame (s : State) (i : Nat) :
    State.onlyChanges [.table] s (State.setSounded s i) := by
  unfold State.setSounded
  simp

@[simp] theorem State.setSounded_keeps {ps : List Part} {s u : State} (i : Nat) (hp : ∀ p ∈ [Part.table], p ∈ ps) :
    State.onlyChanges ps s (State.setSounded u i) ↔ State.onlyChanges ps s u :=
  State.onlyChanges.iff (State.setSounded_frame u i) hp

theorem State.becomeOwner_frame (s : State) (i : Nat) :
    State.onlyChanges [.au] s (State.becomeOwner s i) := by
  unfold State.becomeOwner
  simp

@[simp] theorem State.becomeOwner_keeps {ps : List Part} {s u : State} (i : Nat) (hp : ∀ p ∈ [Part.au], p ∈ ps) :
    State.onlyChanges ps s (State.becomeOwner u i) ↔ State.onlyChanges ps s u :=
  State.onlyChanges.iff (State.becomeOwner_frame u i) hp

theorem State.reevaluate_frame (n : Nat) (s : State) :
    State.onlyChanges [.table, .au] s (State.reevaluate n s) := by
  induction n generalizing s with
  | zero => simp [State.reevaluate]
  | succ n ih =>
    unfold State.reevaluate
    dsimp only
    repeat' split
    all_goals simp [(State.onlyChanges.iff (ih _) (fun _ hp => hp))]

@[simp] theorem State.reevaluate_keeps {ps : List Part} {s u : State} (n : Nat) (hp : ∀ p ∈ [Part.table, Part.au], p ∈ ps) :
    State.onlyChanges ps s (State.reevaluate n u) ↔ State.onlyChanges ps s u :=
  State.onlyChanges.iff (State.reevaluate_frame n u) hp

theorem State.attend_frame (s : State) :
    State.onlyChanges [.table, .au] s (State.attend s) := by
  unfold State.attend
  simp

@[simp] theorem State.attend_keeps {ps : List Part} {s u : State}  (hp : ∀ p ∈ [Part.table, Part.au], p ∈ ps) :
    State.onlyChanges ps s (State.attend u) ↔ State.onlyChanges ps s u :=
  State.onlyChanges.iff (State.attend_frame u) hp

theorem State.completeCadence_frame (s : State) :
    State.onlyChanges [.table, .au] s (State.completeCadence s) := by
  unfold State.completeCadence
  repeat' split
  all_goals simp

@[simp] theorem State.completeCadence_keeps {ps : List Part} {s u : State}  (hp : ∀ p ∈ [Part.table, Part.au], p ∈ ps) :
    State.onlyChanges ps s (State.completeCadence u) ↔ State.onlyChanges ps s u :=
  State.onlyChanges.iff (State.completeCadence_frame u) hp

/-! ### Table.lean -/

theorem State.releaseBody_frame (s : State) (i : Nat) :
    State.onlyChanges [.tb, .table, .free, .cs] s (State.releaseBody s i) := by
  unfold State.releaseBody
  dsimp only
  repeat' split
  all_goals simp

@[simp] theorem State.releaseBody_keeps {ps : List Part} {s u : State} (i : Nat) (hp : ∀ p ∈ [Part.tb, Part.table, Part.free, Part.cs], p ∈ ps) :
    State.onlyChanges ps s (State.releaseBody u i) ↔ State.onlyChanges ps s u :=
  State.onlyChanges.iff (State.releaseBody_frame u i) hp

theorem State.leaveWaiting_frame (s : State) (i : Nat) :
    State.onlyChanges [.ar] s (State.leaveWaiting s i) := by
  unfold State.leaveWaiting
  simp

@[simp] theorem State.leaveWaiting_keeps {ps : List Part} {s u : State} (i : Nat) (hp : ∀ p ∈ [Part.ar], p ∈ ps) :
    State.onlyChanges ps s (State.leaveWaiting u i) ↔ State.onlyChanges ps s u :=
  State.onlyChanges.iff (State.leaveWaiting_frame u i) hp

theorem State.tellEnded_frame (s : State) (issue : Option Issue) (superseded : Bool) :
    State.onlyChanges [.tb, .ru] s (State.tellEnded s issue superseded) := by
  unfold State.tellEnded
  repeat' split
  all_goals simp

@[simp] theorem State.tellEnded_keeps {ps : List Part} {s u : State} (issue : Option Issue) (superseded : Bool) (hp : ∀ p ∈ [Part.tb, Part.ru], p ∈ ps) :
    State.onlyChanges ps s (State.tellEnded u issue superseded) ↔ State.onlyChanges ps s u :=
  State.onlyChanges.iff (State.tellEnded_frame u issue superseded) hp

theorem State.freeEntry_frame (s : State) (i : Nat) (superseded : Bool) :
    State.onlyChanges [.tb, .table, .free, .ar, .cs, .ru, .pu] s (State.freeEntry s i superseded) := by
  unfold State.freeEntry
  dsimp only
  simp

@[simp] theorem State.freeEntry_keeps {ps : List Part} {s u : State} (i : Nat) (superseded : Bool) (hp : ∀ p ∈ [Part.tb, Part.table, Part.free, Part.ar, Part.cs, Part.ru, Part.pu], p ∈ ps) :
    State.onlyChanges ps s (State.freeEntry u i superseded) ↔ State.onlyChanges ps s u :=
  State.onlyChanges.iff (State.freeEntry_frame u i superseded) hp

theorem State.closeEntry_frame (s : State) (i : Nat) (reason : Reason) :
    State.onlyChanges [.table, .ar, .pu] s (State.closeEntry s i reason) := by
  unfold State.closeEntry
  simp

@[simp] theorem State.closeEntry_keeps {ps : List Part} {s u : State} (i : Nat) (reason : Reason) (hp : ∀ p ∈ [Part.table, Part.ar, Part.pu], p ∈ ps) :
    State.onlyChanges ps s (State.closeEntry u i reason) ↔ State.onlyChanges ps s u :=
  State.onlyChanges.iff (State.closeEntry_frame u i reason) hp

theorem State.useEntry_frame (s : State) (i : Nat) (issue : Issue) (total : Nat) (cat : Category) (provisional : Bool) :
    State.onlyChanges [.table] s (State.useEntry s i issue total cat provisional) := by
  unfold State.useEntry
  simp

@[simp] theorem State.useEntry_keeps {ps : List Part} {s u : State} (i : Nat) (issue : Issue) (total : Nat) (cat : Category) (provisional : Bool) (hp : ∀ p ∈ [Part.table], p ∈ ps) :
    State.onlyChanges ps s (State.useEntry u i issue total cat provisional) ↔ State.onlyChanges ps s u :=
  State.onlyChanges.iff (State.useEntry_frame u i issue total cat provisional) hp

theorem State.takeEntry_frame (s : State) (issue : Issue) (total : Nat) (cat : Category) (forOffer : Bool) {k : Nat} {t : State}
 (h : State.takeEntry s issue total cat forOffer = some (k, t)) : State.onlyChanges [.tb, .table, .free, .ar, .cs, .ru, .pu] s t := by
  unfold State.takeEntry at h
  split at h
  · simp only [Option.some.injEq, Prod.mk.injEq] at h
    obtain ⟨rfl, rfl⟩ := h
    simp
  · split at h
    · simp only [Option.some.injEq, Prod.mk.injEq] at h
      obtain ⟨rfl, rfl⟩ := h
      simp
    · simp at h

theorem State.retarget_frame (s : State) (i : Nat) (issue : Issue) (total : Nat) (cat : Category) (provisional : Bool) :
    State.onlyChanges [.tb, .table, .free, .cs] s (State.retarget s i issue total cat provisional) := by
  unfold State.retarget
  simp

@[simp] theorem State.retarget_keeps {ps : List Part} {s u : State} (i : Nat) (issue : Issue) (total : Nat) (cat : Category) (provisional : Bool) (hp : ∀ p ∈ [Part.tb, Part.table, Part.free, Part.cs], p ∈ ps) :
    State.onlyChanges ps s (State.retarget u i issue total cat provisional) ↔ State.onlyChanges ps s u :=
  State.onlyChanges.iff (State.retarget_frame u i issue total cat provisional) hp

theorem State.makeRoom_frame (s : State) (key : Key) (cat : Category) {t : State} (h : State.makeRoom s key cat = some t) :
    State.onlyChanges [.tb, .table, .free, .ar, .cs, .ru, .pu] s t := by
  unfold State.makeRoom at h
  repeat' split at h
  all_goals first
    | (simp only [Option.some.injEq] at h; subst h; simp)
    | simp at h

theorem State.popSlot_frame (s : State) {k : Nat} {t : State}
 (h : State.popSlot s = some (k, t)) : State.onlyChanges [.free] s t := by
  unfold State.popSlot at h
  split at h
  · simp only [Option.some.injEq, Prod.mk.injEq] at h
    obtain ⟨rfl, rfl⟩ := h
    simp
  · simp at h

theorem State.findSlot_frame (s : State) (key : Key) (cat : Category) {k : Nat} {t : State}
 (h : State.findSlot s key cat = some (k, t)) : State.onlyChanges [.tb, .table, .free, .ar, .cs, .ru, .pu] s t := by
  unfold State.findSlot at h
  split at h
  · rename_i r hr
    simp only [Option.some.injEq] at h
    subst h
    exact (State.popSlot_frame _ hr).mono (by decide)
  · split at h
    · rename_i s1 hs1
      exact (State.makeRoom_frame _ _ _ hs1).step (State.popSlot_frame _ h) (by decide)
    · simp at h

theorem State.supersede_frame (s : State) (i : Nat) (key : Key) (kind : NoticeKind) (successor : Option Nat) :
    State.onlyChanges [.tb, .table, .free, .ar, .cs, .ru, .pu, .flags] s (State.supersede s i key kind successor) := by
  unfold State.supersede
  simp

@[simp] theorem State.supersede_keeps {ps : List Part} {s u : State} (i : Nat) (key : Key) (kind : NoticeKind) (successor : Option Nat) (hp : ∀ p ∈ [Part.tb, Part.table, Part.free, Part.ar, Part.cs, Part.ru, Part.pu, Part.flags], p ∈ ps) :
    State.onlyChanges ps s (State.supersede u i key kind successor) ↔ State.onlyChanges ps s u :=
  State.onlyChanges.iff (State.supersede_frame u i key kind successor) hp

theorem State.cancelOthers_frame (s : State) (i : Nat) (key : Key) :
    State.onlyChanges [.tb, .table, .free, .ar, .cs, .ru, .pu, .flags] s (State.cancelOthers s i key) := by
  unfold State.cancelOthers
  simp

@[simp] theorem State.cancelOthers_keeps {ps : List Part} {s u : State} (i : Nat) (key : Key) (hp : ∀ p ∈ [Part.tb, Part.table, Part.free, Part.ar, Part.cs, Part.ru, Part.pu, Part.flags], p ∈ ps) :
    State.onlyChanges ps s (State.cancelOthers u i key) ↔ State.onlyChanges ps s u :=
  State.onlyChanges.iff (State.cancelOthers_frame u i key) hp

theorem State.checkFailed_frame (s : State) (i : Nat) :
    State.onlyChanges [.tb, .table, .free, .ar, .cs, .pu, .counters] s (State.checkFailed s i) := by
  unfold State.checkFailed
  dsimp only
  repeat' split
  all_goals simp

@[simp] theorem State.checkFailed_keeps {ps : List Part} {s u : State} (i : Nat) (hp : ∀ p ∈ [Part.tb, Part.table, Part.free, Part.ar, Part.cs, Part.pu, Part.counters], p ∈ ps) :
    State.onlyChanges ps s (State.checkFailed u i) ↔ State.onlyChanges ps s u :=
  State.onlyChanges.iff (State.checkFailed_frame u i) hp

theorem State.malformedBody_frame (s : State) (i : Nat) :
    State.onlyChanges [.tb, .table, .free, .ar, .cs, .pu, .counters] s (State.malformedBody s i) := by
  unfold State.malformedBody
  simp

@[simp] theorem State.malformedBody_keeps {ps : List Part} {s u : State} (i : Nat) (hp : ∀ p ∈ [Part.tb, Part.table, Part.free, Part.ar, Part.cs, Part.pu, Part.counters], p ∈ ps) :
    State.onlyChanges ps s (State.malformedBody u i) ↔ State.onlyChanges ps s u :=
  State.onlyChanges.iff (State.malformedBody_frame u i) hp

theorem State.completeCancel_frame (s : State) (i : Nat) (issue : Issue) (life : Nat) :
    State.onlyChanges [.tb, .table, .free, .ar, .cs, .ru, .pu, .au, .flags] s (State.completeCancel s i issue life) := by
  unfold State.completeCancel
  dsimp only
  repeat' split
  all_goals simp

@[simp] theorem State.completeCancel_keeps {ps : List Part} {s u : State} (i : Nat) (issue : Issue) (life : Nat) (hp : ∀ p ∈ [Part.tb, Part.table, Part.free, Part.ar, Part.cs, Part.ru, Part.pu, Part.au, Part.flags], p ∈ ps) :
    State.onlyChanges ps s (State.completeCancel u i issue life) ↔ State.onlyChanges ps s u :=
  State.onlyChanges.iff (State.completeCancel_frame u i issue life) hp

theorem State.completeLive_frame (s : State) (i : Nat) (issue : Issue) :
    State.onlyChanges [.tb, .table, .free, .ar, .cs, .ru, .pu, .au, .flags] s (State.completeLive s i issue) := by
  unfold State.completeLive
  dsimp only
  simp

@[simp] theorem State.completeLive_keeps {ps : List Part} {s u : State} (i : Nat) (issue : Issue) (hp : ∀ p ∈ [Part.tb, Part.table, Part.free, Part.ar, Part.cs, Part.ru, Part.pu, Part.au, Part.flags], p ∈ ps) :
    State.onlyChanges ps s (State.completeLive u i issue) ↔ State.onlyChanges ps s u :=
  State.onlyChanges.iff (State.completeLive_frame u i issue) hp

theorem State.completeExpired_frame (s : State) (i : Nat) (issue : Issue) :
    State.onlyChanges [.tb, .table, .free, .ar, .cs, .ru, .pu, .au, .flags] s (State.completeExpired s i issue) := by
  unfold State.completeExpired
  dsimp only
  simp

@[simp] theorem State.completeExpired_keeps {ps : List Part} {s u : State} (i : Nat) (issue : Issue) (hp : ∀ p ∈ [Part.tb, Part.table, Part.free, Part.ar, Part.cs, Part.ru, Part.pu, Part.au, Part.flags], p ∈ ps) :
    State.onlyChanges ps s (State.completeExpired u i issue) ↔ State.onlyChanges ps s u :=
  State.onlyChanges.iff (State.completeExpired_frame u i issue) hp

theorem State.completeEntry_frame (s : State) (i : Nat) (length : Nat) :
    State.onlyChanges [.tb, .table, .free, .ar, .cs, .ru, .pu, .au, .flags] s (State.completeEntry s i length) := by
  unfold State.completeEntry
  dsimp only
  repeat' split
  all_goals simp

@[simp] theorem State.completeEntry_keeps {ps : List Part} {s u : State} (i : Nat) (length : Nat) (hp : ∀ p ∈ [Part.tb, Part.table, Part.free, Part.ar, Part.cs, Part.ru, Part.pu, Part.au, Part.flags], p ∈ ps) :
    State.onlyChanges ps s (State.completeEntry u i length) ↔ State.onlyChanges ps s u :=
  State.onlyChanges.iff (State.completeEntry_frame u i length) hp

theorem State.checkBody_frame (s : State) (i : Nat) :
    State.onlyChanges [.tb, .table, .free, .ar, .cs, .ru, .pu, .au, .flags, .counters] s (State.checkBody s i) := by
  unfold State.checkBody
  dsimp only
  repeat' split
  all_goals simp

@[simp] theorem State.checkBody_keeps {ps : List Part} {s u : State} (i : Nat) (hp : ∀ p ∈ [Part.tb, Part.table, Part.free, Part.ar, Part.cs, Part.ru, Part.pu, Part.au, Part.flags, Part.counters], p ∈ ps) :
    State.onlyChanges ps s (State.checkBody u i) ↔ State.onlyChanges ps s u :=
  State.onlyChanges.iff (State.checkBody_frame u i) hp

theorem State.returnToAssembling_frame (s : State) (i : Nat) :
    State.onlyChanges [.tb, .table, .free, .ar, .cs, .ru, .pu, .counters] s (State.returnToAssembling s i) := by
  unfold State.returnToAssembling
  repeat' split
  all_goals simp

@[simp] theorem State.returnToAssembling_keeps {ps : List Part} {s u : State} (i : Nat) (hp : ∀ p ∈ [Part.tb, Part.table, Part.free, Part.ar, Part.cs, Part.ru, Part.pu, Part.counters], p ∈ ps) :
    State.onlyChanges ps s (State.returnToAssembling u i) ↔ State.onlyChanges ps s u :=
  State.onlyChanges.iff (State.returnToAssembling_frame u i) hp

theorem State.place_frame (s : State) (i : Nat) (v : Verdict) (precedence : Nat) :
    State.onlyChanges [.table, .ar, .pu] s (State.place s i v precedence) := by
  unfold State.place
  dsimp only
  repeat' split
  all_goals simp

@[simp] theorem State.place_keeps {ps : List Part} {s u : State} (i : Nat) (v : Verdict) (precedence : Nat) (hp : ∀ p ∈ [Part.table, Part.ar, Part.pu], p ∈ ps) :
    State.onlyChanges ps s (State.place u i v precedence) ↔ State.onlyChanges ps s u :=
  State.onlyChanges.iff (State.place_frame u i v precedence) hp

theorem State.applyVerdict_frame (s : State) (i : Nat) (v : Verdict) :
    State.onlyChanges [.tb, .table, .free, .ar, .cs, .ru, .pu, .counters] s (State.applyVerdict s i v) := by
  unfold State.applyVerdict
  dsimp only
  repeat' split
  all_goals simp

@[simp] theorem State.applyVerdict_keeps {ps : List Part} {s u : State} (i : Nat) (v : Verdict) (hp : ∀ p ∈ [Part.tb, Part.table, Part.free, Part.ar, Part.cs, Part.ru, Part.pu, Part.counters], p ∈ ps) :
    State.onlyChanges ps s (State.applyVerdict u i v) ↔ State.onlyChanges ps s u :=
  State.onlyChanges.iff (State.applyVerdict_frame u i v) hp

theorem State.giveVerdicts_frame (s : State) (vs : List (Nat × Verdict)) :
    State.onlyChanges [.tb, .table, .free, .ar, .cs, .ru, .pu, .au, .counters] s (State.giveVerdicts s vs) := by
  unfold State.giveVerdicts
  dsimp only
  simp

@[simp] theorem State.giveVerdicts_keeps {ps : List Part} {s u : State} (vs : List (Nat × Verdict)) (hp : ∀ p ∈ [Part.tb, Part.table, Part.free, Part.ar, Part.cs, Part.ru, Part.pu, Part.au, Part.counters], p ∈ ps) :
    State.onlyChanges ps s (State.giveVerdicts u vs) ↔ State.onlyChanges ps s u :=
  State.onlyChanges.iff (State.giveVerdicts_frame u vs) hp

theorem State.acknowledge_frame (s : State) (i : Nat) :
    State.onlyChanges [.tb, .table, .ar, .cs, .ru, .pu, .counters] s (State.acknowledge s i) := by
  unfold State.acknowledge
  dsimp only
  repeat' split
  all_goals simp

@[simp] theorem State.acknowledge_keeps {ps : List Part} {s u : State} (i : Nat) (hp : ∀ p ∈ [Part.tb, Part.table, Part.ar, Part.cs, Part.ru, Part.pu, Part.counters], p ∈ ps) :
    State.onlyChanges ps s (State.acknowledge u i) ↔ State.onlyChanges ps s u :=
  State.onlyChanges.iff (State.acknowledge_frame u i) hp

theorem State.expire_frame (s : State) (i : Nat) :
    State.onlyChanges [.tb, .table, .free, .ar, .cs, .ru, .pu, .au, .flags] s (State.expire s i) := by
  unfold State.expire
  repeat' split
  all_goals simp

@[simp] theorem State.expire_keeps {ps : List Part} {s u : State} (i : Nat) (hp : ∀ p ∈ [Part.tb, Part.table, Part.free, Part.ar, Part.cs, Part.ru, Part.pu, Part.au, Part.flags], p ∈ ps) :
    State.onlyChanges ps s (State.expire u i) ↔ State.onlyChanges ps s u :=
  State.onlyChanges.iff (State.expire_frame u i) hp

/-! ### Intake.lean -/

theorem State.takeInto_frame (s : State) (source : Source) (f : Fragment) (slot i : Nat) :
    State.onlyChanges [.tb, .table, .store, .free, .ar, .cs, .ru, .pu, .au, .flags, .counters] s (State.takeInto s source f slot i) := by
  unfold State.takeInto
  dsimp only
  repeat' split
  all_goals simp

@[simp] theorem State.takeInto_keeps {ps : List Part} {s u : State} (source : Source) (f : Fragment) (slot i : Nat) (hp : ∀ p ∈ [Part.tb, Part.table, Part.store, Part.free, Part.ar, Part.cs, Part.ru, Part.pu, Part.au, Part.flags, Part.counters], p ∈ ps) :
    State.onlyChanges ps s (State.takeInto u source f slot i) ↔ State.onlyChanges ps s u :=
  State.onlyChanges.iff (State.takeInto_frame u source f slot i) hp

theorem State.intakeAssembling_frame (s : State) (source : Source) (f : Fragment) (i : Nat) :
    State.onlyChanges [.tb, .table, .store, .free, .ar, .cs, .ru, .pu, .au, .flags, .counters] s (State.intakeAssembling s source f i) := by
  unfold State.intakeAssembling
  dsimp only
  repeat' split
  all_goals first
    | (rename_i h; refine State.onlyChanges.step ((State.findSlot_frame _ _ _ h).mono (by decide)) (ps := _) (qs := _) ?_ (fun _ hp => hp); simp)
    | simp

@[simp] theorem State.intakeAssembling_keeps {ps : List Part} {s u : State} (source : Source) (f : Fragment) (i : Nat) (hp : ∀ p ∈ [Part.tb, Part.table, Part.store, Part.free, Part.ar, Part.cs, Part.ru, Part.pu, Part.au, Part.flags, Part.counters], p ∈ ps) :
    State.onlyChanges ps s (State.intakeAssembling u source f i) ↔ State.onlyChanges ps s u :=
  State.onlyChanges.iff (State.intakeAssembling_frame u source f i) hp

theorem State.intakeNew_frame (s : State) (source : Source) (f : Fragment) :
    State.onlyChanges [.tb, .table, .store, .free, .ar, .cs, .ru, .pu, .au, .flags, .counters] s (State.intakeNew s source f) := by
  unfold State.intakeNew
  split
  · rename_i h
    have h1 := State.findSlot_frame _ _ _ h
    split
    · rename_i h'
      have h2 := State.takeEntry_frame _ _ _ _ _ h'
      exact ((h1.mono (by decide)).step h2 (by decide)).step (State.takeInto_frame _ _ _ _ _) (fun _ hp => hp)
    · exact (((h1.mono (by decide)).step (State.withFree_frame _ _) (by decide)).step (State.flag_frame _ _)
        (by decide))
  · simp

@[simp] theorem State.intakeNew_keeps {ps : List Part} {s u : State} (source : Source) (f : Fragment) (hp : ∀ p ∈ [Part.tb, Part.table, Part.store, Part.free, Part.ar, Part.cs, Part.ru, Part.pu, Part.au, Part.flags, Part.counters], p ∈ ps) :
    State.onlyChanges ps s (State.intakeNew u source f) ↔ State.onlyChanges ps s u :=
  State.onlyChanges.iff (State.intakeNew_frame u source f) hp

theorem State.intake_frame (s : State) (source : Source) (record : List Byte) :
    State.onlyChanges [.tb, .table, .store, .free, .ar, .cs, .ru, .pu, .au, .flags, .counters] s (State.intake s source record) := by
  unfold State.intake
  repeat' split
  all_goals simp

@[simp] theorem State.intake_keeps {ps : List Part} {s u : State} (source : Source) (record : List Byte) (hp : ∀ p ∈ [Part.tb, Part.table, Part.store, Part.free, Part.ar, Part.cs, Part.ru, Part.pu, Part.au, Part.flags, Part.counters], p ∈ ps) :
    State.onlyChanges ps s (State.intake u source record) ↔ State.onlyChanges ps s u :=
  State.onlyChanges.iff (State.intake_frame u source record) hp

/-! ### Area.lean -/

theorem State.query_frame (s : State) :
    State.onlyChanges [.ar, .ml] s (State.query s) := by
  unfold State.query
  simp

@[simp] theorem State.query_keeps {ps : List Part} {s u : State}  (hp : ∀ p ∈ [Part.ar, Part.ml], p ∈ ps) :
    State.onlyChanges ps s (State.query u) ↔ State.onlyChanges ps s u :=
  State.onlyChanges.iff (State.query_frame u) hp

theorem State.queryIfNone_frame (s : State) :
    State.onlyChanges [.ar, .ml] s (State.queryIfNone s) := by
  unfold State.queryIfNone
  repeat' split
  all_goals simp

@[simp] theorem State.queryIfNone_keeps {ps : List Part} {s u : State}  (hp : ∀ p ∈ [Part.ar, Part.ml], p ∈ ps) :
    State.onlyChanges ps s (State.queryIfNone u) ↔ State.onlyChanges ps s u :=
  State.onlyChanges.iff (State.queryIfNone_frame u) hp

theorem State.joinWaiting_frame (s : State) (i : Nat) :
    State.onlyChanges [.ar, .ml] s (State.joinWaiting s i) := by
  unfold State.joinWaiting
  simp

@[simp] theorem State.joinWaiting_keeps {ps : List Part} {s u : State} (i : Nat) (hp : ∀ p ∈ [Part.ar, Part.ml], p ∈ ps) :
    State.onlyChanges ps s (State.joinWaiting u i) ↔ State.onlyChanges ps s u :=
  State.onlyChanges.iff (State.joinWaiting_frame u i) hp

theorem State.takeIn_frame (p : State × List (Nat × Verdict)) (i : Nat) :
    State.onlyChanges [.ar, .ml] p.1 (State.takeIn p i).1 := by
  unfold State.takeIn
  dsimp only
  repeat' split
  all_goals simp

theorem State.resolve_frame (s : State) (is : List Nat) :
    State.onlyChanges [.tb, .table, .free, .ar, .cs, .ru, .pu, .au, .ml, .counters] s (State.resolve s is) := by
  unfold State.resolve
  dsimp only
  have h : ∀ (l : List Nat) (p : State × List (Nat × Verdict)),
      State.onlyChanges [.ar, .ml] p.1 (l.foldl State.takeIn p).1 := by
    intro l
    induction l with
    | nil => intro p; simp
    | cons x xs ih => intro p; exact (State.takeIn_frame p x).step (ih _) (fun _ hp => hp)
  exact ((h is (s, [])).mono (by decide)).step (State.giveVerdicts_frame _ _) (by decide)

@[simp] theorem State.resolve_keeps {ps : List Part} {s u : State} (is : List Nat) (hp : ∀ p ∈ [Part.tb, Part.table, Part.free, Part.ar, Part.cs, Part.ru, Part.pu, Part.au, Part.ml, Part.counters], p ∈ ps) :
    State.onlyChanges ps s (State.resolve u is) ↔ State.onlyChanges ps s u :=
  State.onlyChanges.iff (State.resolve_frame u is) hp

theorem State.changeCell_frame (s : State) :
    State.onlyChanges [.tb, .table, .free, .ar, .cs, .ru, .pu, .au, .ml, .counters] s (State.changeCell s) := by
  unfold State.changeCell
  dsimp only
  simp

@[simp] theorem State.changeCell_keeps {ps : List Part} {s u : State}  (hp : ∀ p ∈ [Part.tb, Part.table, Part.free, Part.ar, Part.cs, Part.ru, Part.pu, Part.au, Part.ml, Part.counters], p ∈ ps) :
    State.onlyChanges ps s (State.changeCell u) ↔ State.onlyChanges ps s u :=
  State.onlyChanges.iff (State.changeCell_frame u) hp

theorem State.judgeWaiting_frame (s : State) (verdict : List Descriptor → Verdict) :
    State.onlyChanges [.tb, .table, .free, .ar, .cs, .ru, .pu, .au, .counters] s (State.judgeWaiting s verdict) := by
  unfold State.judgeWaiting
  simp

@[simp] theorem State.judgeWaiting_keeps {ps : List Part} {s u : State} (verdict : List Descriptor → Verdict) (hp : ∀ p ∈ [Part.tb, Part.table, Part.free, Part.ar, Part.cs, Part.ru, Part.pu, Part.au, Part.counters], p ∈ ps) :
    State.onlyChanges ps s (State.judgeWaiting u verdict) ↔ State.onlyChanges ps s u :=
  State.onlyChanges.iff (State.judgeWaiting_frame u verdict) hp

theorem State.endQuery_frame (s : State) :
    State.onlyChanges [.ar, .ml] s (State.endQuery s) := by
  unfold State.endQuery
  simp

@[simp] theorem State.endQuery_keeps {ps : List Part} {s u : State}  (hp : ∀ p ∈ [Part.ar, Part.ml], p ∈ ps) :
    State.onlyChanges ps s (State.endQuery u) ↔ State.onlyChanges ps s u :=
  State.onlyChanges.iff (State.endQuery_frame u) hp

theorem State.followUp_frame (s : State) :
    State.onlyChanges [.tb, .table, .free, .ar, .cs, .ru, .pu, .au, .ml, .counters] s (State.followUp s) := by
  unfold State.followUp
  repeat' split
  all_goals simp

@[simp] theorem State.followUp_keeps {ps : List Part} {s u : State}  (hp : ∀ p ∈ [Part.tb, Part.table, Part.free, Part.ar, Part.cs, Part.ru, Part.pu, Part.au, Part.ml, Part.counters], p ∈ ps) :
    State.onlyChanges ps s (State.followUp u) ↔ State.onlyChanges ps s u :=
  State.onlyChanges.iff (State.followUp_frame u) hp

theorem State.queryTimedOut_frame (s : State) :
    State.onlyChanges [.tb, .table, .free, .ar, .cs, .ru, .pu, .au, .ml, .flags, .counters] s (State.queryTimedOut s) := by
  unfold State.queryTimedOut
  dsimp only
  repeat' split
  all_goals simp

@[simp] theorem State.queryTimedOut_keeps {ps : List Part} {s u : State}  (hp : ∀ p ∈ [Part.tb, Part.table, Part.free, Part.ar, Part.cs, Part.ru, Part.pu, Part.au, Part.ml, Part.flags, Part.counters], p ∈ ps) :
    State.onlyChanges ps s (State.queryTimedOut u) ↔ State.onlyChanges ps s u :=
  State.onlyChanges.iff (State.queryTimedOut_frame u) hp

theorem State.regionAnswer_frame (s : State) (cell : Word32) (code : Option Word32) :
    State.onlyChanges [.tb, .table, .free, .ar, .cs, .ru, .pu, .au, .ml, .counters] s (State.regionAnswer s cell code) := by
  unfold State.regionAnswer
  dsimp only
  repeat' split
  all_goals simp

@[simp] theorem State.regionAnswer_keeps {ps : List Part} {s u : State} (cell : Word32) (code : Option Word32) (hp : ∀ p ∈ [Part.tb, Part.table, Part.free, Part.ar, Part.cs, Part.ru, Part.pu, Part.au, Part.ml, Part.counters], p ∈ ps) :
    State.onlyChanges ps s (State.regionAnswer u cell code) ↔ State.onlyChanges ps s u :=
  State.onlyChanges.iff (State.regionAnswer_frame u cell code) hp

theorem State.cellRecord_frame (s : State) (cell : Word32) (service quality : Byte) :
    State.onlyChanges [.tb, .table, .free, .ar, .cs, .ru, .pu, .au, .ml, .counters] s (State.cellRecord s cell service quality) := by
  unfold State.cellRecord
  dsimp only
  repeat' split
  all_goals simp

@[simp] theorem State.cellRecord_keeps {ps : List Part} {s u : State} (cell : Word32) (service quality : Byte) (hp : ∀ p ∈ [Part.tb, Part.table, Part.free, Part.ar, Part.cs, Part.ru, Part.pu, Part.au, Part.ml, Part.counters], p ∈ ps) :
    State.onlyChanges ps s (State.cellRecord u cell service quality) ↔ State.onlyChanges ps s u :=
  State.onlyChanges.iff (State.cellRecord_frame u cell service quality) hp

/-! ### Hear.lean -/

theorem State.askForAll_frame (s : State) (i : Nat) :
    State.onlyChanges [.tb, .table, .cs, .counters] s (State.askForAll s i) := by
  unfold State.askForAll
  simp

@[simp] theorem State.askForAll_keeps {ps : List Part} {s u : State} (i : Nat) (hp : ∀ p ∈ [Part.tb, Part.table, Part.cs, Part.counters], p ∈ ps) :
    State.onlyChanges ps s (State.askForAll u i) ↔ State.onlyChanges ps s u :=
  State.onlyChanges.iff (State.askForAll_frame u i) hp

theorem State.offerNew_frame (s : State) (issue : Issue) (total : Nat) (cat : Category) :
    State.onlyChanges [.tb, .table, .free, .ar, .cs, .ru, .pu, .counters] s (State.offerNew s issue total cat) := by
  unfold State.offerNew
  split
  · rename_i i s1 h
    refine State.onlyChanges.step ((State.takeEntry_frame _ _ _ _ _ h).mono (by decide)) (State.askForAll_frame _ _)
      (by decide)
  · simp

@[simp] theorem State.offerNew_keeps {ps : List Part} {s u : State} (issue : Issue) (total : Nat) (cat : Category) (hp : ∀ p ∈ [Part.tb, Part.table, Part.free, Part.ar, Part.cs, Part.ru, Part.pu, Part.counters], p ∈ ps) :
    State.onlyChanges ps s (State.offerNew u issue total cat) ↔ State.onlyChanges ps s u :=
  State.onlyChanges.iff (State.offerNew_frame u issue total cat) hp

theorem State.offerAssembling_frame (s : State) (i : Nat) (issue : Issue) (total : Nat) (cat : Category) :
    State.onlyChanges [.tb, .table, .free, .cs, .counters] s (State.offerAssembling s i issue total cat) := by
  unfold State.offerAssembling
  repeat' split
  all_goals simp

@[simp] theorem State.offerAssembling_keeps {ps : List Part} {s u : State} (i : Nat) (issue : Issue) (total : Nat) (cat : Category) (hp : ∀ p ∈ [Part.tb, Part.table, Part.free, Part.cs, Part.counters], p ∈ ps) :
    State.onlyChanges ps s (State.offerAssembling u i issue total cat) ↔ State.onlyChanges ps s u :=
  State.onlyChanges.iff (State.offerAssembling_frame u i issue total cat) hp

theorem State.offerBeyond_frame (s : State) (issue : Issue) (total : Nat) (cat : Category) :
    State.onlyChanges [.tb, .table, .free, .ar, .cs, .ru, .pu, .counters] s (State.offerBeyond s issue total cat) := by
  unfold State.offerBeyond
  repeat' split
  all_goals simp

@[simp] theorem State.offerBeyond_keeps {ps : List Part} {s u : State} (issue : Issue) (total : Nat) (cat : Category) (hp : ∀ p ∈ [Part.tb, Part.table, Part.free, Part.ar, Part.cs, Part.ru, Part.pu, Part.counters], p ∈ ps) :
    State.onlyChanges ps s (State.offerBeyond u issue total cat) ↔ State.onlyChanges ps s u :=
  State.onlyChanges.iff (State.offerBeyond_frame u issue total cat) hp

theorem State.settleOffer_frame (s : State) (issue : Issue) (total : Nat) (cat : Category) :
    State.onlyChanges [.tb, .table, .free, .ar, .cs, .ru, .pu, .counters] s (State.settleOffer s issue total cat) := by
  unfold State.settleOffer
  repeat' split
  all_goals simp

@[simp] theorem State.settleOffer_keeps {ps : List Part} {s u : State} (issue : Issue) (total : Nat) (cat : Category) (hp : ∀ p ∈ [Part.tb, Part.table, Part.free, Part.ar, Part.cs, Part.ru, Part.pu, Part.counters], p ∈ ps) :
    State.onlyChanges ps s (State.settleOffer u issue total cat) ↔ State.onlyChanges ps s u :=
  State.onlyChanges.iff (State.settleOffer_frame u issue total cat) hp

theorem State.supplyIndex_frame (s : State) (i : Nat) (issue : Issue) (index : Nat) :
    State.onlyChanges [.tb, .cs, .counters] s (State.supplyIndex s i issue index) := by
  unfold State.supplyIndex
  repeat' split
  all_goals simp

@[simp] theorem State.supplyIndex_keeps {ps : List Part} {s u : State} (i : Nat) (issue : Issue) (index : Nat) (hp : ∀ p ∈ [Part.tb, Part.cs, Part.counters], p ∈ ps) :
    State.onlyChanges ps s (State.supplyIndex u i issue index) ↔ State.onlyChanges ps s u :=
  State.onlyChanges.iff (State.supplyIndex_frame u i issue index) hp

theorem State.settleWant_frame (s : State) (issue : Issue) (wanted : Word16) :
    State.onlyChanges [.tb, .table, .cs, .counters] s (State.settleWant s issue wanted) := by
  unfold State.settleWant
  dsimp only
  repeat' split
  all_goals simp

@[simp] theorem State.settleWant_keeps {ps : List Part} {s u : State} (issue : Issue) (wanted : Word16) (hp : ∀ p ∈ [Part.tb, Part.table, Part.cs, Part.counters], p ∈ ps) :
    State.onlyChanges ps s (State.settleWant u issue wanted) ↔ State.onlyChanges ps s u :=
  State.onlyChanges.iff (State.settleWant_frame u issue wanted) hp

theorem State.hearOffer_frame (s : State) (body : List Byte) :
    State.onlyChanges [.tb, .table, .free, .ar, .cs, .ru, .pu, .counters] s (State.hearOffer s body) := by
  unfold State.hearOffer
  repeat' split
  all_goals simp

@[simp] theorem State.hearOffer_keeps {ps : List Part} {s u : State} (body : List Byte) (hp : ∀ p ∈ [Part.tb, Part.table, Part.free, Part.ar, Part.cs, Part.ru, Part.pu, Part.counters], p ∈ ps) :
    State.onlyChanges ps s (State.hearOffer u body) ↔ State.onlyChanges ps s u :=
  State.onlyChanges.iff (State.hearOffer_frame u body) hp

theorem State.hearWant_frame (s : State) (body : List Byte) :
    State.onlyChanges [.tb, .table, .cs, .counters] s (State.hearWant s body) := by
  unfold State.hearWant
  repeat' split
  all_goals simp

@[simp] theorem State.hearWant_keeps {ps : List Part} {s u : State} (body : List Byte) (hp : ∀ p ∈ [Part.tb, Part.table, Part.cs, Part.counters], p ∈ ps) :
    State.onlyChanges ps s (State.hearWant u body) ↔ State.onlyChanges ps s u :=
  State.onlyChanges.iff (State.hearWant_frame u body) hp

theorem State.hearPiece_frame (s : State) (body : List Byte) :
    State.onlyChanges [.tb, .table, .store, .free, .ar, .cs, .ru, .pu, .au, .flags, .counters] s (State.hearPiece s body) := by
  unfold State.hearPiece
  dsimp only
  repeat' split
  all_goals simp

@[simp] theorem State.hearPiece_keeps {ps : List Part} {s u : State} (body : List Byte) (hp : ∀ p ∈ [Part.tb, Part.table, Part.store, Part.free, Part.ar, Part.cs, Part.ru, Part.pu, Part.au, Part.flags, Part.counters], p ∈ ps) :
    State.onlyChanges ps s (State.hearPiece u body) ↔ State.onlyChanges ps s u :=
  State.onlyChanges.iff (State.hearPiece_frame u body) hp

theorem State.hearTally_frame (s : State) (body : List Byte) :
    State.onlyChanges [.tb, .cs, .ru, .ml, .counters] s (State.hearTally s body) := by
  unfold State.hearTally
  repeat' split
  all_goals simp

@[simp] theorem State.hearTally_keeps {ps : List Part} {s u : State} (body : List Byte) (hp : ∀ p ∈ [Part.tb, Part.cs, Part.ru, Part.ml, Part.counters], p ∈ ps) :
    State.onlyChanges ps s (State.hearTally u body) ↔ State.onlyChanges ps s u :=
  State.onlyChanges.iff (State.hearTally_frame u body) hp

theorem State.hearStand_frame (s : State) (sender : Word32) (body : List Byte) :
    State.onlyChanges [.tb, .cs, .ru, .counters] s (State.hearStand s sender body) := by
  unfold State.hearStand
  repeat' split
  all_goals simp

@[simp] theorem State.hearStand_keeps {ps : List Part} {s u : State} (sender : Word32) (body : List Byte) (hp : ∀ p ∈ [Part.tb, Part.cs, Part.ru, Part.counters], p ∈ ps) :
    State.onlyChanges ps s (State.hearStand u sender body) ↔ State.onlyChanges ps s u :=
  State.onlyChanges.iff (State.hearStand_frame u sender body) hp

theorem State.hearCovered_frame (s : State) (body : List Byte) :
    State.onlyChanges [.tb, .ru, .counters] s (State.hearCovered s body) := by
  unfold State.hearCovered
  repeat' split
  all_goals simp

@[simp] theorem State.hearCovered_keeps {ps : List Part} {s u : State} (body : List Byte) (hp : ∀ p ∈ [Part.tb, Part.ru, Part.counters], p ∈ ps) :
    State.onlyChanges ps s (State.hearCovered u body) ↔ State.onlyChanges ps s u :=
  State.onlyChanges.iff (State.hearCovered_frame u body) hp

theorem State.hearYield_frame (s : State) (sender : Word32) (body : List Byte) :
    State.onlyChanges [.tb, .ru, .counters] s (State.hearYield s sender body) := by
  unfold State.hearYield
  repeat' split
  all_goals simp

@[simp] theorem State.hearYield_keeps {ps : List Part} {s u : State} (sender : Word32) (body : List Byte) (hp : ∀ p ∈ [Part.tb, Part.ru, Part.counters], p ∈ ps) :
    State.onlyChanges ps s (State.hearYield u sender body) ↔ State.onlyChanges ps s u :=
  State.onlyChanges.iff (State.hearYield_frame u sender body) hp

theorem State.deliver_frame (s : State) (kind : FrameKind) (sender : Word32) (body : List Byte) :
    State.onlyChanges [.tb, .table, .store, .free, .ar, .cs, .ru, .pu, .au, .ml, .flags, .counters] s (State.deliver s kind sender body) := by
  unfold State.deliver
  repeat' split
  all_goals simp

@[simp] theorem State.deliver_keeps {ps : List Part} {s u : State} (kind : FrameKind) (sender : Word32) (body : List Byte) (hp : ∀ p ∈ [Part.tb, Part.table, Part.store, Part.free, Part.ar, Part.cs, Part.ru, Part.pu, Part.au, Part.ml, Part.flags, Part.counters], p ∈ ps) :
    State.onlyChanges ps s (State.deliver u kind sender body) ↔ State.onlyChanges ps s u :=
  State.onlyChanges.iff (State.deliver_frame u kind sender body) hp

theorem State.clash_frame (s : State) :
    State.onlyChanges [.tb, .cs, .flags] s (State.clash s) := by
  unfold State.clash
  dsimp only
  repeat' split
  all_goals simp

@[simp] theorem State.clash_keeps {ps : List Part} {s u : State}  (hp : ∀ p ∈ [Part.tb, Part.cs, Part.flags], p ∈ ps) :
    State.onlyChanges ps s (State.clash u) ↔ State.onlyChanges ps s u :=
  State.onlyChanges.iff (State.clash_frame u) hp

theorem State.takeFrame_frame (s : State) (f : Frame) :
    State.onlyChanges [.tb, .table, .store, .free, .ar, .cs, .ru, .pu, .au, .ml, .flags, .counters] s (State.takeFrame s f) := by
  unfold State.takeFrame
  repeat' split
  all_goals simp

@[simp] theorem State.takeFrame_keeps {ps : List Part} {s u : State} (f : Frame) (hp : ∀ p ∈ [Part.tb, Part.table, Part.store, Part.free, Part.ar, Part.cs, Part.ru, Part.pu, Part.au, Part.ml, Part.flags, Part.counters], p ∈ ps) :
    State.onlyChanges ps s (State.takeFrame u f) ↔ State.onlyChanges ps s u :=
  State.onlyChanges.iff (State.takeFrame_frame u f) hp

theorem State.receive_frame (s : State) (bytes : List Byte) :
    State.onlyChanges [.tb, .table, .store, .free, .ar, .cs, .ru, .pu, .au, .ml, .flags, .counters] s (State.receive s bytes) := by
  unfold State.receive
  repeat' split
  all_goals simp

@[simp] theorem State.receive_keeps {ps : List Part} {s u : State} (bytes : List Byte) (hp : ∀ p ∈ [Part.tb, Part.table, Part.store, Part.free, Part.ar, Part.cs, Part.ru, Part.pu, Part.au, Part.ml, Part.flags, Part.counters], p ∈ ps) :
    State.onlyChanges ps s (State.receive u bytes) ↔ State.onlyChanges ps s u :=
  State.onlyChanges.iff (State.receive_frame u bytes) hp

/-! ### Port.lean -/

theorem State.portUp_frame (s : State) :
    State.onlyChanges [.tb, .table, .cs, .counters] s (State.portUp s) := by
  unfold State.portUp
  simp

@[simp] theorem State.portUp_keeps {ps : List Part} {s u : State}  (hp : ∀ p ∈ [Part.tb, Part.table, Part.cs, Part.counters], p ∈ ps) :
    State.onlyChanges ps s (State.portUp u) ↔ State.onlyChanges ps s u :=
  State.onlyChanges.iff (State.portUp_frame u) hp

theorem State.portDown_frame (s : State) :
    State.onlyChanges [.cs, .counters] s (State.portDown s) := by
  unfold State.portDown
  dsimp only
  repeat' split
  all_goals simp

@[simp] theorem State.portDown_keeps {ps : List Part} {s u : State}  (hp : ∀ p ∈ [Part.cs, Part.counters], p ∈ ps) :
    State.onlyChanges ps s (State.portDown u) ↔ State.onlyChanges ps s u :=
  State.onlyChanges.iff (State.portDown_frame u) hp

theorem State.countOn_frame (s : State) (k : Contender) :
    State.onlyChanges [.cs] s (State.countOn s k) := by
  unfold State.countOn
  repeat' split
  all_goals simp

@[simp] theorem State.countOn_keeps {ps : List Part} {s u : State} (k : Contender) (hp : ∀ p ∈ [Part.cs], p ∈ ps) :
    State.onlyChanges ps s (State.countOn u k) ↔ State.onlyChanges ps s u :=
  State.onlyChanges.iff (State.countOn_frame u k) hp

theorem State.slotEnds_frame (k : Contender) (rises : Bool) (s : State) :
    State.onlyChanges [.cs] s (State.slotEnds k rises s) := by
  unfold State.slotEnds
  dsimp only
  repeat' split
  all_goals simp

@[simp] theorem State.slotEnds_keeps {ps : List Part} {s u : State} (k : Contender) (rises : Bool) (hp : ∀ p ∈ [Part.cs], p ∈ ps) :
    State.onlyChanges ps s (State.slotEnds k rises u) ↔ State.onlyChanges ps s u :=
  State.onlyChanges.iff (State.slotEnds_frame k rises u) hp

theorem State.tellSent_frame (s : State) (p : Payload) :
    State.onlyChanges [.table] s (State.tellSent s p) := by
  unfold State.tellSent
  repeat' split
  all_goals simp

@[simp] theorem State.tellSent_keeps {ps : List Part} {s u : State} (p : Payload) (hp : ∀ p ∈ [Part.table], p ∈ ps) :
    State.onlyChanges ps s (State.tellSent u p) ↔ State.onlyChanges ps s u :=
  State.onlyChanges.iff (State.tellSent_frame u p) hp

theorem State.portTimesOut_frame (f : InFlight) (s : State) :
    State.onlyChanges [.tb, .cs, .flags, .counters] s (State.portTimesOut f s) := by
  unfold State.portTimesOut
  dsimp only
  repeat' split
  all_goals simp

@[simp] theorem State.portTimesOut_keeps {ps : List Part} {s u : State} (f : InFlight) (hp : ∀ p ∈ [Part.tb, Part.cs, Part.flags, Part.counters], p ∈ ps) :
    State.onlyChanges ps s (State.portTimesOut f u) ↔ State.onlyChanges ps s u :=
  State.onlyChanges.iff (State.portTimesOut_frame f u) hp

theorem State.hearFrame_frame (s : State) (kind : FrameKind) (sender : Word32) (body : List Byte) :
    State.onlyChanges [.tb, .table, .store, .free, .ar, .cs, .ru, .pu, .au, .ml, .flags, .counters] s (State.hearFrame s kind sender body) := by
  unfold State.hearFrame
  simp

@[simp] theorem State.hearFrame_keeps {ps : List Part} {s u : State} (kind : FrameKind) (sender : Word32) (body : List Byte) (hp : ∀ p ∈ [Part.tb, Part.table, Part.store, Part.free, Part.ar, Part.cs, Part.ru, Part.pu, Part.au, Part.ml, Part.flags, Part.counters], p ∈ ps) :
    State.onlyChanges ps s (State.hearFrame u kind sender body) ↔ State.onlyChanges ps s u :=
  State.onlyChanges.iff (State.hearFrame_frame u kind sender body) hp

/-! ### Timers.lean -/

theorem State.reachPoint_frame (i : Nat) (r : OfferRecord) (s : State) :
    State.onlyChanges [.tb, .table, .cs, .counters] s (State.reachPoint i r s) := by
  unfold State.reachPoint
  dsimp only
  repeat' split
  all_goals simp

@[simp] theorem State.reachPoint_keeps {ps : List Part} {s u : State} (i : Nat) (r : OfferRecord) (hp : ∀ p ∈ [Part.tb, Part.table, Part.cs, Part.counters], p ∈ ps) :
    State.onlyChanges ps s (State.reachPoint i r u) ↔ State.onlyChanges ps s u :=
  State.onlyChanges.iff (State.reachPoint_frame i r u) hp

theorem State.stand_frame (s : State) (t : Nat) :
    State.onlyChanges [.tb, .cs, .ru, .counters] s (State.stand s t) := by
  unfold State.stand
  repeat' split
  all_goals simp

@[simp] theorem State.stand_keeps {ps : List Part} {s u : State} (t : Nat) (hp : ∀ p ∈ [Part.tb, Part.cs, Part.ru, Part.counters], p ∈ ps) :
    State.onlyChanges ps s (State.stand u t) ↔ State.onlyChanges ps s u :=
  State.onlyChanges.iff (State.stand_frame u t) hp

theorem State.delayEnds_frame (t : Nat) (s : State) :
    State.onlyChanges [.tb, .cs, .ru, .ml, .counters] s (State.delayEnds t s) := by
  unfold State.delayEnds
  repeat' split
  all_goals simp

@[simp] theorem State.delayEnds_keeps {ps : List Part} {s u : State} (t : Nat) (hp : ∀ p ∈ [Part.tb, Part.cs, Part.ru, Part.ml, Part.counters], p ∈ ps) :
    State.onlyChanges ps s (State.delayEnds t u) ↔ State.onlyChanges ps s u :=
  State.onlyChanges.iff (State.delayEnds_frame t u) hp

theorem State.collect_frame (t : Nat) (s : State) :
    State.onlyChanges [.ru] s (State.collect t s) := by
  unfold State.collect
  simp

@[simp] theorem State.collect_keeps {ps : List Part} {s u : State} (t : Nat) (hp : ∀ p ∈ [Part.ru], p ∈ ps) :
    State.onlyChanges ps s (State.collect t u) ↔ State.onlyChanges ps s u :=
  State.onlyChanges.iff (State.collect_frame t u) hp

/-! ### Keys.lean -/

theorem State.phaseEnds_frame (o : Output) (c : Cadence) (s : State) :
    State.onlyChanges [.table, .au] s (State.phaseEnds o c s) := by
  unfold State.phaseEnds
  dsimp only
  repeat' split
  all_goals simp

@[simp] theorem State.phaseEnds_keeps {ps : List Part} {s u : State} (o : Output) (c : Cadence) (hp : ∀ p ∈ [Part.table, Part.au], p ∈ ps) :
    State.onlyChanges ps s (State.phaseEnds o c u) ↔ State.onlyChanges ps s u :=
  State.onlyChanges.iff (State.phaseEnds_frame o c u) hp

theorem State.setKey_frame (s : State) (k : KeyName) (x : KeyState) :
    State.onlyChanges [.au] s (State.setKey s k x) := by
  unfold State.setKey
  simp

@[simp] theorem State.setKey_keeps {ps : List Part} {s u : State} (k : KeyName) (x : KeyState) (hp : ∀ p ∈ [Part.au], p ∈ ps) :
    State.onlyChanges ps s (State.setKey u k x) ↔ State.onlyChanges ps s u :=
  State.onlyChanges.iff (State.setKey_frame u k x) hp

theorem State.afterLevel_frame (s : State) (k : KeyName) (d : Drive) :
    State.onlyChanges [.tb] s (State.afterLevel s k d) := by
  unfold State.afterLevel
  repeat' split
  all_goals simp

@[simp] theorem State.afterLevel_keeps {ps : List Part} {s u : State} (k : KeyName) (d : Drive) (hp : ∀ p ∈ [Part.tb], p ∈ ps) :
    State.onlyChanges ps s (State.afterLevel u k d) ↔ State.onlyChanges ps s u :=
  State.onlyChanges.iff (State.afterLevel_frame u k d) hp

theorem State.ackPress_frame (s : State) :
    State.onlyChanges [.tb, .table, .ar, .cs, .ru, .pu, .au, .flags, .counters] s (State.ackPress s) := by
  unfold State.ackPress
  dsimp only
  repeat' split
  all_goals simp

@[simp] theorem State.ackPress_keeps {ps : List Part} {s u : State}  (hp : ∀ p ∈ [Part.tb, Part.table, Part.ar, Part.cs, Part.ru, Part.pu, Part.au, Part.flags, Part.counters], p ∈ ps) :
    State.onlyChanges ps s (State.ackPress u) ↔ State.onlyChanges ps s u :=
  State.onlyChanges.iff (State.ackPress_frame u) hp

theorem State.silenceAll_frame (s : State) :
    State.onlyChanges [.table] s (State.silenceAll s) := by
  unfold State.silenceAll
  simp

@[simp] theorem State.silenceAll_keeps {ps : List Part} {s u : State}  (hp : ∀ p ∈ [Part.table], p ∈ ps) :
    State.onlyChanges ps s (State.silenceAll u) ↔ State.onlyChanges ps s u :=
  State.onlyChanges.iff (State.silenceAll_frame u) hp

theorem State.silencePress_frame (s : State) :
    State.onlyChanges [.table, .pu, .au, .flags] s (State.silencePress s) := by
  unfold State.silencePress
  repeat' split
  all_goals simp

@[simp] theorem State.silencePress_keeps {ps : List Part} {s u : State}  (hp : ∀ p ∈ [Part.table, Part.pu, Part.au, Part.flags], p ∈ ps) :
    State.onlyChanges ps s (State.silencePress u) ↔ State.onlyChanges ps s u :=
  State.onlyChanges.iff (State.silencePress_frame u) hp

theorem State.press_frame (s : State) (k : KeyName) :
    State.onlyChanges [.tb, .table, .ar, .cs, .ru, .pu, .au, .flags, .counters] s (State.press s k) := by
  cases k <;> simp [State.press]

@[simp] theorem State.press_keeps {ps : List Part} {s u : State} (k : KeyName) (hp : ∀ p ∈ [Part.tb, Part.table, Part.ar, Part.cs, Part.ru, Part.pu, Part.au, Part.flags, Part.counters], p ∈ ps) :
    State.onlyChanges ps s (State.press u k) ↔ State.onlyChanges ps s u :=
  State.onlyChanges.iff (State.press_frame u k) hp

theorem State.debounced_frame (k : KeyName) (s : State) :
    State.onlyChanges [.tb, .table, .ar, .cs, .ru, .pu, .au, .flags, .counters] s (State.debounced k s) := by
  unfold State.debounced
  dsimp only
  repeat' split
  all_goals simp

@[simp] theorem State.debounced_keeps {ps : List Part} {s u : State} (k : KeyName) (hp : ∀ p ∈ [Part.tb, Part.table, Part.ar, Part.cs, Part.ru, Part.pu, Part.au, Part.flags, Part.counters], p ∈ ps) :
    State.onlyChanges ps s (State.debounced k u) ↔ State.onlyChanges ps s u :=
  State.onlyChanges.iff (State.debounced_frame k u) hp

/-! ### Modem.lean -/

theorem State.helloUplink_frame (s : State) :
    State.onlyChanges [.tb, .cs, .ru, .ml, .flags, .counters] s (State.helloUplink s) := by
  unfold State.helloUplink
  repeat' split
  all_goals simp

@[simp] theorem State.helloUplink_keeps {ps : List Part} {s u : State}  (hp : ∀ p ∈ [Part.tb, Part.cs, Part.ru, Part.ml, Part.flags, Part.counters], p ∈ ps) :
    State.onlyChanges ps s (State.helloUplink u) ↔ State.onlyChanges ps s u :=
  State.onlyChanges.iff (State.helloUplink_frame u) hp

theorem State.hello_frame (s : State) :
    State.onlyChanges [.tb, .table, .free, .ar, .cs, .ru, .pu, .au, .ml, .flags, .counters] s (State.hello s) := by
  unfold State.hello
  simp

@[simp] theorem State.hello_keeps {ps : List Part} {s u : State}  (hp : ∀ p ∈ [Part.tb, Part.table, Part.free, Part.ar, Part.cs, Part.ru, Part.pu, Part.au, Part.ml, Part.flags, Part.counters], p ∈ ps) :
    State.onlyChanges ps s (State.hello u) ↔ State.onlyChanges ps s u :=
  State.onlyChanges.iff (State.hello_frame u) hp

theorem State.setClock_frame (s : State) (seconds : Word32) :
    State.onlyChanges [.tb] s (State.setClock s seconds) := by
  unfold State.setClock
  simp

@[simp] theorem State.setClock_keeps {ps : List Part} {s u : State} (seconds : Word32) (hp : ∀ p ∈ [Part.tb], p ∈ ps) :
    State.onlyChanges ps s (State.setClock u seconds) ↔ State.onlyChanges ps s u :=
  State.onlyChanges.iff (State.setClock_frame u seconds) hp

theorem State.uplinkAnswered_frame (s : State) (issue : Issue) (accepted : Bool) :
    State.onlyChanges [.tb, .cs, .ru, .ml, .counters] s (State.uplinkAnswered s issue accepted) := by
  unfold State.uplinkAnswered
  repeat' split
  all_goals simp

@[simp] theorem State.uplinkAnswered_keeps {ps : List Part} {s u : State} (issue : Issue) (accepted : Bool) (hp : ∀ p ∈ [Part.tb, Part.cs, Part.ru, Part.ml, Part.counters], p ∈ ps) :
    State.onlyChanges ps s (State.uplinkAnswered u issue accepted) ↔ State.onlyChanges ps s u :=
  State.onlyChanges.iff (State.uplinkAnswered_frame u issue accepted) hp

theorem State.takeModem_frame (s : State) (r : FromModem) :
    State.onlyChanges [.tb, .table, .store, .free, .ar, .cs, .ru, .pu, .au, .ml, .flags, .counters] s (State.takeModem s r) := by
  unfold State.takeModem
  repeat' split
  all_goals simp

@[simp] theorem State.takeModem_keeps {ps : List Part} {s u : State} (r : FromModem) (hp : ∀ p ∈ [Part.tb, Part.table, Part.store, Part.free, Part.ar, Part.cs, Part.ru, Part.pu, Part.au, Part.ml, Part.flags, Part.counters], p ∈ ps) :
    State.onlyChanges ps s (State.takeModem u r) ↔ State.onlyChanges ps s u :=
  State.onlyChanges.iff (State.takeModem_frame u r) hp

theorem State.modemEvent_frame (s : State) (e : FramerEvent) :
    State.onlyChanges [.tb, .table, .store, .free, .ar, .cs, .ru, .pu, .au, .ml, .flags, .counters] s (State.modemEvent s e) := by
  unfold State.modemEvent
  repeat' split
  all_goals simp

@[simp] theorem State.modemEvent_keeps {ps : List Part} {s u : State} (e : FramerEvent) (hp : ∀ p ∈ [Part.tb, Part.table, Part.store, Part.free, Part.ar, Part.cs, Part.ru, Part.pu, Part.au, Part.ml, Part.flags, Part.counters], p ∈ ps) :
    State.onlyChanges ps s (State.modemEvent u e) ↔ State.onlyChanges ps s u :=
  State.onlyChanges.iff (State.modemEvent_frame u e) hp

theorem State.modemBytes_frame (s : State) (bytes : List Byte) :
    State.onlyChanges [.tb, .table, .store, .free, .ar, .cs, .ru, .pu, .au, .ml, .flags, .counters] s (State.modemBytes s bytes) := by
  unfold State.modemBytes
  dsimp only
  repeat' split
  all_goals simp

@[simp] theorem State.modemBytes_keeps {ps : List Part} {s u : State} (bytes : List Byte) (hp : ∀ p ∈ [Part.tb, Part.table, Part.store, Part.free, Part.ar, Part.cs, Part.ru, Part.pu, Part.au, Part.ml, Part.flags, Part.counters], p ∈ ps) :
    State.onlyChanges ps s (State.modemBytes u bytes) ↔ State.onlyChanges ps s u :=
  State.onlyChanges.iff (State.modemBytes_frame u bytes) hp

theorem State.modemGap_frame (s : State) :
    State.onlyChanges [.tb, .table, .store, .free, .ar, .cs, .ru, .pu, .au, .ml, .flags, .counters] s (State.modemGap s) := by
  unfold State.modemGap
  dsimp only
  simp

@[simp] theorem State.modemGap_keeps {ps : List Part} {s u : State}  (hp : ∀ p ∈ [Part.tb, Part.table, Part.store, Part.free, Part.ar, Part.cs, Part.ru, Part.pu, Part.au, Part.ml, Part.flags, Part.counters], p ∈ ps) :
    State.onlyChanges ps s (State.modemGap u) ↔ State.onlyChanges ps s u :=
  State.onlyChanges.iff (State.modemGap_frame u) hp

theorem State.fromModem_frame (s : State) (kind : Byte) (body : List Byte) :
    State.onlyChanges [.tb, .table, .store, .free, .ar, .cs, .ru, .pu, .au, .ml, .flags, .counters] s (State.fromModem s kind body) := by
  unfold State.fromModem
  simp

@[simp] theorem State.fromModem_keeps {ps : List Part} {s u : State} (kind : Byte) (body : List Byte) (hp : ∀ p ∈ [Part.tb, Part.table, Part.store, Part.free, Part.ar, Part.cs, Part.ru, Part.pu, Part.au, Part.ml, Part.flags, Part.counters], p ∈ ps) :
    State.onlyChanges ps s (State.fromModem u kind body) ↔ State.onlyChanges ps s u :=
  State.onlyChanges.iff (State.fromModem_frame u kind body) hp

/-! ### Present.lean -/

theorem State.refuse_frame (s : State) (r : Result) :
    State.onlyChanges [] s (State.refuse s r).state := by
  unfold State.refuse
  simp

@[simp] theorem State.refuse_keeps {ps : List Part} {s u : State} (r : Result) (hp : ∀ p ∈ [], p ∈ ps) :
    State.onlyChanges ps s (State.refuse u r).state ↔ State.onlyChanges ps s u :=
  State.onlyChanges.iff (State.refuse_frame u r) hp

theorem State.done_frame (s : State) :
    State.onlyChanges [] s (State.done s).state := by
  unfold State.done
  simp

@[simp] theorem State.done_keeps {ps : List Part} {s u : State}  (hp : ∀ p ∈ [], p ∈ ps) :
    State.onlyChanges ps s (State.done u).state ↔ State.onlyChanges ps s u :=
  State.onlyChanges.iff (State.done_frame u) hp

theorem State.claimInto_frame (s : State) (i slot : Nat) :
    State.onlyChanges [.table, .pu, .au] s (State.claimInto s i slot) := by
  unfold State.claimInto
  simp

@[simp] theorem State.claimInto_keeps {ps : List Part} {s u : State} (i slot : Nat) (hp : ∀ p ∈ [Part.table, Part.pu, Part.au], p ∈ ps) :
    State.onlyChanges ps s (State.claimInto u i slot) ↔ State.onlyChanges ps s u :=
  State.onlyChanges.iff (State.claimInto_frame u i slot) hp

theorem State.claim_frame (s : State) :
    State.onlyChanges [.table, .pu, .au] s (State.claim s).state := by
  unfold State.claim
  repeat' split
  all_goals simp

@[simp] theorem State.claim_keeps {ps : List Part} {s u : State}  (hp : ∀ p ∈ [Part.table, Part.pu, Part.au], p ∈ ps) :
    State.onlyChanges ps s (State.claim u).state ↔ State.onlyChanges ps s u :=
  State.onlyChanges.iff (State.claim_frame u) hp

theorem State.read_frame (s : State) (h : Handle) (offset length : Nat) :
    State.onlyChanges [] s (State.read s h offset length).state := by
  unfold State.read
  dsimp only
  repeat' split
  all_goals simp

@[simp] theorem State.read_keeps {ps : List Part} {s u : State} (h : Handle) (offset length : Nat) (hp : ∀ p ∈ [], p ∈ ps) :
    State.onlyChanges ps s (State.read u h offset length).state ↔ State.onlyChanges ps s u :=
  State.onlyChanges.iff (State.read_frame u h offset length) hp

theorem State.complete_frame (s : State) (h : Handle) :
    State.onlyChanges [.table, .pu, .au] s (State.complete s h).state := by
  unfold State.complete
  simp

@[simp] theorem State.complete_keeps {ps : List Part} {s u : State} (h : Handle) (hp : ∀ p ∈ [Part.table, Part.pu, Part.au], p ∈ ps) :
    State.onlyChanges ps s (State.complete u h).state ↔ State.onlyChanges ps s u :=
  State.onlyChanges.iff (State.complete_frame u h) hp

theorem State.release_frame (s : State) (h : Handle) :
    State.onlyChanges [.table, .pu, .au] s (State.release s h).state := by
  unfold State.release
  simp

@[simp] theorem State.release_keeps {ps : List Part} {s u : State} (h : Handle) (hp : ∀ p ∈ [Part.table, Part.pu, Part.au], p ∈ ps) :
    State.onlyChanges ps s (State.release u h).state ↔ State.onlyChanges ps s u :=
  State.onlyChanges.iff (State.release_frame u h) hp

theorem State.ack_frame (s : State) (h : Handle) :
    State.onlyChanges [.tb, .table, .ar, .cs, .ru, .pu, .au, .counters] s (State.ack s h).state := by
  unfold State.ack
  simp

@[simp] theorem State.ack_keeps {ps : List Part} {s u : State} (h : Handle) (hp : ∀ p ∈ [Part.tb, Part.table, Part.ar, Part.cs, Part.ru, Part.pu, Part.au, Part.counters], p ∈ ps) :
    State.onlyChanges ps s (State.ack u h).state ↔ State.onlyChanges ps s u :=
  State.onlyChanges.iff (State.ack_frame u h) hp

theorem State.fetchNotice_frame (s : State) :
    State.onlyChanges [.pu] s (State.fetchNotice s).state := by
  unfold State.fetchNotice
  repeat' split
  all_goals simp

@[simp] theorem State.fetchNotice_keeps {ps : List Part} {s u : State}  (hp : ∀ p ∈ [Part.pu], p ∈ ps) :
    State.onlyChanges ps s (State.fetchNotice u).state ↔ State.onlyChanges ps s u :=
  State.onlyChanges.iff (State.fetchNotice_frame u) hp

theorem State.status_frame (s : State) :
    State.onlyChanges [.flags] s (State.status s).state := by
  unfold State.status
  simp

@[simp] theorem State.status_keeps {ps : List Part} {s u : State}  (hp : ∀ p ∈ [Part.flags], p ∈ ps) :
    State.onlyChanges ps s (State.status u).state ↔ State.onlyChanges ps s u :=
  State.onlyChanges.iff (State.status_frame u) hp

theorem State.restart_frame (s : State) :
    State.onlyChanges [.table, .pu, .au] s (State.restart s).state := by
  unfold State.restart
  simp

@[simp] theorem State.restart_keeps {ps : List Part} {s u : State}  (hp : ∀ p ∈ [Part.table, Part.pu, Part.au], p ∈ ps) :
    State.onlyChanges ps s (State.restart u).state ↔ State.onlyChanges ps s u :=
  State.onlyChanges.iff (State.restart_frame u) hp

theorem State.setThreshold_frame (s : State) (n : Nat) :
    State.onlyChanges [.table, .pu, .au] s (State.setThreshold s n).state := by
  unfold State.setThreshold
  simp

@[simp] theorem State.setThreshold_keeps {ps : List Part} {s u : State} (n : Nat) (hp : ∀ p ∈ [Part.table, Part.pu, Part.au], p ∈ ps) :
    State.onlyChanges ps s (State.setThreshold u n).state ↔ State.onlyChanges ps s u :=
  State.onlyChanges.iff (State.setThreshold_frame u n) hp

theorem State.setOptout_frame (s : State) (mask : Byte) :
    State.onlyChanges [.table, .ar, .pu, .au] s (State.setOptout s mask).state := by
  unfold State.setOptout
  dsimp only
  simp

@[simp] theorem State.setOptout_keeps {ps : List Part} {s u : State} (mask : Byte) (hp : ∀ p ∈ [Part.table, Part.ar, Part.pu, Part.au], p ∈ ps) :
    State.onlyChanges ps s (State.setOptout u mask).state ↔ State.onlyChanges ps s u :=
  State.onlyChanges.iff (State.setOptout_frame u mask) hp

theorem State.carryOut_frame (s : State) (r : Request) :
    State.onlyChanges [.tb, .table, .ar, .cs, .ru, .pu, .au, .flags, .counters] s (State.carryOut s r).state := by
  unfold State.carryOut
  repeat' split
  all_goals simp

@[simp] theorem State.carryOut_keeps {ps : List Part} {s u : State} (r : Request) (hp : ∀ p ∈ [Part.tb, Part.table, Part.ar, Part.cs, Part.ru, Part.pu, Part.au, Part.flags, Part.counters], p ∈ ps) :
    State.onlyChanges ps s (State.carryOut u r).state ↔ State.onlyChanges ps s u :=
  State.onlyChanges.iff (State.carryOut_frame u r) hp

theorem State.judge_frame (s : State) (r : Request) :
    State.onlyChanges [.tb, .table, .ar, .cs, .ru, .pu, .au, .flags, .counters] s (State.judge s r).state := by
  unfold State.judge
  repeat' split
  all_goals simp

@[simp] theorem State.judge_keeps {ps : List Part} {s u : State} (r : Request) (hp : ∀ p ∈ [Part.tb, Part.table, Part.ar, Part.cs, Part.ru, Part.pu, Part.au, Part.flags, Part.counters], p ∈ ps) :
    State.onlyChanges ps s (State.judge u r).state ↔ State.onlyChanges ps s u :=
  State.onlyChanges.iff (State.judge_frame u r) hp

/-! ### AppLink.lean -/

theorem State.replyTo_frame (s : State) (q : EndedRequest) :
    State.onlyChanges [.tb, .table, .ar, .cs, .ru, .pu, .au, .flags, .counters] s (State.replyTo s q).state := by
  unfold State.replyTo
  repeat' split
  all_goals simp

@[simp] theorem State.replyTo_keeps {ps : List Part} {s u : State} (q : EndedRequest)
    (hp : ∀ p ∈ [Part.tb, Part.table, Part.ar, Part.cs, Part.ru, Part.pu, Part.au, Part.flags, Part.counters], p ∈ ps) :
    State.onlyChanges ps s (State.replyTo u q).state ↔ State.onlyChanges ps s u :=
  State.onlyChanges.iff (State.replyTo_frame u q) hp

theorem State.answerRequest_frame (s : State) (q : EndedRequest) :
    State.onlyChanges [.tb, .table, .ar, .cs, .ru, .pu, .au, .al, .flags, .counters] s (State.answerRequest s q) := by
  unfold State.answerRequest
  dsimp only
  simp

@[simp] theorem State.answerRequest_keeps {ps : List Part} {s u : State} (q : EndedRequest)
    (hp : ∀ p ∈ [Part.tb, Part.table, Part.ar, Part.cs, Part.ru, Part.pu, Part.au, Part.al, Part.flags, Part.counters], p ∈ ps) :
    State.onlyChanges ps s (State.answerRequest u q) ↔ State.onlyChanges ps s u :=
  State.onlyChanges.iff (State.answerRequest_frame u q) hp

theorem Stretch.requestEnds_frame (w : Stretch) (e : FramerEvent) :
    State.onlyChanges [.tb, .table, .ar, .cs, .ru, .pu, .au, .al, .flags, .counters] w.state (w.requestEnds e).state := by
  unfold Stretch.requestEnds
  dsimp only
  split <;> simp

/-- A fold of steps of a stretch of one frame. -/
theorem Stretch.foldl_frame {α : Type} {ps : List Part} {f : Stretch → α → Stretch} (l : List α) (w : Stretch)
    (hf : ∀ w x, State.onlyChanges ps w.state (f w x).state) : State.onlyChanges ps w.state (l.foldl f w).state := by
  induction l generalizing w with
  | nil => exact State.onlyChanges.refl _ _
  | cons x xs ih => exact (hf w x).step (ih _) (fun _ hp => hp)

theorem Stretch.framed_frame (w : Stretch) (r : Framer × List FramerEvent) :
    State.onlyChanges [.tb, .table, .ar, .cs, .ru, .pu, .au, .al, .flags, .counters] w.state (w.framed r).state :=
  ((State.withAl_frame w.state _).mono (by simp)).step (Stretch.foldl_frame _ _ Stretch.requestEnds_frame)
    (fun _ hp => hp)

theorem Stretch.input_frame (w : Stretch) (x : HostInput) :
    State.onlyChanges [.tb, .table, .ar, .cs, .ru, .pu, .au, .al, .flags, .counters] w.state (w.input x).state := by
  cases x with
  | bytes bs =>
    simp only [Stretch.input, Stretch.bytesCome]
    split
    · simp
    · exact ((State.withAl_frame w.state _).mono (by simp)).step (Stretch.framed_frame _ _) (fun _ hp => hp)
  | gap =>
    simp only [Stretch.input, Stretch.gapPasses]
    split
    · simp
    · exact ((State.runTo_frame w.state _).mono (by simp)).step (Stretch.framed_frame _ _) (fun _ hp => hp)

theorem State.fromHost_frame (s : State) (inputs : List HostInput) :
    State.onlyChanges [.tb, .table, .ar, .cs, .ru, .pu, .au, .al, .flags, .counters] s (State.fromHost s inputs) := by
  have h := Stretch.foldl_frame inputs ⟨s, none⟩ Stretch.input_frame
  unfold State.fromHost Stretch.placed
  split
  · exact h.step (State.withAl_frame _ _) (by simp)
  · exact h

@[simp] theorem State.fromHost_keeps {ps : List Part} {s u : State} (inputs : List HostInput)
    (hp : ∀ p ∈ [Part.tb, Part.table, Part.ar, Part.cs, Part.ru, Part.pu, Part.au, Part.al, Part.flags, Part.counters], p ∈ ps) :
    State.onlyChanges ps s (State.fromHost u inputs) ↔ State.onlyChanges ps s u :=
  State.onlyChanges.iff (State.fromHost_frame u inputs) hp

theorem State.hostRequest_frame (s : State) (kind : Byte) (body : List Byte) (during : List HostInput) :
    State.onlyChanges [.tb, .table, .ar, .cs, .ru, .pu, .au, .al, .flags, .counters] s (State.hostRequest s kind body during) :=
  State.fromHost_frame s _

@[simp] theorem State.hostRequest_keeps {ps : List Part} {s u : State} (kind : Byte) (body : List Byte)
    (during : List HostInput) (hp : ∀ p ∈ [Part.tb, Part.table, Part.ar, Part.cs, Part.ru, Part.pu, Part.au, Part.al, Part.flags, Part.counters], p ∈ ps) :
    State.onlyChanges ps s (State.hostRequest u kind body during) ↔ State.onlyChanges ps s u :=
  State.onlyChanges.iff (State.hostRequest_frame u kind body during) hp

/-! ### Startup.lean -/

theorem State.loaded_frame (s : State) :
    State.onlyChanges [.sl] s (State.loaded s) := by
  unfold State.loaded
  simp

@[simp] theorem State.loaded_keeps {ps : List Part} {s u : State}  (hp : ∀ p ∈ [Part.sl], p ∈ ps) :
    State.onlyChanges ps s (State.loaded u) ↔ State.onlyChanges ps s u :=
  State.onlyChanges.iff (State.loaded_frame u) hp

theorem State.readKey_frame (s : State) (k : KeyName) :
    State.onlyChanges [.tb, .au] s (State.readKey s k) := by
  unfold State.readKey
  dsimp only
  simp

@[simp] theorem State.readKey_keeps {ps : List Part} {s u : State} (k : KeyName) (hp : ∀ p ∈ [Part.tb, Part.au], p ∈ ps) :
    State.onlyChanges ps s (State.readKey u k) ↔ State.onlyChanges ps s u :=
  State.onlyChanges.iff (State.readKey_frame u k) hp

theorem State.openPort_frame (s : State) :
    State.onlyChanges [.tb, .table, .cs, .counters] s (State.openPort s) := by
  unfold State.openPort
  dsimp only
  repeat' split
  all_goals simp

@[simp] theorem State.openPort_keeps {ps : List Part} {s u : State}  (hp : ∀ p ∈ [Part.tb, Part.table, Part.cs, Part.counters], p ∈ ps) :
    State.onlyChanges ps s (State.openPort u) ↔ State.onlyChanges ps s u :=
  State.onlyChanges.iff (State.openPort_frame u) hp

theorem State.becomeReady_frame (s : State) :
    State.onlyChanges [.tb, .sl, .table, .cs, .au, .ml, .counters] s (State.becomeReady s) := by
  unfold State.becomeReady
  dsimp only
  simp

@[simp] theorem State.becomeReady_keeps {ps : List Part} {s u : State}  (hp : ∀ p ∈ [Part.tb, Part.sl, Part.table, Part.cs, Part.au, Part.ml, Part.counters], p ∈ ps) :
    State.onlyChanges ps s (State.becomeReady u) ↔ State.onlyChanges ps s u :=
  State.onlyChanges.iff (State.becomeReady_frame u) hp

theorem State.defaulted_frame (s : State) :
    State.onlyChanges [.tb, .sl, .table, .cs, .au, .ml, .flags, .counters] s (State.defaulted s) := by
  unfold State.defaulted
  simp

@[simp] theorem State.defaulted_keeps {ps : List Part} {s u : State}  (hp : ∀ p ∈ [Part.tb, Part.sl, Part.table, Part.cs, Part.au, Part.ml, Part.flags, Part.counters], p ∈ ps) :
    State.onlyChanges ps s (State.defaulted u) ↔ State.onlyChanges ps s u :=
  State.onlyChanges.iff (State.defaulted_frame u) hp

theorem State.spoiled_frame (s : State) :
    State.onlyChanges [.tb, .sl, .table, .cs, .au, .ml, .flags, .counters] s (State.spoiled s) := by
  unfold State.spoiled
  simp

@[simp] theorem State.spoiled_keeps {ps : List Part} {s u : State}  (hp : ∀ p ∈ [Part.tb, Part.sl, Part.table, Part.cs, Part.au, Part.ml, Part.flags, Part.counters], p ∈ ps) :
    State.onlyChanges ps s (State.spoiled u) ↔ State.onlyChanges ps s u :=
  State.onlyChanges.iff (State.spoiled_frame u) hp

theorem State.takeRecord_frame (s : State) (first value : Word16) :
    State.onlyChanges [.sl, .settings, .counters] s (State.takeRecord s first value) := by
  unfold State.takeRecord
  repeat' split
  all_goals simp

@[simp] theorem State.takeRecord_keeps {ps : List Part} {s u : State} (first value : Word16) (hp : ∀ p ∈ [Part.sl, Part.settings, Part.counters], p ∈ ps) :
    State.onlyChanges ps s (State.takeRecord u first value) ↔ State.onlyChanges ps s u :=
  State.onlyChanges.iff (State.takeRecord_frame u first value) hp

end Sys2Proof.Machine
end

