-- ==== Sys2Proof/Laws/Heard.lean ====
section
/-! SUPPORT. What hearing a frame and handing over a record come to, for statements that say so in the words of Safety:
a frame that is heard is delivered and nothing else, a record handed over takes its place (04 R74, R77; 09 R177). -/

namespace Sys2Proof.Machine

/-- A clash whose flag and mark stand already, while a tally holds the draw back, changes nothing (04 R75). -/
theorem State.clash_of_marked {s : State} (flag : s.flags.tagClash = true) (mark : s.cs.tagMarked = true)
    (runs : s.roundRuns = true) : s.clash = s := by
  have hf : ({ s.flags with tagClash := true } : FaultFlags) = s.flags := by rw [← flag]
  have hc : ({ s.cs with tagMarked := true } : Station) = s.cs := by rw [← mark]
  have hs : (s.flag .tagClash).withCs { s.cs with tagMarked := true } = s := by
    rw [hc]
    change s.withFlags { s.flags with tagClash := true } = s
    rw [hf]; rfl
  unfold State.clash
  simp only [hs, runs, if_true]

/-- A frame that the part hears is delivered by its kind, and that is all that happens (04 R74, R77). -/
theorem State.takeFrame_of_hears {s : State} {kind : FrameKind} {sender : Word32} {body : List Byte}
    (h : s.Hears kind sender body) :
    s.takeFrame ⟨kind, sender, body, frameCheck kind sender body⟩ = s.deliver kind sender body := by
  obtain ⟨_, _, _, clash, echo⟩ := h
  unfold State.takeFrame
  simp only [echo, Bool.false_eq_true, if_false]
  split
  · next own =>
    rcases clash with other | ⟨flag, mark, runs⟩
    · exact absurd own other
    · rw [State.clash_of_marked flag mark runs]
  · rfl

/-- A record that joins the tail of the hold is then in the place that 09 R177 gives it. -/
theorem ModemLink.trySend_joined (m : ModemLink) (r : ModemRecord) :
    ModemLink.trySend { m with hold := m.hold ++ [r] } = m.handed r := by
  obtain ⟨framer, lastByte, partReady, modemReady, hold, sending, query, uplink, began⟩ := m
  cases modemReady <;> cases sending <;> cases hold <;> rfl

end Sys2Proof.Machine
end

