-- ==== Sys2Proof/Laws/Links.lean ====
section
/-! SUPPORT. Lemmas about bytes, records and frames: fields go through their bytes, a framer finds the record that was
built, a filter finds the frame that was built. -/

namespace Sys2Proof.Machine

/-! ### Bytes -/

@[simp] theorem bytes16_length (x : Word16) : (bytes16 x).length = 2 := rfl
@[simp] theorem bytes24_length (x : Word24) : (bytes24 x).length = 3 := rfl
@[simp] theorem bytes32_length (x : Word32) : (bytes32 x).length = 4 := rfl
@[simp] theorem num16_length (n : Nat) : (num16 n).length = 2 := rfl

theorem word16_of_bytes (x : Word16) : word16 (x.extractLsb' 8 8) (x.extractLsb' 0 8) = x := by
  apply BitVec.eq_of_getLsbD_eq
  intro i hi
  simp only [word16, BitVec.getLsbD_append, BitVec.getLsbD_extractLsb']
  by_cases h : i < 8
  · simp [h]
  · have h2 : i - 8 < 8 := by omega
    have h3 : 8 + (i - 8) = i := by omega
    simp [h, h2, h3]

theorem word24_of_bytes (x : Word24) :
    word24 (x.extractLsb' 16 8) (x.extractLsb' 8 8) (x.extractLsb' 0 8) = x := by
  apply BitVec.eq_of_getLsbD_eq
  intro i hi
  simp only [word24, BitVec.getLsbD_append, BitVec.getLsbD_extractLsb']
  by_cases h : i < 8
  · simp [h]
  · by_cases h1 : i < 16
    · have h2 : i - 8 < 8 := by omega
      have h3 : 8 + (i - 8) = i := by omega
      simp [h, h2, h3]
    · have h2 : ¬ i - 8 < 8 := by omega
      have h3 : i - 8 - 8 < 8 := by omega
      have h4 : 16 + (i - 8 - 8) = i := by omega
      simp [h, h2, h3, h4]

theorem word32_of_bytes (x : Word32) :
    word32 (x.extractLsb' 24 8) (x.extractLsb' 16 8) (x.extractLsb' 8 8) (x.extractLsb' 0 8) = x := by
  apply BitVec.eq_of_getLsbD_eq
  intro i hi
  simp only [word32, BitVec.getLsbD_append, BitVec.getLsbD_extractLsb']
  by_cases h : i < 8
  · simp [h]
  · by_cases h1 : i < 16
    · have h2 : i - 8 < 8 := by omega
      have h3 : 8 + (i - 8) = i := by omega
      simp [h, h2, h3]
    · by_cases h1' : i < 24
      · have h2 : ¬ i - 8 < 8 := by omega
        have h3 : i - 8 - 8 < 8 := by omega
        have h4 : 16 + (i - 8 - 8) = i := by omega
        simp [h, h2, h3, h4]
      · have h2 : ¬ i - 8 < 8 := by omega
        have h3 : ¬ i - 8 - 8 < 8 := by omega
        have h4 : i - 8 - 8 - 8 < 8 := by omega
        have h5 : 24 + (i - 8 - 8 - 8) = i := by omega
        simp [h, h2, h3, h4, h5]

theorem word16_ofNat_toNat (n : Nat) (h : n < 65536) : (BitVec.ofNat 16 n).toNat = n := by
  simp [BitVec.toNat_ofNat]; omega

/-! ### The framer (09 R172) -/

/-- A framer that has received the first bytes of a record of good length receives the rest of it. -/
theorem feed_receiving (most : Nat) (bs cs : List Byte) (h2 : 2 ≤ bs.length)
    (hn : (bs ++ cs).length = lengthField bs + 4) (hc : cs ≠ []) :
    Framer.feed most (.receiving bs) cs = (.idle, [.record (bs ++ cs)]) := by
  induction cs generalizing bs with
  | nil => exact absurd rfl hc
  | cons c cs ih =>
    have hf : lengthField (bs ++ [c]) = lengthField bs := by
      match bs, h2 with
      | a :: b :: rest, _ => rfl
    have hl : (bs ++ [c]).length = bs.length + 1 := by simp
    have hne : ¬ ((bs ++ [c]).length = 2 ∧ (lengthField (bs ++ [c]) = 0 ∨ most < lengthField (bs ++ [c]))) := by
      rw [hl]; omega
    by_cases hcs : cs = []
    · subst hcs
      have hend : 2 < (bs ++ [c]).length ∧ (bs ++ [c]).length = lengthField (bs ++ [c]) + 4 := by
        rw [hf]; constructor
        · rw [hl]; omega
        · exact hn
      simp only [Framer.feed, Framer.take]
      simp only [if_neg hne, if_pos hend, List.append_nil]
    · have hpos : 0 < cs.length := List.length_pos_iff.mpr hcs
      have hnot : ¬ (2 < (bs ++ [c]).length ∧ (bs ++ [c]).length = lengthField (bs ++ [c]) + 4) := by
        rw [hf]; intro ⟨_, h⟩
        simp at hn h; omega
      have := ih (bs ++ [c]) (by rw [hl]; omega) (by rw [hf]; simpa using hn) hcs
      simp only [Framer.feed, Framer.take, hne, hnot, if_false]
      simpa using this

/-- An idle framer fed with a whole record of an allowed length finds it and is idle again. -/
theorem feed_linkRecord (most : Nat) (kind : Byte) (body : List Byte) (h : body.length + 1 ≤ most)
    (hm : most < 65536) :
    Framer.feed most .idle (linkRecord kind body) = (.idle, [.record (linkRecord kind body)]) := by
  have hw := word16_of_bytes (BitVec.ofNat 16 (body.length + 1))
  have hv := word16_ofNat_toNat (body.length + 1) (by omega)
  generalize hx : BitVec.ofNat 16 (body.length + 1) = x at hw hv
  have hrec : linkRecord kind body
      = x.extractLsb' 8 8 :: x.extractLsb' 0 8 :: (kind :: body ++ bytes16 (checkCode (num16 (body.length + 1) ++ kind :: body))) := by
    simp [linkRecord, num16, bytes16, hx]
  rw [hrec]
  have hlf : ∀ l, lengthField (x.extractLsb' 8 8 :: x.extractLsb' 0 8 :: l) = body.length + 1 := by
    intro l; simp only [lengthField]; rw [hw, hv]
  have hgood : ¬ (lengthField [x.extractLsb' 8 8, x.extractLsb' 0 8] = 0
      ∨ most < lengthField [x.extractLsb' 8 8, x.extractLsb' 0 8]) := by rw [hlf]; omega
  have hrest := feed_receiving most [x.extractLsb' 8 8, x.extractLsb' 0 8]
    (kind :: body ++ bytes16 (checkCode (num16 (body.length + 1) ++ kind :: body))) (by simp)
    (by rw [hlf]; simp) (by simp)
  simp only [Framer.feed, Framer.take]
  simp only [List.cons_append, List.nil_append] at hrest ⊢
  simp [hgood, hrest]

/-! ### A built record judged (09 R173, R180) -/

/-- The length field of a built record. -/
theorem lengthField_linkRecord (kind : Byte) (body : List Byte) (h : body.length + 1 < 65536) :
    lengthField (linkRecord kind body) = body.length + 1 := by
  have hw := word16_of_bytes (BitVec.ofNat 16 (body.length + 1))
  have hv := word16_ofNat_toNat (body.length + 1) (by omega)
  simp only [linkRecord, num16, bytes16, List.cons_append, List.nil_append, lengthField]
  rw [hw, hv]

/-- The check of a built record matches. -/
theorem recordCheckGood_linkRecord (kind : Byte) (body : List Byte) (h : body.length + 1 < 65536) :
    recordCheckGood (linkRecord kind body) = true := by
  have hl := lengthField_linkRecord kind body h
  have hn : (num16 (body.length + 1) ++ kind :: body).length = body.length + 1 + 2 := by simp; omega
  simp only [recordCheckGood, hl]
  simp only [linkRecord]
  rw [List.drop_left' hn, List.take_left' hn]
  simp

/-- The body of a built record. -/
theorem recordBody_linkRecord (kind : Byte) (body : List Byte) (h : body.length + 1 < 65536) :
    recordBody (linkRecord kind body) = body := by
  simp only [recordBody, lengthField_linkRecord kind body h]
  simp [linkRecord, num16, bytes16]

/-- The kind of a built record. -/
theorem requestKind_linkRecord (kind : Byte) (body : List Byte) : requestKind (linkRecord kind body) = kind := by
  simp [requestKind, linkRecord, num16, bytes16]

/-- The sequence of a built request. -/
theorem requestSeq_linkRecord (kind seq : Byte) (body : List Byte) (h : body.length + 2 < 65536) :
    requestSeq (linkRecord kind (seq :: body)) = seq := by
  have hl := lengthField_linkRecord kind (seq :: body) (by simp; omega)
  rw [requestSeq, hl]
  simp [linkRecord, num16, bytes16]

/-- A built record of the modem is judged by its kind and body. -/
theorem judgeModem_linkRecord (kind : Byte) (body : List Byte) (h : body.length + 1 < 65536) :
    judgeModem (linkRecord kind body) = modemRecord kind body := by
  have hk := requestKind_linkRecord kind body
  rw [requestKind] at hk
  rw [judgeModem, recordCheckGood_linkRecord kind body h, recordBody_linkRecord kind body h, hk]
  simp

/-- A built request is judged by its kind and body. -/
theorem judgeRequest_linkRecord (kind : Byte) (body : List Byte) (h : body.length + 1 ≤ requestMost) :
    judgeRequest (linkRecord kind body) = requestOf kind body := by
  have hm : requestMost = 7 := rfl
  have h' : body.length + 1 < 65536 := by omega
  have hlen : (linkRecord kind body).length = body.length + 1 + 4 := by simp [linkRecord]; omega
  rw [judgeRequest, lengthField_linkRecord kind body h', recordCheckGood_linkRecord kind body h',
    recordBody_linkRecord kind body h', requestKind_linkRecord]
  have : 1 ≤ body.length + 1 ∧ body.length + 1 ≤ requestMost ∧ (linkRecord kind body).length = body.length + 1 + 4
      ∧ true = true := ⟨by omega, h, hlen, rfl⟩
  simp [this]

/-! ### The reception filter (04 R76) -/

/-- A body that a kind allows leaves the frame within 128 bytes. -/
theorem bodyGood_length (kind : FrameKind) (body : List Byte) (h : bodyGood kind body = true) : body.length ≤ 118 := by
  cases kind <;> simp [bodyGood] at h <;> omega

/-- The kind of a kind's code. -/
theorem frameKind_ofCode (kind : FrameKind) : FrameKind.ofCode kind.code = some kind := by cases kind <;> rfl

/-- A frame built by 04 R76 passes the filter and is read back. -/
theorem parseFrame_frameBytes (kind : FrameKind) (sender : Word32) (body : List Byte) (hb : bodyGood kind body = true)
    (ht : tagGood sender = true) :
    parseFrame (frameBytes kind sender body) = some ⟨kind, sender, body, frameCheck kind sender body⟩ := by
  have hlen := bodyGood_length kind body hb
  have hw := word16_of_bytes (BitVec.ofNat 16 body.length)
  have hv := word16_ofNat_toNat body.length (by omega)
  have hc := word16_of_bytes (frameCheck kind sender body)
  have hs := word32_of_bytes sender
  have hk1 : (kind.code ++ 1#4 : BitVec 8).extractLsb' 4 4 = kind.code := by cases kind <;> rfl
  have hk2 : (kind.code ++ 1#4 : BitVec 8).extractLsb' 0 4 = 1#4 := by cases kind <;> rfl
  have htake : (frameBytes kind sender body).take ((frameBytes kind sender body).length - 2)
      = frameHeader kind sender body ++ body := by
    have : (frameBytes kind sender body).length - 2 = (frameHeader kind sender body ++ body).length := by
      simp [frameBytes]; omega
    rw [this, frameBytes, List.take_left']; rfl
  have hl : (frameBytes kind sender body).length = body.length + 10 := by
    simp [frameBytes, frameHeader]; omega
  rw [parseFrame.eq_def]
  rw [htake, hl]
  have hbytes : frameBytes kind sender body = (kind.code ++ 1#4 : BitVec 8) :: 0#8 :: sender.extractLsb' 24 8
      :: sender.extractLsb' 16 8 :: sender.extractLsb' 8 8 :: sender.extractLsb' 0 8
      :: (BitVec.ofNat 16 body.length).extractLsb' 8 8 :: (BitVec.ofNat 16 body.length).extractLsb' 0 8
      :: (body ++ bytes16 (frameCheck kind sender body)) := by
    simp [frameBytes, frameHeader, bytes32, num16, bytes16]
  rw [hbytes]
  have hd : (body ++ bytes16 (frameCheck kind sender body)).length - 2 = body.length := by simp
  simp only [hd, List.take_left', List.drop_left', hk1, hk2, frameKind_ofCode]
  simp only [bytes16, hs, hw, hv, hc]
  rw [if_pos]
  refine ⟨by omega, rfl, trivial, trivial, trivial, hb, ht⟩

end Sys2Proof.Machine
end

