-- ==== Sys2Proof/Laws/Time.lean ====
section
/-! SUPPORT. Time and timers: what running on to a moment gives, and that a timer which can end does end (10 R191). -/

namespace Sys2Proof.Machine

/-- Time run on to a moment that can be counted is the later of the two. -/
theorem TimeBase.runTo_ms (b : TimeBase) {t : Nat} (h : t ≤ lastMs) : (b.runTo t).ms = max b.ms t := by
  unfold TimeBase.runTo
  split
  · rename_i hc
    have hm : (t / 1000) * 1000 + t % 1000 = t := by omega
    simp only [TimeBase.ms] at hc ⊢
    omega
  · rename_i hc
    simp only [TimeBase.ms] at hc ⊢
    omega

/-- Time run on to a moment that can be counted is the later of the two. -/
theorem State.runTo_now (s : State) {t : Nat} (h : t ≤ lastMs) : (s.runTo t).now = max s.now t :=
  TimeBase.runTo_ms s.tb h

/-- Time never runs backward. -/
theorem State.now_le_runTo (s : State) (t : Nat) : s.now ≤ (s.runTo t).now := by
  simp only [State.now, State.runTo, State.withTb, TimeBase.runTo]
  split
  · rename_i hc
    have hm : (t / 1000) * 1000 + t % 1000 = t := by omega
    simp only [TimeBase.ms] at hc ⊢
    omega
  · exact Nat.le_refl _

/-- A timer whose end can be counted runs out: its block acts at that end. -/
theorem State.runsOut_eq (s : State) {t : Nat} (act : State → State) (h : t ≤ lastMs) :
    s.runsOut t act = act (s.runTo t) := by
  have hn := s.runTo_now h
  unfold State.runsOut
  rw [if_pos (by omega)]

/-- A moment already reached changes nothing. -/
theorem State.runTo_past (s : State) {t : Nat} (h : t ≤ s.now) : s.runTo t = s := by
  have hc : ¬ (s.tb.ms < t ∧ t ≤ lastMs) := by
    simp only [State.now] at h
    omega
  simp only [State.runTo, TimeBase.runTo, if_neg hc]
  rfl

/-- Running on leaves the random source alone. -/
@[simp] theorem TimeBase.runTo_draws (b : TimeBase) (t : Nat) : (b.runTo t).draws = b.draws := by
  unfold TimeBase.runTo; split <;> rfl

/-- Running on leaves the random source alone. -/
@[simp] theorem TimeBase.runTo_drawn (b : TimeBase) (t : Nat) : (b.runTo t).drawn = b.drawn := by
  unfold TimeBase.runTo; split <;> rfl

@[simp] theorem State.runTo_draws (s : State) (t : Nat) : (s.runTo t).tb.draws = s.tb.draws := s.tb.runTo_draws t
@[simp] theorem State.runTo_drawn (s : State) (t : Nat) : (s.runTo t).tb.drawn = s.tb.drawn := s.tb.runTo_drawn t
@[simp] theorem State.runTo_sl (s : State) (t : Nat) : (s.runTo t).sl = s.sl := rfl
@[simp] theorem State.runTo_settings (s : State) (t : Nat) : (s.runTo t).settings = s.settings := rfl
@[simp] theorem State.runTo_table (s : State) (t : Nat) : (s.runTo t).table = s.table := rfl
@[simp] theorem State.runTo_store (s : State) (t : Nat) : (s.runTo t).store = s.store := rfl
@[simp] theorem State.runTo_free (s : State) (t : Nat) : (s.runTo t).free = s.free := rfl
@[simp] theorem State.runTo_ar (s : State) (t : Nat) : (s.runTo t).ar = s.ar := rfl
@[simp] theorem State.runTo_cs (s : State) (t : Nat) : (s.runTo t).cs = s.cs := rfl
@[simp] theorem State.runTo_ru (s : State) (t : Nat) : (s.runTo t).ru = s.ru := rfl
@[simp] theorem State.runTo_pu (s : State) (t : Nat) : (s.runTo t).pu = s.pu := rfl
@[simp] theorem State.runTo_au (s : State) (t : Nat) : (s.runTo t).au = s.au := rfl
@[simp] theorem State.runTo_ml (s : State) (t : Nat) : (s.runTo t).ml = s.ml := rfl
@[simp] theorem State.runTo_al (s : State) (t : Nat) : (s.runTo t).al = s.al := rfl
@[simp] theorem State.runTo_flags (s : State) (t : Nat) : (s.runTo t).flags = s.flags := rfl
@[simp] theorem State.runTo_counters (s : State) (t : Nat) : (s.runTo t).counters = s.counters := rfl
@[simp] theorem State.runTo_pending (s : State) (t : Nat) : (s.runTo t).pending = s.pending := rfl

end Sys2Proof.Machine
end

