-- ==== Sys2Proof/Laws/HostLink.lean ====
section
/-! SUPPORT. What the host's input does on the application link: while a request is worked on it is `State.meanwhile`,
and a request that comes whole is carried out, followed by what is sent meanwhile, and then answered. -/

namespace Sys2Proof.Machine

/-! ### A stretch while a request is worked on -/

/-- Requests that end while one is worked on: the last of them is held. -/
theorem Stretch.requestEnds_working (s : State) (r : Option (List Byte)) (q : EndedRequest) (es : List FramerEvent)
    (hq : s.al.buffer = .working q) : es.foldl Stretch.requestEnds ⟨s, r⟩ = ⟨s.withAl { s.al with
      held := match es.getLast? with
        | some e => some ⟨e.bytes, !s.started⟩
        | none => s.al.held }, r⟩ := by
  induction es generalizing s with
  | nil => rfl
  | cons e es ih =>
    have h1 : Stretch.requestEnds ⟨s, r⟩ e = ⟨s.withAl { s.al with held := some ⟨e.bytes, !s.started⟩ }, r⟩ := by
      simp [Stretch.requestEnds, hq]
    rw [List.foldl_cons, h1, ih _ (by simp [hq])]
    cases es <;> simp [State.withAl, State.started, List.getLast?_cons]

/-- What the host sends while a request is worked on. -/
theorem Stretch.inputs_working (inputs : List HostInput) (s : State) (r : Option (List Byte)) (q : EndedRequest)
    (hq : s.al.buffer = .working q) : inputs.foldl Stretch.input ⟨s, r⟩ = ⟨s.meanwhile inputs, r⟩ := by
  induction inputs generalizing s with
  | nil => rfl
  | cons x xs ih =>
    rw [List.foldl_cons]
    cases x with
    | bytes bs =>
      simp only [Stretch.input, Stretch.bytesCome, State.meanwhile]
      split
      · exact ih s hq
      · rw [Stretch.framed, Stretch.requestEnds_working _ _ q _ (by simpa using hq)]
        rw [ih _ (by simpa using hq)]
        rfl
    | gap =>
      simp only [Stretch.input, Stretch.gapPasses, State.meanwhile]
      split
      · exact ih s hq
      · rw [Stretch.framed, Stretch.requestEnds_working _ _ q _ (by simpa using hq)]
        rw [ih _ (by simpa using hq)]
        cases hf : s.al.framer <;> simp [Framer.gap, State.withAl, State.started, State.runTo, FramerEvent.bytes, State.withTb]

/-- Nothing but the queue of the link and time moves meanwhile, and the buffer stays as it is. -/
theorem State.meanwhile_buffer (inputs : List HostInput) (s : State) :
    (s.meanwhile inputs).al.buffer = s.al.buffer := by
  induction inputs generalizing s with
  | nil => rfl
  | cons x xs ih =>
    cases x <;> simp only [State.meanwhile] <;> split <;> simp [ih]

/-- What the host sends while a request is worked on changes the link and time alone. -/
theorem State.meanwhile_frame (inputs : List HostInput) (s : State) :
    State.onlyChanges [.tb, .al] s (s.meanwhile inputs) := by
  induction inputs generalizing s with
  | nil => exact State.onlyChanges.refl _ _
  | cons x xs ih =>
    cases x with
    | bytes bs =>
      simp only [State.meanwhile]
      split
      · exact ih s
      · exact ((State.withAl_frame s _).mono (by simp)).step (ih _) (fun _ hp => hp)
    | gap =>
      simp only [State.meanwhile]
      split
      · exact ih s
      · exact (((State.runTo_frame s _).mono (by simp)).step (State.withAl_frame _ _) (by simp)).step (ih _)
          (fun _ hp => hp)

@[simp] theorem State.meanwhile_keeps {ps : List Part} {s u : State} (inputs : List HostInput)
    (hp : ∀ p ∈ [Part.tb, Part.al], p ∈ ps) :
    State.onlyChanges ps s (u.meanwhile inputs) ↔ State.onlyChanges ps s u :=
  State.onlyChanges.iff (State.meanwhile_frame inputs u) hp

/-! ### A command of the link -/

/-- While a request is worked on, whatever the host sends is held. -/
theorem State.fromHost_working (s : State) (inputs : List HostInput) (q : EndedRequest)
    (hq : s.al.buffer = .working q) : s.fromHost inputs = s.meanwhile inputs := by
  rw [State.fromHost, Stretch.inputs_working inputs s none q hq]
  rfl

/-- A request ends whole in the first bytes sent, with none worked on: it is carried out, what is sent meanwhile is
taken, and its response is placed. -/
theorem State.fromHost_ended (s : State) (bytes : List Byte) (during : List HostInput) (f : Framer) (e : FramerEvent)
    (hb : bytes ≠ []) (hf : s.al.framer.feed requestMost bytes = (f, [e])) (hw : ∀ q, s.al.buffer ≠ .working q) :
    s.fromHost (.bytes bytes :: during) =
      let q : EndedRequest := ⟨e.bytes, !s.started⟩
      let r := (s.withAl { s.al with framer := f, lastByte := s.now, buffer := .working q }).replyTo q
      let u := r.state.meanwhile during
      u.withAl (u.al.place (responseTo q r)) := by
  have hal : ∀ (u : State) (q : EndedRequest), (u.replyTo q).state.al = u.al := fun u q =>
    (State.replyTo_frame u q) .al (by decide)
  have h1 : Stretch.input ⟨s, none⟩ (.bytes bytes) =
      (let q : EndedRequest := ⟨e.bytes, !s.started⟩
       let r := (s.withAl { s.al with framer := f, lastByte := s.now, buffer := .working q }).replyTo q
       ⟨r.state, some (responseTo q r)⟩) := by
    simp only [Stretch.input, Stretch.bytesCome, if_neg hb, Stretch.framed, hf, List.foldl_cons, List.foldl_nil]
    cases hbuf : s.al.buffer with
    | working q => exact absurd hbuf (hw q)
    | _ => simp [Stretch.requestEnds, State.withAl, State.started, State.now]
  rw [State.fromHost, List.foldl_cons, h1]
  simp only
  rw [Stretch.inputs_working during _ _ ⟨e.bytes, !s.started⟩ (by rw [hal]; rfl)]
  rfl

/-- A request record is written, with the framer idle and no request worked on. -/
theorem State.hostRequest_whole (s : State) (kind : Byte) (body : List Byte) (during : List HostInput)
    (hl : body.length + 1 ≤ requestMost) (hf : s.al.framer = .idle) (hw : ∀ q, s.al.buffer ≠ .working q) :
    s.hostRequest kind body during =
      let q : EndedRequest := ⟨linkRecord kind body, !s.started⟩
      let r := (s.withAl { s.al with lastByte := s.now, buffer := .working q }).replyTo q
      let u := r.state.meanwhile during
      u.withAl (u.al.place (responseTo q r)) := by
  have h := State.fromHost_ended s (linkRecord kind body) during .idle (.record (linkRecord kind body))
    (by simp [linkRecord, num16, bytes16]) (by rw [hf]; exact feed_linkRecord _ _ _ hl (by decide)) hw
  rw [State.hostRequest, h]
  simp only [FramerEvent.bytes, ← hf]

end Sys2Proof.Machine
end

