-- ==== Sys2Proof/Laws/Least.lean ====
section
/-! SUPPORT. What `leastFrom` and `leastEntry` find, once for every use of them (the classes of 01 R29 and 02 R41, the pending
order, the deferred list), and what a husk so found is (05 R107). -/

namespace Sys2Proof.Machine

theorem rankLess_irrefl (a : Nat × Nat) : rankLess a a = false := by simp [rankLess]

/-- Ranks that do not come later are ordered transitively. -/
theorem rankLess_trans_left {a b c : Nat × Nat} (h : rankLess b a = false) (h' : rankLess c b = false) :
    rankLess c a = false := by
  simp only [rankLess, Bool.or_eq_false_iff, Bool.and_eq_false_imp, decide_eq_false_iff_not, beq_iff_eq] at *
  omega

theorem rankLess_asymm {a b : Nat × Nat} (h : rankLess a b = true) : rankLess b a = false := by
  simp only [rankLess, Bool.or_eq_false_iff, Bool.and_eq_false_imp, decide_eq_false_iff_not, beq_iff_eq,
    Bool.or_eq_true, Bool.and_eq_true, decide_eq_true_eq] at *
  omega

/-- Where an element has a rank, something is found. -/
theorem leastFrom_ne_none {α : Type} {rank : α → Option (Nat × Nat)} {xs : List α} {n : Nat} {y : α} {l : Nat × Nat}
    (hy : y ∈ xs) (hl : rank y = some l) : leastFrom rank n xs ≠ none := by
  induction xs generalizing n with
  | nil => cases hy
  | cons a as ih =>
    unfold leastFrom
    rcases List.mem_cons.mp hy with rfl | hy
    · rw [hl]
      cases leastFrom rank (n + 1) as with
      | none => simp
      | some p => dsimp only; split <;> simp
    · cases h : leastFrom rank (n + 1) as with
      | none => exact absurd h (ih hy)
      | some p =>
        cases rank a with
        | none => simp
        | some k => dsimp only; split <;> simp

/-- What `leastFrom` finds is an element of the list with its rank, and no element has a lesser rank. -/
theorem leastFrom_some {α : Type} {rank : α → Option (Nat × Nat)} {xs : List α}
    {n i : Nat} {k : Nat × Nat} (h : leastFrom rank n xs = some (i, k)) :
      (∃ j x, i = n + j ∧ xs[j]? = some x ∧ rank x = some k) ∧ ∀ y ∈ xs, ∀ l, rank y = some l → rankLess l k = false := by
  induction xs generalizing n i k with
  | nil => simp [leastFrom] at h
  | cons a as ih =>
    unfold leastFrom at h
    cases ha : rank a with
    | none =>
      simp only [ha] at h
      obtain ⟨⟨j, x, hj, hx, hr⟩, hmin⟩ := ih h
      refine ⟨⟨j + 1, x, by omega, by simpa using hx, hr⟩, ?_⟩
      intro y hy l hl
      rcases List.mem_cons.mp hy with rfl | hy
      · rw [ha] at hl; cases hl
      · exact hmin y hy l hl
    | some ka =>
      cases hrest : leastFrom rank (n + 1) as with
      | none =>
        simp only [ha, hrest, Option.some.injEq, Prod.mk.injEq] at h
        obtain ⟨rfl, rfl⟩ := h
        refine ⟨⟨0, a, rfl, rfl, ha⟩, ?_⟩
        intro y hy l hl
        rcases List.mem_cons.mp hy with rfl | hy
        · rw [ha] at hl; cases hl; exact rankLess_irrefl _
        · exact absurd hrest (leastFrom_ne_none hy hl)
      | some jl =>
        obtain ⟨j0, l0⟩ := jl
        obtain ⟨⟨j, x, hj, hx, hr⟩, hmin⟩ := ih hrest
        simp only [ha, hrest] at h
        split at h
        · next hlt =>
          simp only [Option.some.injEq, Prod.mk.injEq] at h
          obtain ⟨rfl, rfl⟩ := h
          refine ⟨⟨j + 1, x, by omega, by simpa using hx, hr⟩, ?_⟩
          intro y hy l hl
          rcases List.mem_cons.mp hy with rfl | hy
          · rw [ha] at hl; cases hl; exact rankLess_asymm hlt
          · exact hmin y hy l hl
        · next hge =>
          simp only [Option.some.injEq, Prod.mk.injEq] at h
          obtain ⟨rfl, rfl⟩ := h
          refine ⟨⟨0, a, rfl, rfl, ha⟩, ?_⟩
          intro y hy l hl
          rcases List.mem_cons.mp hy with rfl | hy
          · rw [ha] at hl; cases hl; exact rankLess_irrefl _
          · exact rankLess_trans_left (by simpa using hge) (hmin y hy l hl)

/-- The entry of least rank is one of the table that has a rank. -/
theorem State.leastEntry_some {s : State} {rank : Entry → Option (Nat × Nat)} {i : Nat} (h : s.leastEntry rank = some i) :
    i < s.table.length ∧ ∃ k, rank (s.entry i) = some k
      ∧ ∀ e ∈ s.table, ∀ l, rank e = some l → rankLess l k = false := by
  unfold State.leastEntry at h
  cases hf : leastFrom rank 0 s.table with
  | none => rw [hf] at h; cases h
  | some p =>
    obtain ⟨i', k⟩ := p
    rw [hf] at h
    cases h
    obtain ⟨⟨j, x, hj, hx, hr⟩, hmin⟩ := leastFrom_some hf
    have hij : i' = j := by omega
    subst hij
    refine ⟨(List.getElem?_eq_some_iff.mp hx).1, k, ?_, hmin⟩
    simpa [State.entry, List.getD_eq_getElem?_getD, hx] using hr

/-- For a fragment any husk may be reclaimed (01 R29). -/
theorem State.huskChoice_fragment (s : State) (key : Key) :
    s.huskChoice key false = s.leastEntry (Entry.huskRank key) := by
  simp [State.huskChoice]

/-- The husk that an OFFER reclaims is one whose husk hold has not ended (05 R107). -/
theorem State.huskChoice_offer {s : State} {key : Key} {i : Nat} (h : s.huskChoice key true = some i) :
    i < s.table.length ∧ (s.entry i).isHusk = true ∧ s.uptime < (s.entry i).huskEnd s.settings.huskHold := by
  obtain ⟨hi, k, hk, _⟩ := State.leastEntry_some h
  refine ⟨hi, ?_⟩
  by_cases hd : (s.entry i).huskEnd s.settings.huskHold ≤ s.uptime
  · simp [hd] at hk
  · by_cases hh : (s.entry i).isHusk = true
    · exact ⟨hh, Nat.lt_of_not_le hd⟩
    · simp [hd, Entry.huskRank, hh] at hk

end Sys2Proof.Machine
end

