-- ==== Sys2Proof/Laws/Memory.lean ====
section
/-! SUPPORT. The store keeps its one form: 160 slots of at most 48 bytes (02 R40). -/

namespace Sys2Proof.Machine

/-- What the form says. -/
theorem Memory.wf_iff (m : Memory) : m.wf = true ↔ m.length = 160 ∧ ∀ p ∈ m, p.length ≤ 48 := by
  simp [Memory.wf]

/-- A write keeps the form. -/
theorem Memory.write_wf (m : Memory) (slot : Nat) (payload : List Byte) (h : m.wf = true) :
    (m.write slot payload).wf = true := by
  rw [Memory.wf_iff] at h ⊢
  refine ⟨by simp [Memory.write, h.1], fun p hp => ?_⟩
  rcases List.mem_or_eq_of_mem_set hp with hp | rfl
  · exact h.2 p hp
  · simp

/-- A written slot reads as the payload written. -/
theorem Memory.read_write_same (m : Memory) (slot : Nat) (payload : List Byte) (h : slot < m.length)
    (hp : payload.length ≤ 48) : (m.write slot payload).read slot = payload := by
  simp [Memory.read, Memory.write, List.getD_eq_getElem?_getD, h, List.take_of_length_le hp]

/-- Every other slot reads as before. -/
theorem Memory.read_write_other (m : Memory) (slot other : Nat) (payload : List Byte) (h : other ≠ slot) :
    (m.write slot payload).read other = m.read other := by
  simp [Memory.read, Memory.write, List.getD_eq_getElem?_getD, Ne.symm h]

/-- The store after reset has the form. -/
theorem State.reset_store_wf : State.reset.store.wf = true := by decide +kernel

end Sys2Proof.Machine
end

