-- ==== Sys2Proof/Laws/ModemLine.lean ====
section
/-! SUPPORT. What the hand-over of a record, a HELLO and a fall of the modem ready line leave of the Modem Link: no record
is lost, no marker moves (09 R177, R179). -/

namespace Sys2Proof.Machine

/-- The records the Modem Link has still to send, in the order they go: the one being sent, then the hold. -/
def ModemLink.toSend (m : ModemLink) : List ModemRecord := m.sending.toList ++ m.hold

/-- Beginning to send moves the head of the hold and nothing else: the records to send are the same, in the same order. -/
theorem ModemLink.trySend_toSend (m : ModemLink) : m.trySend.toSend = m.toSend := by
  unfold trySend toSend
  split
  · next h1 h2 => split <;> simp [h1, h2]
  · rfl

@[simp] theorem ModemLink.trySend_queryMarker (m : ModemLink) : m.trySend.queryMarker = m.queryMarker := by
  unfold trySend; split <;> (try split) <;> rfl

@[simp] theorem ModemLink.trySend_uplinkMarker (m : ModemLink) : m.trySend.uplinkMarker = m.uplinkMarker := by
  unfold trySend; split <;> (try split) <;> rfl

@[simp] theorem ModemLink.trySend_modemReady (m : ModemLink) : m.trySend.modemReady = m.modemReady := by
  unfold trySend; split <;> (try split) <;> rfl

/-- Noting a HELLO's moment changes the note alone. -/
theorem ModemLink.noteHello_eq (m before : ModemLink) (now : Nat) :
    m.noteHello before now = { m with helloBegan := (m.noteHello before now).helloBegan } := by
  unfold noteHello; split <;> rfl

/-- A fall of the line loses no record and moves none past another. -/
theorem ModemLink.lineFalls_toSend (m : ModemLink) (now : Nat) : (m.lineFalls now).toSend = m.toSend := by
  unfold lineFalls toSend
  split
  · next h => split <;> simp [h]
  · next h => simp [h]

/-- After a fall the line is low. -/
@[simp] theorem ModemLink.lineFalls_modemReady (m : ModemLink) (now : Nat) : (m.lineFalls now).modemReady = false := by
  unfold lineFalls; split <;> (try split) <;> rfl

@[simp] theorem ModemLink.lineFalls_queryMarker (m : ModemLink) (now : Nat) :
    (m.lineFalls now).queryMarker = m.queryMarker := by
  unfold lineFalls; split <;> (try split) <;> rfl

@[simp] theorem ModemLink.lineFalls_uplinkMarker (m : ModemLink) (now : Nat) :
    (m.lineFalls now).uplinkMarker = m.uplinkMarker := by
  unfold lineFalls; split <;> (try split) <;> rfl

/-- With no HELLO's record begun at this very ms, the fall lowers the line and does nothing else (09 R177). -/
theorem ModemLink.lineFalls_of_ne (m : ModemLink) (now : Nat) (h : m.helloBegan ≠ some now) :
    m.lineFalls now = { m with modemReady := false } := by
  unfold lineFalls; split <;> simp [h]

end Sys2Proof.Machine
end

