-- ==== Sys2Proof/Tests/Slice0.lean ====
section
/-! SUPPORT. Tests of the model: well-formedness, the spec's worked values, one step of the commands, and for every
statement a state and operands that meet its hypotheses. -/

namespace Sys2Proof.Tests

open Sys2Proof.Machine

set_option Elab.async false

/-! ### Well-formedness: each check refuses an ill-formed command -/

theorem test_wf_fragment_length :
    (Instr.fragment (List.replicate 16 1)).wf = false ∧ (Instr.fragment (List.replicate 106 1)).wf = false
      ∧ (Instr.fragment (List.replicate 17 1)).wf = true ∧ (Instr.fragment (List.replicate 105 1)).wf = true := by decide

theorem test_wf_region_answer : (Instr.region 1 2 0).wf = false ∧ (Instr.region 1 1 0).wf = true := by decide

theorem test_wf_uplinkResult_outcome :
    (Instr.uplinkResult 1 2 3 0).wf = false ∧ (Instr.uplinkResult 1 2 3 3).wf = false
      ∧ (Instr.uplinkResult 1 2 3 2).wf = true := by decide

theorem test_wf_linkRecordDropped :
    (Instr.linkRecordDropped (linkRecord 1 [])).wf = false ∧ (Instr.linkRecordDropped (linkRecord 9 [])).wf = true
      ∧ (Instr.linkRecordDropped [0, 0]).wf = true ∧ (Instr.linkRecordDropped [0, 107]).wf = true
      ∧ (Instr.linkRecordDropped [0, 1, 1]).wf = false := by decide +kernel

theorem test_wf_modemGapTimeout :
    (Instr.modemGapTimeout (linkRecord 1 [])).wf = false ∧ (Instr.modemGapTimeout [0, 1, 1]).wf = true := by
  decide +kernel

theorem test_wf_during_request :
    (Instr.claim 7 [.bytes []]).wf = false ∧ (Instr.badRequestRecord [0, 8] [.bytes []]).wf = false
      ∧ (Instr.claim 7 [.bytes (linkRecord 0x21 [8]), .gap, .bytes [0, 8]]).wf = true := by decide

theorem test_wf_badRequestRecord :
    (Instr.badRequestRecord (linkRecord 0x21 [1]) []).wf = false ∧ (Instr.badRequestRecord [0, 2] []).wf = false
      ∧ (Instr.badRequestRecord (linkRecord 0x20 [1]) []).wf = true ∧ (Instr.badRequestRecord [0, 8] []).wf = true := by
  decide +kernel

theorem test_wf_appGapTimeout :
    (Instr.appGapTimeout (linkRecord 0x21 [1]) []).wf = false ∧ (Instr.appGapTimeout [0, 2, 0x21] []).wf = true := by
  decide +kernel

theorem test_wf_badFrame :
    (Instr.badFrame (frameBytes .yield 9 [0, 1, 0, 0, 2, 3])).wf = false ∧ (Instr.badFrame []).wf = true := by
  decide +kernel

theorem test_wf_frame_bodies :
    (Instr.offer 9 (List.replicate 7 1)).wf = false ∧ (Instr.want 9 (List.replicate 9 1)).wf = false
      ∧ (Instr.piece 9 (List.replicate 16 1)).wf = false ∧ (Instr.tally 9 [0, 1, 0, 0, 2, 3, 0]).wf = false
      ∧ (Instr.stand 9 []).wf = false ∧ (Instr.covered 9 [0, 1, 0, 0, 2, 3, 1, 0]).wf = false
      ∧ (Instr.yield 9 (List.replicate 5 1)).wf = false ∧ (Instr.yield 9 (List.replicate 6 1)).wf = true := by decide

theorem test_wf_frame_sender :
    (Instr.yield 0 (List.replicate 6 1)).wf = false ∧ (Instr.yield 0xFFFFFFFF (List.replicate 6 1)).wf = false := by
  decide

theorem test_wf_entry_index :
    (Instr.assemblyTimeout 32).wf = false ∧ (Instr.expiryDeadline 32).wf = false ∧ (Instr.huskHoldEnd 32).wf = false
      ∧ (Instr.verdictProcedure 32).wf = false ∧ (Instr.offerPoint 32).wf = false
      ∧ (Instr.offerIntervalEnd 32).wf = false ∧ (Instr.gapFillTimerEnd 32).wf = false
      ∧ (Instr.gapFillTimerEnd 31).wf = true := by decide

theorem test_wf_tally_number :
    (Instr.reportDelayEnd 8).wf = false ∧ (Instr.standHoldEnd 8).wf = false ∧ (Instr.collectionWindowEnd 8).wf = false
      ∧ (Instr.contributorGuardEnd 8).wf = false ∧ (Instr.contributorGuardEnd 7).wf = true := by decide

/-! ### Values that the spec works out -/

/-- 11 R194: the check code over the nine characters 1 to 9 is AEE7. -/
theorem test_check_code : checkCode [0x31, 0x32, 0x33, 0x34, 0x35, 0x36, 0x37, 0x38, 0x39] = 0xAEE7#16 := by
  decide +kernel

/-- 02 R45: 41 1B 05 2D 42 stands for seven bytes. -/
theorem test_expansion : scan [0x41, 0x1B, 5, 0x2D, 0x42] 0 = .length 7
    ∧ expand [0x41, 0x1B, 5, 0x2D, 0x42] = [0x41, 0x2D, 0x2D, 0x2D, 0x2D, 0x2D, 0x42] := by decide +kernel

/-- 02 R45: a run of count 0, one cut short and one past 2,048 bytes, each after bytes that are in order. -/
theorem test_scan_ends :
    scan [0x41, 0x1B, 0, 0x2D, 0x42] 0 = .error ∧ scan [0x41, 0x1B, 5] 0 = .error ∧ scan [0x41, 0x1B] 0 = .error
      ∧ scan [0x1B, 0, 0x2D] 2048 = .error ∧ scan [0x41] 2048 = .tooLong ∧ scan [0x41] 2047 = .length 2048
      ∧ scan [0x1B, 255, 0x2D, 0x1B] 1793 = .error ∧ scan [0x1B, 255, 0x2D, 0x1B] 1794 = .tooLong := by decide +kernel

/-! ### Small states -/

/-- Draws of a test's random source. -/
def tape : List Nat := [17, 40, 3, 99, 5, 61, 2, 8]

/-- The state after reset, with a tape of draws. -/
def fresh : State := State.reset.withTb { State.reset.tb with draws := tape }

/-- The loader of a part past start-up. -/
def loaded : Loader := { State.reset.sl with phase := .finished }

/-- The ready state with the relay channel up, the modem ready, full service in cell 7, at 100 s. -/
def base : State :=
  { fresh with
    tb := { fresh.tb with uptime := 100 }
    sl := loaded
    cs := { fresh.cs with port := .up, ready := true, tag := 5 }
    ml := { fresh.ml with partReady := true, modemReady := true }
    ar := { fresh.ar with cell := 7, service := .full, quality := 2 } }

/-- What a command leaves. -/
def after (c : Instr) (s : State) : State :=
  match exec c s with
  | .next t => t
  | _ => State.reset

/-- The issuance the tests speak of. -/
def issueA : Issue := ⟨⟨1, 2⟩, 3⟩

/-- A fragment of one revision of the key of `issueA`, with a check over the payload it starts with. -/
def frag (revision : BitVec 4) (index total : Nat) (payload : List Byte) : Fragment :=
  { issue := ⟨issueA.key, revision⟩, index := index, total := total, kind := .new, category := .severe
    issueTime := 1000, duration := 30, bodyCheck := checkCode payload, areas := [], payload := payload }

/-- An entry of `issueA` with a whole body of one fragment in slot 0. -/
def whole (state : EntryState) : Entry :=
  { Entry.freed 9 with
    state := state, issue := some issueA, kind := some .new, category := some .severe, total := 1
    map := emptyMap.set 0 (some 0), bodyCheck := some (checkCode [0x41]), expandedLength := some 1
    issueTime := some 1000, duration := some 30, heardBroadcast := true, lastFragment := some 90, takenAt := some 90
    deadline := some 1890 }

/-- An ASSEMBLING entry of `issueA` that holds index 0 of two in slot 0. -/
def collecting : Entry :=
  { whole .assembling with
    total := 2, expandedLength := none, deadline := none, assemblyTimer := some 180000
    want := some ⟨105000, none⟩ }

/-- Slot 0 holds a payload and is off the free list. -/
def stored (s : State) (payload : List Byte) : State :=
  (s.withStore (s.store.set 0 payload)).withFree (s.free.drop 1)

/-- A PENDING entry 4 of precedence 5. -/
def pendingE : Entry := { whole .pending with precedence := some 5, stamp := some 95000, verdict := .inside }

/-- The entry 4 above, claimed in slot 2. -/
def claimedE : Entry := { pendingE with state := .claimed, claimSlot := some 2 }

/-- A state with the one entry, its body stored. -/
def withEntry (e : Entry) : State := (stored base [0x41]).setEntry 4 e

/-- A state with entry 4 PENDING and the owner. -/
def pendingState : State :=
  (withEntry pendingE).withAu { base.au with owner := some ⟨4, 9, 5⟩, cadence := some ⟨1, ⟨.on, 0, some 100100⟩, ⟨.on, 0, some 100100⟩⟩ }

/-- A state with entry 4 CLAIMED in slot 2. -/
def claimedState : State :=
  (pendingState.setEntry 4 claimedE).withPu { base.pu with slots := [none, none, some ⟨4, 9⟩, none] }

/-- A tally of `issueA` in a state, with our own tag 5 and one peer's tag in its set. -/
def tallyIn (state : AgentState) : Tally :=
  { issue := issueA, state := state, ownTag := 5, ownLevel := .receipt, reported := .none, bid := 500
    reporter := none, failures := 0, superseded := false, ended := false, settleTime := none
    members := [⟨5, false, .none⟩, ⟨8, true, .receipt⟩], timer := some 101000, digest := [] }

/-- A state with one tally, number 0. -/
def withTally (y : Tally) : State := base.withRu { base.ru with tallies := base.ru.tallies.set 0 (some y) }

/-- A state with one frame in flight. -/
def inAir (f : Payload) : State :=
  base.withCs { base.cs with inFlight := some ⟨f, false, 100050, frameBytes f.kind 5 f.body⟩ }

/-- A state with a frame at the head of the control queue, its contender waiting. -/
def contending (count : Nat) : State :=
  base.withCs { base.cs with control := [.yield issueA], contender := some ⟨.control, count, some 100002⟩ }

/-! ### Small facts for the witnesses -/

theorem beyond_table {s : State} {j : Nat} (h : s.table.length ≤ j) : s.entry j = Entry.freed 0 := by
  simp [State.entry, List.getD_eq_getElem?_getD, List.getElem?_eq_none h]

/-- What holds of every entry of the table, and of a FREE one, holds at every index. -/
theorem every_entry {s : State} {P : Nat → Entry → Prop} (inside : ∀ j, j < s.table.length → P j (s.entry j))
    (outside : ∀ j, P j (Entry.freed 0)) (j : Nat) : P j (s.entry j) := by
  by_cases h : j < s.table.length
  · exact inside j h
  · rw [beyond_table (Nat.le_of_not_lt h)]; exact outside j

theorem names_no_slot {m : List (Option Nat)} {slot : Nat} (h : some slot ∉ m) (k : Nat) : m.getD k none ≠ some slot := by
  intro e
  rw [List.getD_eq_getElem?_getD] at e
  cases hk : m[k]? with
  | none => simp [hk] at e
  | some x =>
    rw [hk] at e
    exact h (List.mem_of_getElem? (hk.trans (by simpa using e)))

theorem live_of_unset {s : State} {f : Fragment} (h : s.tb.alertClock = none) : s.isLive f := by
  intro now h'; rw [h] at h'; cases h'

theorem live_at {s : State} {f : Fragment} {c : Nat} (h : s.tb.alertClock = some c)
    (hc : c < f.issueTime.toNat + f.duration.toNat * 60) : s.isLive f := by
  intro now h'; rw [h] at h'; cases h'; exact hc

theorem quiet_rests {s : State} (hc : s.cs.control = []) (hb : s.cs.bulk = []) : s.ArbiterRests :=
  fun _ _ _ => ⟨hc, hb⟩

theorem quiet_has_no_piece {s : State} (record : List Byte) (hb : s.cs.bulk = []) (hf : s.cs.inFlight = none) :
    s.NoPieceLike record := by
  intro i k _; rw [hb, hf]; exact ⟨nofun, nofun⟩

/-! ### Hypotheses that states meet: machine and start-up -/

/-- IdleStepPassesOneMs: a ms within a second, the last ms but one, the last ms. -/
theorem test_hyp_idle :
    (base.pending = [] ∧ base.tb.milli < 1000 ∧ base.now < lastMs)
      ∧ (∃ s : State, s.pending = [] ∧ s.tb.milli = 999 ∧ s.now = 100999 ∧ s.now < lastMs)
      ∧ (∃ s : State, s.pending = [] ∧ s.tb.milli < 1000 ∧ s.now + 1 = lastMs)
      ∧ ∃ s : State, s.pending = [] ∧ s.tb.milli < 1000 ∧ s.now = lastMs :=
  ⟨by decide +kernel, ⟨base.withTb { base.tb with milli := 999 }, by decide +kernel⟩,
    ⟨base.withTb { base.tb with uptime := 4294967295, milli := 998 }, by decide +kernel⟩,
    ⟨base.withTb { base.tb with uptime := 4294967295, milli := 999 }, by decide +kernel⟩⟩

/-- The tick: the second turns over with the clock; at the last ms nothing changes. -/
theorem test_tick :
    (base.withTb { base.tb with milli := 999, alertClock := some 7 }).tick.tb
        = { base.tb with uptime := 101, milli := 0, alertClock := some 8 }
      ∧ (base.withTb { base.tb with uptime := 4294967295, milli := 999 }).tick.tb.uptime = 4294967295 := by
  decide +kernel

/-- EveryCommandAnswersNext. -/
theorem test_hyp_every : Instr.hello ≠ .powerOn ∧ base.started = true := by decide +kernel

/-- ProbeJudgesHeader: a right header with zones and without, no answer, a wrong signature, bit 0 set. -/
theorem test_hyp_probe :
    fresh.Starting ∧ fresh.sl.phase = .probing
      ∧ (0xB3AA#16).extractLsb' 5 11 = 0b10110011101#11 ∧ (0xB3AA#16).getLsbD 0 = false ∧ headerZones 0xB3AA = [1, 3]
      ∧ (0xB3A0#16).extractLsb' 5 11 = 0b10110011101#11 ∧ (0xB3A0#16).getLsbD 0 = false ∧ headerZones 0xB3A0 = []
      ∧ (0xB3CA#16).extractLsb' 5 11 ≠ 0b10110011101#11 ∧ (0xB3AB#16).getLsbD 0 = true := by
  unfold State.Starting; decide +kernel

/-- 10 R186: what the probe leaves. -/
theorem test_exec_configProbe :
    (after (.configProbe (some 0xB3AA)) fresh).sl.zones = [1, 3]
      ∧ (after (.configProbe none) fresh).flags.configDefaulted = true
      ∧ (after (.configProbe none) fresh).started = true ∧ (after (.configProbe none) fresh).cs.tag ≠ 0 := by
  decide +kernel

/-- A loader that reads records at an address. -/
def readingAt (address : Nat) (zones : List Nat) : State :=
  fresh.withSl { phase := .reading, zones := zones, address := address, check := 0x1234#16 }

/-- RecordLoadedOrSkipped: the first and the last place of a record, a good one of two zones, one that is skipped. -/
theorem test_hyp_record :
    (readingAt 1 [1, 3]).sl.phase = .reading ∧ (readingAt 1 [1, 3]).sl.address < 511
      ∧ (readingAt 510 [1]).sl.address < 511 ∧ (readingAt 1 [1, 3]).sl.zones = 1 :: [3]
      ∧ (0x0280#16).extractLsb' 0 7 = 0#7 ∧ (0x0280#16).getLsbD 7 = true ∧ settingZone 2 = some 1
      ∧ settingInRange 2 16 = true ∧ settingInRange 2 5 = false ∧ settingZone 16 = some 2
      ∧ settingZone 6 = some 1 ∧ settingInRange 6 8 = true ∧ settingInRange 5 16 = true := by decide +kernel

/-- The two tests that join settings 5 and 6 (10 R188), each at a value that only it refuses. -/
theorem test_hyp_record_joined : ∃ s t : State, s.settings.offerMin = 9 ∧ settingInRange 6 8 = true
    ∧ t.settings.offerMax = 8 ∧ settingInRange 5 9 = true :=
  ⟨fresh.withSettings { fresh.settings with offerMin := 9 }, fresh.withSettings { fresh.settings with offerMax := 8 },
    by decide +kernel⟩

/-- The image of 10.6, up to a check word. -/
def imageSteps : List Instr :=
  [.configProbe (some 0xB3AA), .configRecord 0x0200 16, .configRecord 0x0600 8, .configRecord 0x0500 16,
    .configRecord 0x0780 3, .configRecord 0x2100 0, .configRecord 0x1000 10]

/-- 10.6: the values, the count of skipped records, the place of the check word; and the silence at address 12. -/
theorem test_image :
    let s := imageSteps.foldl (fun s c => after c s) fresh
    let t := after (.configRecord 0x2280 120) s
    t.sl.phase = .checking ∧ t.sl.address = 15 ∧ t.settings.cwMin = 16 ∧ t.settings.offerMax = 8
      ∧ t.settings.offerMin = 2 ∧ t.settings.redundancy = 3 ∧ t.settings.queryTimeout = 3 ∧ t.settings.reportStep = 4
      ∧ t.settings.assemblyTimeout = 120 ∧ t.counters.configSkipped = 3
      ∧ (after (.configCheckWord t.sl.check) t).flags = FaultFlags.clear
      ∧ (after (.configCheckWord t.sl.check) t).cs.cw = 16
      ∧ (after (.configCheckWord 0) t).flags.configCrc = true
      ∧ (after .memorySilent s).flags.configCrc = true ∧ (after .memorySilent s).started = true := by decide +kernel

/-- ImageEndsStartUp: each of its ends. -/
theorem test_hyp_image_end :
    let checking := fresh.withSl { phase := .checking, zones := [], address := 511, check := 0x1234#16 }
    checking.Starting ∧ checking.sl.address < 512 ∧ (0#16) ≠ checking.sl.check ∧ checking.sl.phase = .checking
      ∧ (readingAt 511 [1]).Starting ∧ (readingAt 511 [1]).sl.phase = .reading
      ∧ 511 ≤ (readingAt 511 [1]).sl.address := by
  unfold State.Starting; decide +kernel

/-- 10 R184. -/
theorem test_exec_powerOn :
    (after .powerOn base).sl.phase = .probing ∧ (after .powerOn base).cs.ready = true
      ∧ (after .powerOn base).cs.port = .down ∧ (after .powerOn base).now = 0 := by decide +kernel

/-! ### The modem link -/

/-- TimeSetsAlertClock, HelloForgets, CellReplacesLocation (bad and good service and quality, at their ends). -/
theorem test_hyp_modem :
    base.ModemIdle ∧ base.ml.queryMarker = none ∧ base.ml.uplinkMarker = none
      ∧ 2 < (3 : Byte).toNat ∧ 3 < (4 : Byte).toNat ∧ (2 : Byte).toNat = Service.full.code ∧ (3 : Byte).toNat ≤ 3
      ∧ base.ar.cell = 7 := by
  unfold State.ModemIdle; decide +kernel

/-- HelloForgets: both markers present. -/
theorem test_hyp_hello_markers : ∃ s : State, s.ModemIdle ∧ s.ml.queryMarker ≠ none ∧ s.ml.uplinkMarker ≠ none :=
  ⟨base.withMl { base.ml with queryMarker := some 3, uplinkMarker := some issueA }, by
    unfold State.ModemIdle; decide +kernel⟩

/-- An entry of `issueA` with an area to check. -/
def areaEntry (state : EntryState) : Entry := { whole state with areas := [⟨0x0A142800, 3⟩] }

/-- Two entries, LOCATING and OUTSIDE, with areas, and a query out for cell 9. -/
def locatingState : State :=
  ((((stored base [0x41]).setEntry 4 (areaEntry .locating)).setEntry 6
    { areaEntry .outside with map := emptyMap, verdict := .outside }).withAr
      { base.ar with waiting := [4], queryTimer := some 103000 }).withMl { base.ml with queryMarker := some 9 }

/-- CellReplacesLocation, its second half. -/
theorem test_hyp_cell_change :
    locatingState.ModemIdle ∧ locatingState.OwnerLaw ∧ (8 : Word32) ≠ locatingState.ar.cell ∧ (8 : Word32) ≠ 0
      ∧ locatingState.ar.cached 8 = none ∧ locatingState.ml.queryMarker = some 9
      ∧ locatingState.settings.areaCheck ≠ 0
      ∧ (∀ e ∈ locatingState.table, e.state = .locating ∨ e.state = .outside → e.areas ≠ [])
      ∧ (locatingState.entry 4).state = .locating ∧ (locatingState.entry 6).state = .outside := by
  unfold State.ModemIdle State.OwnerLaw; decide +kernel

/-- What the records do. -/
theorem test_exec_cell_time_hello :
    (after (.cell 8 2 3) locatingState).ar.waiting = [4, 6] ∧ (after (.cell 8 3 3) base).counters.linkError = 1
      ∧ (after (.time 77) base).tb.alertClock = some 77
      ∧ (after .hello locatingState).flags.queryTimeout = true
      ∧ (after .hello locatingState).ml.queryMarker = some 7 := by decide +kernel

/-- HelloForgets, CellReplacesLocation, RegionAnswersQuery, QueryTimeoutEndsQuery: an end of a query for an old cell, with
one entry waiting, its body held: a code in the cache for the serving cell that matches and that does not, none, and no
serving cell; and with none waiting. -/
theorem test_follow_up :
    let coded (code : Word32) := locatingState.withAr (locatingState.ar.filled 7 code)
    let lost := locatingState.withAr { locatingState.ar with cell := 0 }
    let idle := locatingState.withAr { locatingState.ar with waiting := [] }
    let verdicts (c : Instr) := [coded 0x0A142811, coded 0x0B142811, lost].map fun s => ((after c s).entry 4).verdict
    locatingState.ml.uplinkMarker = none ∧ locatingState.ar.waiting = [4] ∧ (locatingState.entry 4).bodyHeld = true
      ∧ (locatingState.entry 4).category = some .severe ∧ lost.ml.queryMarker = some 9 ∧ (9 : Word32) ≠ lost.ar.cell
      ∧ areaMatches (locatingState.entry 4).areas 0x0A142811 = true
      ∧ areaMatches (locatingState.entry 4).areas 0x0B142811 = false
      ∧ verdicts (.region 9 0 0) = [.inside, .outside, .unresolved]
      ∧ verdicts .queryTimerEnd = [.inside, .outside, .unresolved]
      ∧ ((after .hello lost).entry 4).verdict = .unresolved
      ∧ (after (.region 9 1 0x0C000000) locatingState).ml.queryMarker = some 7
      ∧ (after (.region 9 1 0x0C000000) idle).ml.queryMarker = none := by decide +kernel

/-- CellReplacesLocation, its last part: one OUTSIDE entry, its body held, and the new cell's code in the cache. -/
theorem test_hyp_cell_cached :
    let s := (withEntry { areaEntry .outside with verdict := .outside }).withAr (base.ar.filled 8 0x0A142811)
    s.ar.cached 8 = some 0x0A142811 ∧ (s.entry 4).state = .outside ∧ (s.entry 4).areas ≠ []
      ∧ (∀ e ∈ s.table.eraseIdx 4, e.state ≠ .locating ∧ e.state ≠ .outside)
      ∧ ((after (.cell 8 2 3) s).entry 4).state = .pending ∧ ((after (.cell 8 2 3) s).entry 4).verdict = .inside := by
  decide +kernel

/-- A cache of eight valid entries, cells 1 to 8. -/
def fullCache : Resolver :=
  { base.ar with cache := (List.range 8).map fun n => ⟨true, BitVec.ofNat 32 (n + 1), 0x0A000000⟩ }

/-- CacheKeepsUse: a fill of a cell held at either end, of one that is absent with an invalid entry and with none. -/
theorem test_hyp_cache :
    fullCache.cache.length = 8 ∧ fullCache.cached 9 = none ∧ (∀ y ∈ fullCache.cache, y.valid = true)
      ∧ fullCache.cache = [] ++ (⟨true, 1, 0x0A000000⟩ :: fullCache.cache.tail)
      ∧ fullCache.cache = fullCache.cache.dropLast ++ (⟨true, 8, 0x0A000000⟩ :: [])
      ∧ (∀ y ∈ fullCache.cache.dropLast, y.valid = false ∨ y.cell ≠ 8) ∧ fullCache.cached 8 = some 0x0A000000
      ∧ base.ar.cache = base.ar.cache.dropLast ++ (⟨false, 0, 0⟩ :: []) ∧ base.ar.cached 9 = none
      ∧ (8 : Word32) ≠ 1 := by decide +kernel

/-- CacheKeepsUse: a lookup moves its entry to the front, the others keep their order. -/
theorem test_touch_keeps_order :
    (fullCache.touched 3).cache.map (fun c => c.cell.toNat) = [3, 1, 2, 4, 5, 6, 7, 8]
      ∧ fullCache.cache = fullCache.cache.take 2 ++ (⟨true, 3, 0x0A000000⟩ :: fullCache.cache.drop 3)
      ∧ (∀ y ∈ fullCache.cache.take 2, y.valid = false ∨ y.cell ≠ 3) := by decide +kernel

/-- CellReplacesLocation, VerdictProcedureDecides, RegionAnswersQuery: a query behind an uplink that is being sent or waits
for the line, and one begun at once. -/
theorem test_query_place :
    let idle := locatingState.withMl { base.ml with queryMarker := none }
    let up : ModemRecord := .uplink issueA 5 []
    let sends (s : State) := (s.ml.sending, s.ml.hold)
    let cell (s : State) := sends (after (.cell 8 2 3) s)
    let low := { base.ml with modemReady := false, hold := [up] }
    cell idle = (some (.regionQuery 8), [])
      ∧ cell (idle.withMl { base.ml with sending := some up }) = (some up, [.regionQuery 8])
      ∧ cell (idle.withMl low) = (none, [up, .regionQuery 8])
      ∧ sends (after (.region 9 1 0x0C000000) (idle.withMl { low with queryMarker := some 9 }))
          = (none, [up, .regionQuery 7])
      ∧ (low.handed (.regionQuery 8)).hold = [up, .regionQuery 8] := by decide +kernel

/-- RegionAnswersQuery: an answer that meets no query, and the answer to the query for the serving cell. -/
theorem test_hyp_region :
    let s := (locatingState.withAr { locatingState.ar with cell := 9 })
    base.ModemIdle ∧ base.ml.queryMarker ≠ some 9
      ∧ s.ModemIdle ∧ s.ml.queryMarker = some s.ar.cell ∧ s.ar.waiting = [4] ∧ 4 < s.table.length
      ∧ (s.entry 4).bodyHeld = true ∧ (s.entry 4).category = some .severe
      ∧ areaMatches (s.entry 4).areas 0x0A142811 = true ∧ areaMatches (s.entry 4).areas 0x0B142811 = false
      ∧ (after (.region 9 1 0x0A142811) s).au.owner = some ⟨4, 9, 5⟩
      ∧ ((after (.region 9 1 0x0B142811) s).entry 4).state = .outside
      ∧ ((after (.region 9 0 0) s).entry 4).verdict = .unresolved := by
  unfold State.ModemIdle; decide +kernel

/-- RegionAnswersQuery with precedence 0: the category is opted out. -/
theorem test_hyp_region_withheld :
    let s := (locatingState.withAr { locatingState.ar with cell := 9 }).withPu { base.pu with optout := 4 }
    s.ml.queryMarker = some s.ar.cell ∧ s.pu.optout.getLsbD Category.severe.code = true
      ∧ ((after (.region 9 1 0x0A142811) s).entry 4).closureReason = some .withheld := by decide +kernel

/-- A state whose tally 0 has its uplink out. -/
def uplinkOut (y : Tally) : State :=
  (withTally y).withMl { base.ml with uplinkMarker := some issueA }

/-- The tally of the uplink: its digest holds our tag. -/
def uplinking : Tally := { tallyIn .uplinking with timer := some 120000, digest := [⟨5, .receipt⟩, ⟨8, .ack⟩] }

/-- UplinkEnds: results that match and do not, and the uplink timeout. -/
theorem test_hyp_uplink :
    let s := uplinkOut uplinking
    s.ModemIdle ∧ base.ml.uplinkMarker ≠ some issueA ∧ s.ml.uplinkMarker = some uplinking.issue
      ∧ s.findTally uplinking.issue = some 0 ∧ s.tally 0 = some uplinking ∧ uplinking.ended = false
      ∧ uplinking.superseded = false ∧ s.ru.deferred = [] ∧ s.ru.uplinkQueue = []
      ∧ uplinking.state = .uplinking ∧ uplinking.timer = some 120000 ∧ 120000 ≤ lastMs
      ∧ uplinking.reported.rank < uplinking.ownLevel.rank := by
  unfold State.ModemIdle; decide +kernel

/-- The uplink's ends. -/
theorem test_exec_uplink :
    let s := uplinkOut uplinking
    ((after (.uplinkResult 1 2 3 1) s).tally 0).map (fun y => (y.state, y.reported)) = some (.settled, .receipt)
      ∧ ((after (.uplinkResult 1 2 3 2) s).tally 0).map (fun y => (y.state, y.failures)) = some (.waiting, 1)
      ∧ (after (.uplinkResult 1 2 4 2) s).counters.lateResult = 1
      ∧ (after .uplinkTimeoutEnd s).flags.uplinkTimeout = true ∧ (after .uplinkTimeoutEnd s).now = 120000 := by
  decide +kernel

/-- UplinkEnds, HelloForgets: a tally whose entry has ended; a superseded one at its second and its third failure and
covered; one covered at its own level, and one covered below it. -/
theorem test_uplink_outcomes :
    let marked := { uplinking with superseded := true }
    let acking := { uplinking with ownLevel := .ack }
    let left (c : Instr) (y : Tally) := ((after c (uplinkOut y)).tally 0).map fun z => (z.state, z.failures)
    let failed := left (.uplinkResult 1 2 3 2)
    let accepted := left (.uplinkResult 1 2 3 1)
    failed { uplinking with ended := true } = none ∧ failed { marked with failures := 1 } = some (.waiting, 2)
      ∧ failed { marked with failures := 2 } = none ∧ failed { marked with reported := .receipt } = none
      ∧ failed { uplinking with reported := .receipt, failures := 3 } = some (.settled, 3)
      ∧ accepted { uplinking with ended := true } = none ∧ accepted marked = none ∧ accepted acking = some (.waiting, 0)
      ∧ left .hello { marked with failures := 3 } = none ∧ left .hello uplinking = some (.waiting, 1)
      ∧ (after .hello (uplinkOut uplinking)).ml.uplinkMarker = none ∧ (uplinkOut uplinking).ml.queryMarker = none
      ∧ coveredOf issueA uplinking.digest .receipt = [.covered issueA .receipt 1 [5]]
      ∧ coveredOf issueA uplinking.digest .ack = [.covered issueA .ack 1 [8]]
      ∧ (coveredOf issueA (List.replicate 25 ⟨5, .ack⟩) .ack).length = 2 := by decide +kernel

/-- UplinkEnds, its queue: a head without service, one with no due tag, one that is sent, and the next one after a result;
nothing while an uplink is out. -/
theorem test_uplink_queue :
    let next := { tallyIn .uplinking with issue := ⟨⟨7, 7⟩, 0⟩, timer := none }
    let two := base.withRu { base.ru with
      tallies := (base.ru.tallies.set 0 (some { uplinking with timer := none })).set 1 (some next), uplinkQueue := [0, 1] }
    let far := two.withAr { two.ar with service := .limited }
    let bare := two.withRu { two.ru with tallies := two.ru.tallies.set 0 (some { uplinking with members := [], timer := none }) }
    let out := (two.withRu { two.ru with uplinkQueue := [1] }).withMl { two.ml with uplinkMarker := some issueA }
    let states (s : State) := [0, 1].map fun k => (s.tally k).map (·.state)
    two.ml.uplinkMarker = none ∧ two.tally 0 = some { uplinking with timer := none } ∧ uplinking.dueTags ≠ []
      ∧ two.nextUplink.ml.uplinkMarker = some issueA ∧ two.nextUplink.ru.uplinkQueue = [1]
      ∧ states far.nextUplink = [some .waiting, some .waiting] ∧ far.nextUplink.flags = far.flags
      ∧ states bare.nextUplink = [some .waiting, some .uplinking]
      ∧ bare.nextUplink.ml.uplinkMarker = some next.issue ∧ out.nextUplink = out
      ∧ (after (.uplinkResult 1 2 3 2) out).ml.uplinkMarker = some next.issue
      ∧ (after .hello out).ml.uplinkMarker = some next.issue := by decide +kernel

/-- HelloForgets, TransmitHoldFollowsReadyLine: a HELLO and a fall of the line at one moment, in either order: the fresh
query, and a fresh uplink behind it or alone, wait in the hold; a fall in a later ms leaves the record begun. -/
theorem test_hello_meets_fall :
    let next := { tallyIn .uplinking with issue := ⟨⟨7, 7⟩, 0⟩, timer := none }
    let u := (uplinkOut uplinking).withRu { (uplinkOut uplinking).ru with
      tallies := (uplinkOut uplinking).ru.tallies.set 1 (some next), uplinkQueue := [1] }
    let both := (locatingState.withRu u.ru).withMl { locatingState.ml with uplinkMarker := some issueA }
    let fallen (s : State) := (after .modemReadyFall s).ml
    let later (s : State) := s.runTo (s.now + 1)
    (after .hello locatingState).ml.sending = some (.regionQuery 7) ∧ locatingState.ml.sending = none
      ∧ (after .hello locatingState).ml.helloBegan = some (after .hello locatingState).now
      ∧ ((fallen (after .hello locatingState)).sending, (fallen (after .hello locatingState)).hold)
          = (none, [.regionQuery 7])
      ∧ (fallen (later (after .hello locatingState))).sending = some (.regionQuery 7)
      ∧ (after .hello (after .modemReadyFall locatingState)).ml.hold = [.regionQuery 7]
      ∧ ((fallen (after .hello u)).sending, (fallen (after .hello u)).hold.length) = (none, 1)
      ∧ (fallen (after .hello both)).hold = .regionQuery 7 :: (fallen (after .hello u)).hold
      ∧ (after .hello both).flags.queryTimeout = true ∧ both.ml.queryMarker ≠ none := by decide +kernel

/-- BadModemBytesCounted: each way a record is dropped, both states of a framer at a gap, and the line low. -/
theorem test_hyp_bad_modem_bytes :
    base.ml.partReady = true ∧ base.ml.framer = .idle ∧ (Instr.linkRecordDropped [0, 107]).wf = true
      ∧ base.ml.lastByte + 6 ≤ lastMs ∧ fresh.ml.partReady = false ∧ fresh.ml.framer = .idle := by decide +kernel

/-- BadModemBytesCounted: a record cut short that the gap's command carries. -/
theorem test_modem_gap_bytes :
    let t := after (.modemGapTimeout [0, 1, 1]) base
    t.counters.linkError = 1 ∧ t.now = base.now + 6 ∧ (t.ml.framer, t.ml.lastByte) = (.idle, base.now)
      ∧ after (.modemGapTimeout []) base = base := by decide +kernel

theorem test_hyp_modem_gap : ∃ s t : State, s.ml.partReady = true ∧ s.ml.framer = .receiving [0, 1]
    ∧ t.ml.partReady = true ∧ t.ml.framer = .hunting ∧ (after (.modemGapTimeout []) s).counters.linkError = 1
    ∧ (after (.modemGapTimeout []) t).counters.linkError = 0 :=
  ⟨base.withMl { base.ml with framer := .receiving [0, 1] }, base.withMl { base.ml with framer := .hunting },
    by decide +kernel⟩

/-- TransmitHoldFollowsReadyLine. -/
theorem test_exec_hold :
    let s := base.withMl { base.ml with modemReady := false, hold := [.regionQuery 7] }
    let t := after .modemReadyRise s
    s.started = true ∧ t.ml.sending = some (.regionQuery 7) ∧ t.ml.hold = []
      ∧ (after .modemRecordSent t).ml.sending = none ∧ (after .modemReadyFall t).ml.modemReady = false := by
  decide +kernel

/-! ### Bodies that are refused -/

/-- 05 R94, 06 R130: each field that makes a body bad, beside a body that is good. -/
theorem test_bad_bodies :
    parseOffer [0, 1, 0, 0, 2, 3, 16, 7] = some (issueA, 16, .test) ∧ parseOffer [0, 1, 0, 0, 2, 3, 17, 7] = none
      ∧ parseOffer [0, 1, 0, 0, 2, 3, 0, 7] = none ∧ parseOffer [0, 1, 0, 0, 2, 3, 1, 8] = none
      ∧ parseOffer [0, 0, 0, 0, 2, 3, 1, 7] = none ∧ parseOffer [0, 1, 0, 0, 2, 0x13, 1, 7] = none
      ∧ parseWant [0, 1, 0, 0, 2, 3, 0, 0] = none ∧ parseWant [0, 1, 0, 0, 2, 3, 0x80, 0] = some (issueA, 0x8000)
      ∧ parseTally [0, 1, 0, 0, 2, 3, 1, 0, 0, 0, 5, 2] = some (issueA, [⟨5, .ack⟩])
      ∧ parseTally [0, 1, 0, 0, 2, 3, 1, 0, 0, 0, 5, 0] = none ∧ parseTally [0, 1, 0, 0, 2, 3, 1, 0, 0, 0, 5, 3] = none
      ∧ parseTally [0, 1, 0, 0, 2, 3, 1, 0, 0, 0, 0, 2] = none
      ∧ parseStand [0, 1, 0, 0, 2, 3, 1, 0, 64] = some (issueA, 256, 64) ∧ parseStand [0, 1, 0, 0, 2, 3, 1, 0, 65] = none
      ∧ parseStand [0, 1, 0, 0, 2, 3, 1, 0, 0] = none
      ∧ parseCovered [0, 1, 0, 0, 2, 3, 1, 1, 0, 0, 0, 5] = some (issueA, .receipt, [5])
      ∧ parseCovered [0, 1, 0, 0, 2, 3, 0, 1, 0, 0, 0, 5] = none
      ∧ parseCovered [0, 1, 0, 0, 2, 3, 3, 1, 0, 0, 0, 5] = none
      ∧ parseCovered [0, 1, 0, 0, 2, 3, 2, 1, 255, 255, 255, 255] = none := by decide +kernel

/-- 11.2: a record written out byte by byte: origin 1, number 2, revision 3, index 0 of 2, UPDATE, category 2, one
descriptor, a payload of one byte; and the same with a bit that must be zero set, kind 3, duration 0. -/
theorem test_fragment_bytes :
    let record (tk d1 : Byte) : List Byte := [0, 1, 0, 0, 2, 0x30, tk, 0x42, 1, 0, 0, 3, 0xE8, 0, d1, 0xAB, 0xCD,
      0x0A, 0x14, 0x28, 0x11, 3, 0x41]
    parseFragment (record 0x14 30) = some
        { issue := issueA, index := 0, total := 2, kind := .update, category := .severe, issueTime := 1000
          duration := 30, bodyCheck := 0xABCD, areas := [⟨0x0A142811, 3⟩], payload := [0x41] }
      ∧ parseFragment (record 0x15 30) = none ∧ parseFragment (record 0x1C 30) = none
      ∧ parseFragment (record 0x14 0) = none := by decide +kernel

/-! ### Fragments -/

/-- Two fragments of `issueA`, the first and the second of two; and one of one. -/
def fragOne : Fragment := frag 3 0 2 [0x41]

/-- See `fragOne`. -/
def fragTwo : Fragment := frag 3 1 2 [0x42]

/-- See `fragOne`. -/
def fragOnly : Fragment := frag 3 0 1 [0x41]

/-- See `fragOne`; a fragment of the next revision. -/
def fragNext : Fragment := frag 4 0 2 [0x41]

/-- The records of the fragments are well-formed and read back. -/
theorem test_fragments_good : [fragOne, fragTwo, fragOnly, fragNext].all (fun f => parseFragment f.bytes == some f
    && 17 ≤ f.bytes.length && f.bytes.length ≤ 105 && pieceName f.bytes == some (f.issue, f.index)) = true := by
  decide +kernel

/-- The modem link and a quiet relay channel take the record of the fragment, from the peer 9. -/
def takesRecord (s : State) (f : Fragment) : Bool := decide
  ((s.ml.partReady = true ∧ s.ml.framer = .idle) ∧ (17 ≤ f.bytes.length ∧ f.bytes.length ≤ 105)
    ∧ (s.cs.port ≠ .down ∧ bodyGood .piece f.bytes = true ∧ tagGood 9 = true ∧ 9 ≠ s.cs.tag
      ∧ s.cs.isEcho ⟨.piece, 9, f.bytes, frameCheck .piece 9 f.bytes⟩ = false)
    ∧ (s.cs.control = [] ∧ s.cs.bulk = []) ∧ s.cs.inFlight = none)

/-- A fragment record from either source meets Fragment Intake in such a state. -/
theorem meets_either {s : State} {f : Fragment} (h : takesRecord s f = true) (source : Source) :
    s.Meets source 9 f.bytes := by
  obtain ⟨modem, length, heard, ⟨control, bulk⟩, flight⟩ := of_decide_eq_true h
  cases source with
  | broadcast => exact ⟨modem, length⟩
  | relay =>
    obtain ⟨port, good, tag, other, echo⟩ := heard
    exact ⟨⟨port, good, tag, Or.inl other, echo⟩, quiet_has_no_piece _ bulk flight, quiet_rests control bulk⟩

/-- A record that is malformed: its origin is 0. -/
def badRecord : List Byte := List.replicate 17 0

/-- DroppedFragmentCounted: MALFORMED, from either source. -/
theorem test_hyp_malformed :
    base.Meets .broadcast 9 badRecord ∧ base.Meets .relay 9 badRecord ∧ parseFragment badRecord = none :=
  ⟨by unfold State.Meets State.ModemIdle; decide +kernel,
    ⟨by unfold State.Hears; decide +kernel, quiet_has_no_piece _ rfl rfl, quiet_rests rfl rfl⟩, by decide +kernel⟩

/-- A state with the alert clock set. -/
def clocked (seconds : Nat) (s : State) : State := s.withTb { s.tb with alertClock := some seconds }

/-- DroppedFragmentCounted: stale at the end of its life, and live one second before. -/
theorem test_hyp_stale : (∀ source, (clocked 2800 base).Meets source 9 fragOne.bytes)
    ∧ ¬ (clocked 2800 base).isLive fragOne ∧ (clocked 2799 base).isLive fragOne :=
  ⟨meets_either (by decide +kernel),
    fun h => absurd (h 2800 rfl) (by decide), live_at rfl (by decide)⟩

/-- A complete entry of `issueA`, and a tombstone of a lower revision. -/
def shownState : State := withEntry { whole .shown with precedence := some 5, stamp := some 95000, verdict := .inside }

/-- See `shownState`. -/
def tombState : State := withEntry { whole .closed with
  issue := some ⟨issueA.key, 0⟩, closureReason := some .cancelled, closureTime := some 95 }

/-- DroppedFragmentCounted: DUPLICATE for a tombstone and for an equal revision. -/
theorem test_hyp_duplicate : (∀ source, shownState.Meets source 9 fragOne.bytes)
    ∧ (∀ source, tombState.Meets source 9 fragOne.bytes) ∧ shownState.isLive fragOne
    ∧ (∃ e ∈ shownState.table, e.ofKey fragOne.issue.key = true ∧ e.isComplete = true
        ∧ fragOne.issue.revision.toNat ≤ e.revision)
    ∧ ∃ e ∈ tombState.table, e.ofKey fragOne.issue.key = true ∧ e.isComplete = true ∧ e.isTombstone = true :=
  ⟨meets_either (by decide +kernel), meets_either (by decide +kernel), live_of_unset rfl, by decide +kernel, by decide +kernel⟩

/-- An ASSEMBLING entry that holds index 0 of two, in slot 0. -/
def collectingState : State := withEntry collecting

/-- A record of a peer or of the modem meets the collecting state. -/
theorem collecting_meets (source : Source) :
    collectingState.Meets source 9 fragOne.bytes ∧ collectingState.Meets source 9 fragTwo.bytes
      ∧ collectingState.Meets source 9 fragNext.bytes :=
  ⟨meets_either (by decide +kernel) source, meets_either (by decide +kernel) source,
    meets_either (by decide +kernel) source⟩

/-- No complete entry of the key stands in the collecting state, so that every fragment of it is admitted. -/
theorem collecting_admits (f : Fragment) : collectingState.Admits f :=
  ⟨live_of_unset rfl, by
    intro e he hc; exact absurd hc (by revert e; decide +kernel)⟩

/-- DroppedFragmentCounted: an entry that assembles, met by a lower revision, by a fragment for a filled position, and
by another total. -/
theorem test_hyp_dropped_by_entry :
    collectingState.assemblingOf issueA.key = some 4 ∧ (frag 2 0 2 []).issue.revision.toNat < (collectingState.entry 4).revision
      ∧ (collectingState.entry 4).issue = some fragOne.issue ∧ (collectingState.entry 4).provisional = false
      ∧ (collectingState.entry 4).total = fragOne.total ∧ (collectingState.entry 4).category = some fragOne.category
      ∧ ((collectingState.entry 4).map.getD fragOne.index none).isSome = true
      ∧ (collectingState.entry 4).total ≠ fragOnly.total ∧ parseFragment (frag 2 0 2 []).bytes = some (frag 2 0 2 [])
      ∧ (after (.fragment fragOnly.bytes) collectingState).counters.inconsistent = 1
      ∧ (after (.fragment fragOne.bytes) collectingState).counters.duplicate = 1 := by decide +kernel

/-- DroppedFragmentCounted: STORE_FULL, where the fragment's own entry assembles, and where none does. -/
theorem test_hyp_store_full :
    let s := collectingState.withFree []
    let t := base.withFree []
    s.free = [] ∧ (∀ e ∈ s.table, ((e.state = .closed ∨ e.state = .outside) → e.bodyHeld = false)
        ∧ (e.state = .assembling → e.ofKey fragTwo.issue.key = false → e.slots = []))
      ∧ s.assemblingOf fragTwo.issue.key = some 4 ∧ (s.entry 4).issue = some fragTwo.issue
      ∧ (s.entry 4).total = fragTwo.total ∧ (s.entry 4).category = some fragTwo.category
      ∧ (s.entry 4).map.getD fragTwo.index none = none
      ∧ t.assemblingOf fragTwo.issue.key = none ∧ (after (.fragment fragTwo.bytes) s).flags.storeFull = true
      ∧ (after (.fragment fragTwo.bytes) t).flags.storeFull = true := by decide +kernel

/-- DroppedFragmentCounted: TABLE_FULL, every entry PENDING under another key. -/
theorem test_hyp_table_full :
    let e : Entry := { pendingE with issue := some ⟨⟨7, 7⟩, 0⟩, map := emptyMap, sounded := true }
    let s := base.withTable (List.replicate 32 e)
    s.free = 0 :: (List.range 160).tail ∧ s.assemblingOf fragOne.issue.key = none
      ∧ (∀ x ∈ s.table, x.state ≠ .free ∧ x.ofKey fragOne.issue.key = false ∧ x.state ≠ .closed ∧ x.state ≠ .outside
        ∧ x.state ≠ .assembling)
      ∧ (after (.fragment fragOne.bytes) s).flags.tableFull = true
      ∧ (after (.fragment fragOne.bytes) s).free = (List.range 160).tail ++ [0] := by decide +kernel

/-- FragmentStartsEntry. -/
theorem test_hyp_starts : (∀ source, base.Meets source 9 fragOne.bytes) ∧ base.Admits fragOne
    ∧ base.assemblingOf fragOne.issue.key = none ∧ base.free = 0 :: (List.range 160).tail
    ∧ 0 < base.table.length ∧ (base.entry 0).state = .free ∧ 1 < fragOne.total :=
  ⟨meets_either (by decide +kernel),
    ⟨live_of_unset rfl, by intro e he hc; exact absurd hc (by revert e; decide +kernel)⟩,
    by decide +kernel, by decide +kernel, by decide +kernel, by decide +kernel, by decide⟩

/-- What decides a reclaim, in one form that is computed. -/
theorem reclaims_of {s : State} {key : Key} {category : Category} {v c at' : Nat}
    (h : v < s.table.length ∧ (s.entry v).reclaimClass s.settings key category = some (c, at')
      ∧ ∀ j, j < s.table.length → ∀ x ∈ (s.entry j).reclaimClass s.settings key category,
        c < x.1 ∨ (c = x.1 ∧ (at' < x.2 ∨ (at' = x.2 ∧ v ≤ j)))) : s.reclaims key category v :=
  ⟨h.1, c, at', h.2.1, fun j d by' hj e => h.2.2 j hj (d, by') e⟩

/-- A full table: entries 6 and 9 given, every other PENDING, none of the key of `issueA`. -/
def crowd (e f : Entry) : State :=
  let x : Entry := { pendingE with issue := some ⟨⟨7, 7⟩, 0⟩, map := emptyMap, sounded := true }
  ((base.withTable (List.replicate 32 x)).setEntry 6 e).setEntry 9 f |>.withFree (List.range 159)

/-- The four classes: a husk, a CLOSED entry with its body, an OUTSIDE entry, an ASSEMBLING one of lower precedence. -/
def huskE : Entry := { whole .closed with issue := some ⟨⟨8, 8⟩, 0⟩, map := emptyMap, closureTime := some 95 }

/-- See `huskE`. -/
def closedE : Entry := { huskE with map := emptyMap.set 0 (some 159), closureTime := some 90 }

/-- See `huskE`. -/
def outsideE : Entry := { closedE with state := .outside, verdict := .outside }

/-- See `huskE`. -/
def lowlyE : Entry := { outsideE with state := .assembling, total := 2, category := some .test }

/-- FragmentStartsEntry: each class under table pressure, before the next one and before its own kind later on. -/
theorem test_hyp_reclaim :
    (crowd closedE huskE).reclaims issueA.key .severe 9 ∧ (crowd outsideE closedE).reclaims issueA.key .severe 9
      ∧ (crowd lowlyE outsideE).reclaims issueA.key .severe 9 ∧ (crowd lowlyE lowlyE).reclaims issueA.key .severe 6 :=
  ⟨reclaims_of (c := 1) (at' := 95) (by decide +kernel), reclaims_of (c := 2) (at' := 90) (by decide +kernel),
    reclaims_of (c := 3) (at' := 1890) (by decide +kernel), reclaims_of (c := 4) (at' := 90) (by decide +kernel)⟩

/-- The body of an OFFER of `issueA`. -/
def offerBody : List Byte := (Payload.offer issueA 1 .severe).body

/-- What a reclaim leaves: the entry taken anew for the fragment, the slots given back, and a husk taken for an OFFER,
which takes nothing else. -/
theorem test_exec_reclaim :
    let s := crowd lowlyE outsideE
    let t := after (.fragment fragOne.bytes) s
    takesRecord s fragOne = true ∧ (∀ e ∈ s.table, e.state ≠ .free ∧ e.ofKey issueA.key = false)
      ∧ (t.entry 9).issue = some issueA ∧ (t.entry 9).generation = 10 ∧ (t.entry 9).map = emptyMap.set 0 (some 0)
      ∧ t.free = (List.range 159).tail ++ [159] ∧ t.entry 6 = lowlyE
      ∧ huskE.isHusk = true ∧ ((after (.offer 9 offerBody) (crowd closedE huskE)).entry 9).provisional = true
      ∧ (after (.offer 9 offerBody) (crowd lowlyE closedE)).table = (crowd lowlyE closedE).table := by decide +kernel

/-- The part with one husk, entry 9, at an uptime: its hold ends at 5,490 s. -/
def huskAt (uptime : Nat) : State :=
  (crowd closedE huskE).withTb { (crowd closedE huskE).tb with uptime := uptime }

/-- FragmentStartsEntry: a husk that an OFFER reclaims, at the last second of its hold; and none, at the hold's end. -/
theorem test_hyp_offer_husk : (huskAt 5489).reclaimsForOffer 9 ∧ ∀ i, ¬ (huskAt 5490).standingHusk i := by
  have only : ∀ j, j < 32 → ((huskAt 5489).entry j).isHusk = true → j = 9 := by decide +kernel
  have late : ∀ j, j < 32 → ((huskAt 5490).entry j).isHusk = true →
      ((huskAt 5490).entry j).deadline.getD (((huskAt 5490).entry j).closureTime.getD 0) + (huskAt 5490).settings.huskHold
        ≤ (huskAt 5490).uptime := by decide +kernel
  refine ⟨⟨by unfold State.standingHusk; decide +kernel, fun j h => ?_⟩, fun i h => ?_⟩
  · cases only j h.1 h.2.1; exact Or.inr ⟨rfl, Nat.le_refl 9⟩
  · exact absurd h.2.2 (Nat.not_lt.mpr (late i h.1 h.2.1))

/-- 05 R107: an OFFER at the ms at which a husk's hold ends finds no entry, a fragment takes the husk, and so does the
OFFER a second earlier or a second husk's whose hold runs on; after the hold's end the OFFER takes the FREE entry. -/
theorem test_exec_offer_husk :
    let offer (s : State) := after (.offer 9 offerBody) s
    let two := (huskAt 5490).setEntry 6 { huskE with deadline := some 1891, closureTime := some 99 }
    (offer (huskAt 5490)).table = (huskAt 5490).table ∧ ((offer (huskAt 5489)).entry 9).provisional = true
      ∧ ((after (.fragment fragOne.bytes) (huskAt 5490)).entry 9).issue = some issueA
      ∧ ((offer two).entry 6).provisional = true ∧ (offer two).entry 9 = huskE
      ∧ ((offer (after (.huskHoldEnd 9) (huskAt 5490))).entry 9).provisional = true := by decide +kernel

/-- FragmentFillsPosition: an entry of three that is not completed, a provisional entry, and a retarget. -/
theorem test_hyp_fills :
    let three := withEntry { collecting with total := 3 }
    let prov := base.setEntry 4 { collecting with total := 1, provisional := true, kind := none, map := emptyMap }
    let g := frag 3 1 3 [0x42]
    (three.entry 4).issue = some g.issue ∧ (three.entry 4).total = g.total ∧ (three.entry 4).category = some g.category
      ∧ (three.entry 4).map.getD g.index none = none ∧ 2 < g.total ∧ (three.entry 4).map.getD 2 none = none
      ∧ (three.entry 4).map.length = 16 ∧ three.assemblingOf g.issue.key = some 4 ∧ three.free = 1 :: three.free.tail
      ∧ (prov.entry 4).issue = some g.issue ∧ (prov.entry 4).provisional = true
      ∧ (prov.entry 4).map.getD g.index none = none ∧ (prov.entry 4).map.getD 0 none = none
      ∧ (collectingState.entry 4).revision < fragNext.issue.revision.toNat ∧ 1 < fragNext.total
      ∧ collectingState.assemblingOf fragNext.issue.key = some 4
      ∧ (collectingState.entry 4).map.length = 16 ∧ collectingState.free = 1 :: collectingState.free.tail
      ∧ (after (.fragment fragNext.bytes) collectingState).free = (List.range 160).drop 2 ++ [0]
      ∧ ((after (.fragment g.bytes) prov).entry 4).map = emptyMap.set 1 (some 0) := by decide +kernel

/-- The last fragment of two: the entry needs index 1 only. -/
theorem collecting_completes : collectingState.Completes fragTwo 4 1 ((List.range 160).drop 2) where
  admitted := collecting_admits fragTwo
  slotFree := by decide +kernel
  slotGood := by decide +kernel
  found := by decide +kernel
  revision := by decide +kernel
  settled := by decide +kernel
  total := by decide +kernel
  category := by decide +kernel
  positions := by decide +kernel
  missing := by decide +kernel
  others := by decide +kernel
  slotUnused := names_no_slot (by decide +kernel)

/-- LastFragmentIsChecked, CompletionEndsOthers: bodies whose check disagrees, whose packing is bad, and that are good,
as NEW and CANCEL, with life left and with none. -/
theorem test_hyp_last :
    let good := collectingState.setEntry 4 { collecting with bodyCheck := some (checkCode [0x41, 0x42]) }
    let packed := (good.withStore (good.store.set 0 [0x1B])).setEntry 4
      { collecting with bodyCheck := some (checkCode [0x1B, 0x42]) }
    let cancel := good.setEntry 4 { good.entry 4 with kind := some .cancel }
    let third := collectingState.setEntry 4 { collecting with checkFailures := 2 }
    let old := clocked 1800 (good.setEntry 4 { good.entry 4 with issueTime := some 0 })
    1 ≤ base.settings.offerMin ∧ (collectingState.entry 4).checkWith fragTwo ≠ some (checkCode (collectingState.bodyWith fragTwo 4))
      ∧ (good.entry 4).checkWith fragTwo = some (checkCode (good.bodyWith fragTwo 4))
      ∧ scan (good.bodyWith fragTwo 4) 0 = .length 2 ∧ 0 < (good.entry 4).lifeWith fragTwo none
      ∧ (old.entry 4).lifeWith fragTwo (some 1800) = 0 ∧ (good.entry 4).kindWith fragTwo = .new
      ∧ (packed.entry 4).checkWith fragTwo = some (checkCode (packed.bodyWith fragTwo 4))
      ∧ scan (packed.bodyWith fragTwo 4) 0 = .error ∧ (cancel.entry 4).kindWith fragTwo = .cancel
      ∧ ((after (.fragment fragTwo.bytes) good).entry 4).state = .locating
      ∧ ((after (.fragment fragTwo.bytes) cancel).entry 4).closureReason = some .cancelled
      ∧ ((after (.fragment fragTwo.bytes) packed).entry 4).closureReason = some .malformed
      ∧ 2 ≤ (third.entry 4).checkFailures ∧ (collectingState.entry 4).checkFailures < 2
      ∧ ((after (.fragment fragTwo.bytes) third).entry 4).closureReason = some .malformed
      ∧ ((after (.fragment fragTwo.bytes) old).entry 4).closureReason = some .expired
      ∧ ((after (.fragment fragTwo.bytes) collectingState).entry 4).checkFailures = 1 := by decide +kernel

/-- CompletionEndsOthers: an older issuance, SHOWN, is superseded with a notice, and its tally is marked. -/
theorem test_hyp_supersede :
    let s := (collectingState.setEntry 4 { collecting with bodyCheck := some (checkCode [0x41, 0x42]) }).setEntry 6
      { whole .shown with issue := some ⟨issueA.key, 1⟩, map := emptyMap.set 0 (some 9), precedence := some 5 }
    let y := { tallyIn .standing with issue := ⟨issueA.key, 1⟩ }
    let t := after (.fragment fragTwo.bytes) (s.withRu (withTally y).ru)
    (s.entry 6).ofKey fragTwo.issue.key = true ∧ (s.entry 6).isHeld = true ∧ s.pu.notices.length < 16
      ∧ (s.table.filter fun e => e.ofKey fragTwo.issue.key).length = 2
      ∧ t.pu.notices = [⟨.superseded, ⟨6, 9⟩, some 4⟩] ∧ (t.entry 6).state = .free
      ∧ (t.entry 4).replaces = some ⟨6, 9⟩ ∧ (s.entry 6).issue = some y.issue ∧ y.state ≠ .settled
      ∧ (withTally y).findTally y.issue = some 0 ∧ t.tally 0 = some { y with superseded := true } := by decide +kernel

/-- CompletionEndsOthers: a successor with no life left marks the tally of its predecessor, or frees one that is SETTLED. -/
theorem test_expired_successor :
    let last := { collecting with bodyCheck := some (checkCode [0x41, 0x42]), issueTime := some 0 }
    let s := clocked 1800 ((collectingState.setEntry 4 last).setEntry 6
      { whole .shown with issue := some ⟨issueA.key, 1⟩, map := emptyMap.set 0 (some 9), precedence := some 5 })
    let y (state : AgentState) := { tallyIn state with issue := ⟨issueA.key, 1⟩ }
    let t (state : AgentState) := after (.fragment fragTwo.bytes) (s.withRu (withTally (y state)).ru)
    last.lifeWith fragTwo s.tb.alertClock = 0 ∧ (withTally (y .standing)).findTally fragTwo.issue = none
      ∧ (t .standing).tally 0 = some { y .standing with superseded := true } ∧ (t .settled).tally 0 = none
      ∧ ((t .standing).entry 4).closureReason = some .expired
      ∧ (t .standing).pu.notices = [⟨.expired, ⟨6, 9⟩, none⟩] := by decide +kernel

/-- CompletionEndsOthers: a cancel of an alert acknowledged while held; a successor of an entry that the host does not hold
and that replaces another; a full notice queue; a SETTLED tally, with and without a deferred item; a cancel's tally. -/
theorem test_completion_predecessors :
    let cancel := { collecting with bodyCheck := some (checkCode [0x41, 0x42]), kind := some .cancel }
    let update := { cancel with kind := some .update }
    let old : Issue := ⟨issueA.key, 1⟩
    let prior := { whole .shown with issue := some old, map := emptyMap.set 0 (some 9), precedence := some 5 }
    let acked := { prior with state := .closed, closureReason := some .acknowledged, heldWhenAcknowledged := true }
    let carrier := { prior with state := .pending, replaces := some ⟨9, 3⟩, sounded := true }
    let done (e x : Entry) (s : State) := after (.fragment fragTwo.bytes)
      (((collectingState.setEntry 4 e).setEntry 6 x).withRu s.ru)
    let crowded := (collectingState.setEntry 4 update).setEntry 6 prior
    let full := crowded.withPu { crowded.pu with notices := List.replicate 16 ⟨.expired, ⟨1, 1⟩, none⟩ }
    let settled := withTally { tallyIn .settled with issue := old, settleTime := some 90000 }
    let item : Deferred := ⟨⟨⟨7, 2⟩, 0⟩, 5, .ack⟩
    (done cancel acked base).pu.notices = [⟨.cancelled, ⟨6, 9⟩, none⟩] ∧ (done update acked base).pu.notices = []
      ∧ ((done update acked base).entry 4).followsAcknowledged = true
      ∧ ((done update carrier base).entry 4).replaces = some ⟨9, 3⟩ ∧ carrier.isHeld = false
      ∧ (after (.fragment fragTwo.bytes) full).flags.noticeLost = true ∧ 16 ≤ full.pu.notices.length
      ∧ (done update prior settled).tally 0 = none ∧ settled.ru.deferred = []
      ∧ ((done update prior (settled.withRu { settled.ru with deferred := [item] })).tally 0).map (·.issue)
          = some item.issue
      ∧ (done cancel prior (withTally { tallyIn .waiting with issue := old })).tally 0 = none
      ∧ ((done cancel prior (withTally { tallyIn .uplinking with issue := old })).tally 0).map (·.ended) = some true := by
  decide +kernel

/-- Two CLOSED entries with bodies, of equal closure times. -/
def closedState : State :=
  (withEntry { whole .closed with closureReason := some .acknowledged, closureTime := some 95 }).setEntry 6
    { whole .closed with closureReason := some .withheld, closureTime := some 95, map := emptyMap.set 0 (some 3) }

/-- BodyReleaseReturnsSlots: a map that names a slot, one that names none, and the body to release first, by its index. -/
theorem test_hyp_release :
    (base.entry 4).slots = [] ∧ (closedState.entry 4).slots ≠ [] ∧ (closedState.entry 4).issue = some issueA
      ∧ 4 < closedState.table.length ∧ closedState.cs.control = [] ∧ closedState.cs.bulk = []
      ∧ (closedState.entry 4).state = .closed ∧ (closedState.entry 4).isTombstone = false
      ∧ (closedState.entry 4).bodyHeld = true
      ∧ ∀ j, j < 32 → (closedState.entry j).state = .closed →
          (closedState.entry 4).closureTime = (closedState.entry j).closureTime ∧ 4 ≤ j := by decide +kernel

/-- What decides store pressure, in one form that is computed. -/
theorem pressed_of {s : State} {key : Key} {category : Category} {step v a b : Nat}
    (h : v < s.table.length ∧ (s.entry v).pressureStep s.settings key category = some (step, a, b)
      ∧ ∀ j, j < s.table.length → ∀ x ∈ (s.entry j).pressureStep s.settings key category,
        step < x.1 ∨ (step = x.1 ∧ (a < x.2.1 ∨ (a = x.2.1 ∧ (b < x.2.2 ∨ (b = x.2.2 ∧ v ≤ j)))))) :
    s.pressed key category step v :=
  ⟨h.1, a, b, h.2.1, fun j d a' b' hj e => h.2.2 j hj (d, a', b') e⟩

/-- A tombstone of another key with its body. -/
def tombE : Entry := { closedE with kind := some .cancel, closureReason := some .cancelled }

/-- BodyReleaseReturnsSlots: each step of store pressure, before the next one and before its own kind later on. -/
theorem test_hyp_pressed :
    (crowd closedE outsideE).pressed issueA.key .severe 1 6 ∧ (crowd tombE outsideE).pressed issueA.key .severe 2 9
      ∧ (crowd lowlyE tombE).pressed issueA.key .severe 3 9 ∧ (crowd lowlyE lowlyE).pressed issueA.key .severe 4 6 :=
  ⟨pressed_of (a := 90) (b := 0) (by decide +kernel), pressed_of (a := 1890) (b := 0) (by decide +kernel),
    pressed_of (a := 90) (b := 0) (by decide +kernel), pressed_of (a := 1) (b := 90) (by decide +kernel)⟩

/-- What store pressure leaves: the slot that it won holds the fragment. -/
theorem test_exec_pressed :
    let full (e : Entry) := (base.setEntry 9 e).withFree []
    let t (e : Entry) := after (.fragment fragOne.bytes) (full e)
    [closedE, outsideE, tombE, lowlyE].all (fun e => takesRecord (full e) fragOne && ((t e).entry 0).slots == [159]
      && (t e).free == [] && (t e).entry 9 == (if e.state = .assembling then Entry.freed 9 else { e with map := emptyMap }))
      = true := by decide +kernel

/-- BodyReleaseReturnsSlots: a fragment is to be taken for a new entry, a position of its own entry that is empty, a
provisional entry, and a retarget. -/
theorem test_hyp_takes : base.Takes fragOne ∧ collectingState.Takes fragTwo ∧ collectingState.Takes fragNext
    ∧ (base.setEntry 4 { collecting with provisional := true, map := emptyMap }).Takes fragOnly := by
  have none_of (s : State) (f : Fragment) (c : s.tb.alertClock = none)
      (h : ∀ e ∈ s.table, e.isComplete = true → e.ofKey f.issue.key = true → False) : s.Admits f :=
    ⟨live_of_unset c, fun e he hc hk => (h e he hc hk).elim⟩
  have four {s : State} {f : Fragment} {i : Nat} (h : s.assemblingOf f.issue.key = some i)
      (h4 : s.assemblingOf f.issue.key = some 4) : i = 4 := by rw [h4] at h; cases h; rfl
  refine ⟨⟨none_of _ _ rfl (by decide +kernel), fun i h => ?_⟩, ⟨collecting_admits _, fun i h => ?_⟩,
    ⟨collecting_admits _, fun i h => ?_⟩, none_of _ _ rfl (by decide +kernel), fun i h => ?_⟩
  · exact absurd (show base.assemblingOf fragOne.issue.key = none by decide +kernel) (by rw [h]; simp)
  all_goals obtain rfl := four h (by decide +kernel); decide +kernel

/-! ### The application link -/

/-- RefusedRequestsAnswered: a request received whole with no sequence byte is answered under 0 (log 40). -/
theorem test_no_sequence :
    (Instr.badRequestRecord (linkRecord 0x21 []) []).wf = true
      ∧ (after (.badRequestRecord (linkRecord 0x21 []) []) base).al.buffer
        = .ready (responseRecord 0x21 0 .badRequest []) := by decide +kernel

/-- A link that stands between two requests. -/
theorem base_host_idle : base.HostIdle := ⟨by decide +kernel, by decide +kernel, by decide +kernel, Or.inl rfl⟩

/-- RefusedRequestsAnswered, its first half: start-up and the time after it, each kind of bad request, both gaps. -/
theorem test_hyp_refused :
    fresh.al.held = none ∧ fresh.al.buffer = .empty ∧ fresh.al.framer = .idle ∧ fresh.started = false
      ∧ base.al.held = none ∧ base.al.buffer = .empty ∧ base.al.framer = .idle ∧ base.started = true
      ∧ hostRequest (.setOptout 1 2 [.bytes [0, 8]]) = some (0x2A, 1 :: [2], [.bytes [0, 8]])
      ∧ (Instr.badRequestRecord [0, 8] [.bytes [0, 0]]).wf = true ∧ (Instr.badRequestRecord (linkRecord 0x20 [1]) []).wf = true
      ∧ (Instr.appGapTimeout [0, 2, 0x21] []).wf = true ∧ base.now + 6 ≤ lastMs ∧ base.al.lastByte + 6 ≤ lastMs := by
  decide +kernel

theorem test_hyp_app_gap : ∃ s t : State, s.al.framer = .receiving [0, 2, 0x21] ∧ s.al.held = none
    ∧ s.al.buffer = .empty ∧ endsNothing requestMost [0, 2, 0x21] = true ∧ t.al.framer = .hunting ∧ t.al.held = none
    ∧ t.al.buffer = .empty ∧ (after (.appGapTimeout [] []) s).al.buffer = .ready (responseRecord 0x21 0 .badRequest [])
    ∧ (after (.appGapTimeout [] []) t).al.buffer = .empty :=
  ⟨base.withAl { base.al with framer := .receiving [0, 2, 0x21] }, base.withAl { base.al with framer := .hunting },
    by decide +kernel⟩

/-- RefusedRequestsAnswered, its second half: indexes, lengths and thresholds just past their ranges, stale handles. -/
theorem test_hyp_refused_handles :
    31 < (32 : Byte).toNat ∧ (0 : Byte).toNat = 0 ∧ 240 < (241 : Byte).toNat ∧ 6 < (7 : Byte).toNat
      ∧ (31 : Byte).toNat ≤ 31 ∧ (base.entry 31).state ≠ .claimed ∧ (base.entry 31).state ≠ .shown
      ∧ (base.entry 31).generation ≠ 1 ∧ 1 ≤ (240 : Byte).toNat ∧ (240 : Byte).toNat ≤ 240 := by decide +kernel

/-- What refused requests leave to be read. -/
theorem test_exec_refused :
    (after (.claim 9 []) fresh).al.buffer = .ready (responseRecord 0x21 9 .notReady [])
      ∧ (after (.read 9 32 0 0 1 []) base).al.buffer = .ready (responseRecord 0x22 9 .badRequest [])
      ∧ (after (.read 9 31 0 0 1 []) base).al.buffer = .ready (responseRecord 0x22 9 .stale [])
      ∧ (after (.claim 9 [.bytes (linkRecord 0x26 [4])]) base).al.buffer = .working ⟨linkRecord 0x26 [4], false⟩
      ∧ (after .heldRequest (after (.claim 9 [.bytes (linkRecord 0x26 [4])]) base)).al.buffer
          = .ready (responseRecord 0x26 4 .empty []) := by decide +kernel

/-- A link that works on a request. -/
def worksOn (q : EndedRequest) (s : State) : State := s.withAl { s.al with buffer := .working q }

/-- HeldRequestWaitsItsTurn: a request worked on, with one held and with none, good, bad and early; what is sent then
goes through the framer, whole, in halves, of a bad length and cut short. -/
theorem test_hyp_held :
    let good := worksOn ⟨linkRecord 0x21 [1], false⟩ base
    let s := good.withAl { good.al with held := some ⟨[0, 8], false⟩ }
    let sent (inputs : List HostInput) := (after (.claim 2 inputs) good).al
    let claim := linkRecord 0x21 [2]
    s.al.buffer = .working ⟨linkRecord 0x21 [1], false⟩ ∧ s.al.framer = .idle ∧ good.al.held = none
      ∧ judgeRequest (linkRecord 0x21 [1]) = some .claim ∧ judgeRequest [0, 8] = none
      ∧ hostInputs (.claim 2 [.gap]) = some [.bytes claim, .gap]
      ∧ hostInputs (.appGapTimeout [0] [.bytes claim]) = some [.bytes [0], .gap, .bytes claim]
      ∧ (worksOn ⟨[0, 8], false⟩ base).al.buffer = .working ⟨[0, 8], false⟩
      ∧ (sent []).held = some ⟨claim, false⟩ ∧ (sent [.bytes [0, 0]]).held = some ⟨[0, 0], false⟩
      ∧ (sent [.bytes [0, 8]]).framer = .hunting ∧ (sent [.bytes [0], .gap]).held = some ⟨[0], false⟩
      ∧ (sent [.bytes [0, 8], .gap, .bytes claim]).held = some ⟨claim, false⟩
      ∧ (after .heldRequest s).al.buffer = .working ⟨[0, 8], false⟩ := by decide +kernel

/-- A request that ended in start-up is answered NOT_READY, though it is answered after the ready state (10 R185). -/
theorem test_exec_early :
    let s := after (.claim 1 [.bytes (linkRecord 0x21 [2])]) fresh
    let t := after (.configProbe none) s
    s.al.buffer = .working ⟨linkRecord 0x21 [2], true⟩ ∧ t.started = true
      ∧ (after .heldRequest t).al.buffer = .ready (responseRecord 0x21 2 .notReady []) := by decide +kernel

/-- RefusedRequestsAnswered: a transfer whose length is bad leaves the framer HUNTING, and the one that comes with no gap
after it is passed over; the next after a gap is held. -/
theorem test_exec_hunting :
    let claim := linkRecord 0x21 [2]
    let sent (inputs : List HostInput) := (after (.badRequestRecord [0, 8] inputs) base).al
    (sent [.bytes claim]).framer = .hunting ∧ (sent [.bytes claim]).buffer = .ready (responseRecord 0 0 .badRequest [])
      ∧ (sent [.gap, .bytes claim]).framer = .idle ∧ (sent [.gap, .bytes claim]).buffer = .working ⟨claim, false⟩ := by
  decide +kernel

/-- HeldRequestWaitsItsTurn, the read transfer; NoticesAndStatusRead, the alert request line: for a claimable entry, for a
notice, for neither, and through start-up. -/
theorem test_host_outputs :
    let told := base.withPu { base.pu with notices := [⟨.expired, ⟨4, 9⟩, none⟩] }
    fresh.al.readTransfer = [0, 0] ∧ (worksOn ⟨[0, 8], false⟩ base).al.readTransfer = [0, 0]
      ∧ (after (.fetchNotice 1 []) told).al.readTransfer = responseRecord 0x26 1 .ok [3, 4, 9, 0]
      ∧ told.alertRequestLine = true ∧ (after (.fetchNotice 1 []) told).alertRequestLine = false
      ∧ pendingState.alertRequestLine = true ∧ claimedState.alertRequestLine = false
      ∧ (told.withSl fresh.sl).alertRequestLine = false := by decide +kernel

/-- ClaimHandsOutFirst: entry 4 alone is claimable, slot 0 is the lowest empty one. -/
theorem test_hyp_claim :
    pendingState.started = true ∧ pendingState.OwnerLaw ∧ (∀ e ∈ pendingState.table, e.precedence.getD 0 ≤ 7)
      ∧ 4 < pendingState.table.length ∧ (pendingState.entry 4).claimable pendingState.pu.threshold = true
      ∧ pendingState.pu.slots[0]? = some none ∧ (pendingState.entry 4).issue = some issueA
      ∧ (pendingState.entry 4).category = some .severe ∧ (pendingState.entry 4).precedence = some 5
      ∧ none ∈ base.pu.slots ∧ (∀ e ∈ base.table, e.claimable base.pu.threshold = false) := by
  unfold State.OwnerLaw; decide +kernel

/-- ClaimHandsOutFirst: of entry 4 and an entry 6 of equal rank, entry 4 stands first. -/
theorem test_hyp_claim_before :
    let s := pendingState.setEntry 6 { pendingE with sounded := true }
    ∀ j, j ≠ 4 → (s.entry j).claimable s.pu.threshold = true → s.before 4 j := by
  intro s
  refine every_entry (P := fun j e => j ≠ 4 → e.claimable s.pu.threshold = true →
    e.precedence.getD 0 < (s.entry 4).precedence.getD 0 ∨ ((s.entry 4).precedence.getD 0 = e.precedence.getD 0
      ∧ ((s.entry 4).stamp.getD 0 < e.stamp.getD 0 ∨ ((s.entry 4).stamp.getD 0 = e.stamp.getD 0 ∧ 4 < j)))) ?_ ?_
  · decide +kernel
  · intro _ _ h; exact absurd h (by decide)

/-- ClaimHandsOutFirst: all four slots occupied. -/
theorem test_hyp_claim_full : ∃ s : State, s.started = true ∧ s.al.buffer = .empty ∧ s.pu.slots.length = 4
    ∧ ∀ k ∈ s.pu.slots, k.isSome = true :=
  ⟨base.withPu { base.pu with slots := List.replicate 4 (some ⟨4, 9⟩) }, by decide +kernel⟩

/-- The claimed state: READ, COMPLETE, RELEASE, ACK. -/
theorem test_hyp_claimed :
    claimedState.started = true ∧ claimedState.al.framer = .idle ∧ claimedState.al.buffer = .empty
      ∧ claimedState.OwnerLaw ∧ (4 : Byte).toNat < claimedState.table.length ∧ (claimedState.entry 4).state = .claimed
      ∧ (claimedState.entry 4).claimSlot = some 2 ∧ (claimedState.entry 4).expandedLength.getD 0 = 1
      ∧ claimedState.pu.threshold < (claimedState.entry 4).precedence.getD 0
      ∧ (claimedState.entry 4).issue = some issueA ∧ claimedState.findTally issueA = none
      ∧ claimedState.isDeferred issueA = false ∧ claimedState.tally 0 = none
      ∧ 0 < claimedState.ru.tallies.length ∧ (shownState.entry 4).state = .shown := by
  constructor
  · decide +kernel
  · refine ⟨by decide +kernel, by decide +kernel, ?_⟩
    unfold State.OwnerLaw; decide +kernel

/-- CompleteAndReleaseEndClaim, a claim at the threshold; AckClosesEntry, a report that runs. -/
theorem test_hyp_claimed_more :
    (claimedState.withPu { claimedState.pu with threshold := 5 }).pu.threshold = 5
      ∧ (claimedState.entry 4).precedence.getD 0 ≤ 5
      ∧ (claimedState.withRu (withTally (tallyIn .waiting)).ru).findTally issueA = some 0 := by decide +kernel

/-- The owner law of the claimed state under a threshold of 5: the claimed entry is the owner. -/
theorem test_hyp_release_owner : (claimedState.withPu { claimedState.pu with threshold := 5 }).OwnerLaw := by
  unfold State.OwnerLaw; decide +kernel

/-- AckClosesEntry: with every tally busy the report is deferred, and a deferred item rises to ACK; of SETTLED tallies the
one with the oldest settle time is taken. -/
theorem test_exec_ack_tallies :
    let busy (settled : List Nat) : List (Option Tally) := (List.range 8).map fun k => some
      { tallyIn (if k ∈ settled then .settled else .waiting) with
        issue := ⟨⟨7, BitVec.ofNat _ k⟩, 0⟩, settleTime := if k ∈ settled then some (90000 - k) else none }
    let s (settled : List Nat) (d : List Deferred) :=
      claimedState.withRu { base.ru with tallies := busy settled, deferred := d }
    let acked (settled : List Nat) (d : List Deferred) := (after (.ack 4 4 9 []) (s settled d)).ru
    (acked [] []).deferred = [⟨issueA, 5, .ack⟩] ∧ (acked [] [⟨issueA, 5, .receipt⟩]).deferred = [⟨issueA, 5, .ack⟩]
      ∧ (s [] [⟨issueA, 5, .receipt⟩]).isDeferred issueA = true ∧ (s [] []).findTally issueA = none
      ∧ ((acked [2, 6] []).tallies[6]?.join).map (·.issue) = some issueA
      ∧ (acked [2, 6] []).tallies.eraseIdx 6 = (busy [2, 6]).eraseIdx 6 := by decide +kernel

/-- A tally whose own tag is not the station tag 5 any more. -/
def renamed (state : AgentState) (members : List Member) : Tally :=
  { tallyIn state with ownTag := 6, reported := .receipt, members := ⟨6, false, .receipt⟩ :: members }

/-- AckClosesEntry, the acknowledgement event of a tally in use: in each state, at ACK already, with a redrawn tag that the
set holds and that it does not. -/
theorem test_exec_ack_event :
    let t (y : Tally) := after (.ack 4 4 9 []) (claimedState.withRu (withTally y).ru)
    let settled := { tallyIn .settled with failures := 2, settleTime := some 90000, timer := none }
    let z := renamed .waiting []
    (∀ y ∈ [tallyIn .waiting, tallyIn .standing, tallyIn .contributing, z, renamed .settled [⟨5, false, .ack⟩]],
        (t y).tally 0 = some (y.ackedAs 5))
      ∧ z.ackedAs 5 = { z with
          ownTag := 5, ownLevel := .ack, reported := .none, members := [⟨6, false, .receipt⟩, ⟨5, true, .none⟩] }
      ∧ (t (tallyIn .contributing)).cs.control = [.tally issueA [⟨5, .ack⟩, ⟨8, .ack⟩]]
      ∧ ((t settled).tally 0).map (fun y => (y.state, y.ownLevel, y.failures)) = some (.waiting, .ack, 0)
      ∧ (t { settled with ownLevel := .ack }).tally 0 = some { settled with ownLevel := .ack }
      ∧ (t (renamed .settled [⟨5, false, .ack⟩])).tally 0
          = some { renamed .settled [⟨5, true, .ack⟩] with ownTag := 5, ownLevel := .ack, reported := .ack } := by
  decide +kernel

/-- What claiming, reading, completing and acknowledging do. -/
theorem test_exec_session :
    let s := after (.claim 1 []) pendingState
    let t := after (.complete 3 4 9 []) s
    (s.entry 4).state = .claimed ∧ s.pu.slots = [some ⟨4, 9⟩, none, none, none]
      ∧ s.al.buffer = .ready (responseRecord 0x21 1 .ok [4, 9, 0, 1, 0, 0, 2, 3, 2, 5, 0, 1, 0, 0, 0])
      ∧ (after (.read 2 4 9 0 240 []) s).al.buffer = .ready (responseRecord 0x22 2 .ok [1, 0x41])
      ∧ (after (.read 2 4 9 1 240 []) s).al.buffer = .ready (responseRecord 0x22 2 .range [])
      ∧ (t.entry 4).state = .shown ∧ ((after (.release 3 4 9 []) s).entry 4) = pendingE
      ∧ ((after (.ack 4 4 9 []) t).entry 4).closureReason = some .acknowledged
      ∧ ((after (.ack 4 4 9 []) t).tally 0).map (fun y => y.ownLevel) = some .ack := by decide +kernel

/-- NoticesAndStatusRead: a notice to fetch, and none. -/
theorem test_hyp_notice : base.pu.notices = [] ∧ ∃ s : State, s.started = true ∧ s.al.buffer = .empty
    ∧ s.pu.notices = ⟨.superseded, ⟨4, 9⟩, some 6⟩ :: []
    ∧ (after (.fetchNotice 1 []) s).al.buffer = .ready (responseRecord 0x26 1 .ok [2, 4, 9, 6]) :=
  ⟨by decide +kernel, base.withPu { base.pu with notices := [⟨.superseded, ⟨4, 9⟩, some 6⟩] }, by decide +kernel⟩

/-- STATUS: a record of 49 bytes, the flags word first, with NOTICE_LOST set; the flags are clear after. -/
theorem test_exec_status :
    let s := base.flag .noticeLost
    (after (.status 1 []) s).flags = FaultFlags.clear
      ∧ (match (after (.status 1 []) s).al.buffer with
        | .ready r => (r.length, (r.drop 3).take 4)
        | _ => (0, [])) = (49, [1, 0, 0, 64]) := by decide +kernel

/-- HostSettingsAndRestart: a threshold and its limit, a mask with NATIONAL in it. -/
theorem test_exec_settings :
    (6 : Byte).toNat ≤ 6 ∧ (after (.setThreshold 1 6 []) base).pu.threshold = 6
      ∧ (after (.setOptout 1 0x05 []) pendingState).pu.optout = 4
      ∧ ((after (.setOptout 1 0x05 []) pendingState).entry 4).closureReason = some .withheld
      ∧ ((after (.restart 1 []) claimedState).entry 4).state = .pending
      ∧ (after (.restart 1 []) claimedState).pu.slots = List.replicate 4 none
      ∧ (pendingState.entry 4).category = some .severe
      ∧ ((0x05 : Byte) &&& 0xFE#8).getLsbD Category.severe.code = true := by decide +kernel

/-! ### The radio port -/

/-- The base state keeps the laws of the channel; so does the same state with the port DOWN. -/
theorem test_hyp_ready_rise :
    let s := base.withCs { base.cs with port := .down, ready := false }
    s.started = true ∧ s.cs.port = .down ∧ s.PortLaw ∧ 1 ≤ s.settings.offerMin
      ∧ (∀ e ∈ s.table, e.state ≠ .assembling ∧ e.offer = none) ∧ fresh.started = false ∧ base.cs.port ≠ .down := by
  refine ⟨by decide +kernel, by decide +kernel, ⟨by decide +kernel, by decide +kernel, by decide +kernel,
    by decide +kernel, ?_, by decide +kernel, by decide +kernel, by decide +kernel, ?_, ?_⟩, by decide +kernel,
    by decide +kernel, by decide +kernel, by decide +kernel⟩
  · rintro k (h : none = some k); cases h
  · intro q p hp; cases q <;> cases hp
  · exact quiet_rests rfl rfl

/-- ReadyLineMovesPort: entries that assemble ask for what they miss as the port comes up. -/
theorem test_ready_asks :
    let other : Issue := ⟨⟨7, 7⟩, 1⟩
    let s := (withEntry collecting).setEntry 6 { collecting with issue := some other, total := 3, map := emptyMap }
    let t := after .readyRise (s.withCs { s.cs with port := .down, ready := false })
    (t.cs.inFlight.map (·.payload)).toList ++ t.cs.control = [.want issueA 2, .want other 7]
      ∧ (t.entry 6).want = some ⟨110000, none⟩ := by decide +kernel

/-- An OFFER of `issueA`, a WANT of it, a PIECE of its fragment 0. -/
def offerA : Payload := .offer issueA 1 .severe

/-- See `offerA`. -/
def wantA : Payload := .want issueA 2

/-- See `offerA`. -/
def pieceA : Payload := .piece issueA 0 fragOnly.bytes

/-- ReadyLineMovesPort, the falls: DOWN, UP with no frame in flight, UP with one, FAULTED. -/
theorem test_hyp_ready_fall :
    fresh.cs.port = .down ∧ base.cs.port ≠ .down ∧ base.cs.inFlight = none ∧ (inAir offerA).cs.port ≠ .down
      ∧ (inAir offerA).cs.inFlight = some ⟨offerA, false, 100050, frameBytes .offer 5 offerA.body⟩
      ∧ (after .readyFall (inAir offerA)).counters.framesLost = 1
      ∧ (after .sent (after .readyFall (inAir offerA))).counters.framesSent = 0
      ∧ (base.withCs { base.cs with port := .faulted }).cs.port ≠ .down := by decide +kernel

/-- BackoffRuns, the line: each place of the contender and its count. -/
theorem test_hyp_busy :
    let stopped (n : Nat) : Station :=
      { base.cs with control := [.yield issueA], busy := true, contender := some ⟨.control, n, none⟩ }
    base.cs.echo.length ≤ 4 ∧ base.cs.busy = false ∧ (stopped 3).busy = true ∧ (stopped 0).echo.length ≤ 4
      ∧ (stopped 0).guardEnd = none ∧ (stopped 0).port = .up ∧ (stopped 0).inFlight = none
      ∧ (stopped 0).waiting .control = .yield issueA :: [] ∧ ({ stopped 0 with guardEnd := some 100050 }).guardEnd ≠ none
      ∧ (after .busyFall (base.withCs (stopped 0))).cs.inFlight.map (fun f => f.wire.length) = some 16
      ∧ ((after .busyFall (base.withCs (stopped 3))).cs.contender) = some ⟨.control, 3, some 100002⟩ := by decide +kernel

/-- BackoffRuns, the slot: the last slot and one before it, with the guard and without, and BUSY rising then. -/
theorem test_hyp_slot :
    (contending 1).cs.contender = some ⟨.control, 1, some 100002⟩ ∧ 100002 ≤ lastMs
      ∧ (contending 1).cs.echo.length ≤ 4 ∧ (contending 1).cs.busy = false ∧ (contending 1).cs.guardEnd = none
      ∧ (contending 1).cs.port = .up ∧ (contending 1).cs.inFlight = none
      ∧ (contending 1).cs.waiting .control = .yield issueA :: []
      ∧ (after (.backoffSlotEnd false) (contending 1)).cs.inFlight.map (fun f => f.timerEnd) = some 100052
      ∧ (after (.backoffSlotEnd false) (contending 2)).cs.contender = some ⟨.control, 1, some 100004⟩
      ∧ (after (.backoffSlotEnd true) (contending 1)).cs.contender = some ⟨.control, 0, none⟩ := by decide +kernel

/-- BackoffRuns, the guard: nothing waits, and a contender that waits at 0. -/
theorem test_hyp_guard :
    let s := base.withCs { base.cs with guardEnd := some 100050 }
    let t := s.withCs { s.cs with control := [.yield issueA], contender := some ⟨.control, 0, none⟩ }
    s.cs.guardEnd = some 100050 ∧ 100050 ≤ lastMs ∧ s.cs.contender = none ∧ t.cs.guardEnd = some 100050
      ∧ t.cs.contender = some ⟨.control, 0, none⟩ ∧ t.cs.busy = false ∧ t.cs.port = .up ∧ t.cs.inFlight = none
      ∧ t.cs.waiting .control = .yield issueA :: [] ∧ (after .lateAnswerGuardEnd t).cs.inFlight.isSome = true
      ∧ (after .lateAnswerGuardEnd s).cs.guardEnd = none := by decide +kernel

/-- SentEndsFrame: nothing waits; a control frame waits; a PIECE waits after a control run of 4; a WANT went out. -/
theorem test_hyp_sent :
    let s := inAir offerA
    let t := s.withCs { s.cs with control := [.yield issueA], bulk := [pieceA], controlRun := 4 }
    let w := (inAir wantA).setEntry 4 collecting
    base.cs.inFlight = none ∧ s.cs.guardEnd = none ∧ s.cs.contender = none ∧ 1 ≤ s.settings.cwMin
      ∧ s.cs.control = [] ∧ s.cs.bulk = [] ∧ t.cs.port = .up ∧ t.cs.controlRun = 4 ∧ t.cs.bulk.head? = some pieceA
      ∧ t.cs.guardEnd = none ∧ t.cs.contender = none ∧ t.cs.control.head? = some (.yield issueA) ∧ offerA.kind ≠ .want
      ∧ w.findEntry (fun e => e.state == .assembling && e.ofIssue issueA) = some 4
      ∧ (after .sent s).counters.framesSent = 1 ∧ ((after .sent t).cs.contender.map fun k => k.queue) = some .bulk
      ∧ ((after .sent w).entry 4).want = some ⟨110000, some 100000⟩ := by decide +kernel

/-- LostFrameComesBack: with nothing of its identity waiting, with a WANT of its identity, withdrawn. -/
theorem test_hyp_lost :
    let s := inAir wantA
    let t := s.withCs { s.cs with control := [.want issueA 4] }
    let w := s.withCs { s.cs with inFlight := some ⟨pieceA, true, 100050, []⟩, bulk := [.piece issueA 1 []] }
    s.cs.guardEnd = none ∧ s.cs.contender = none ∧ s.cs.port = .up ∧ 1 ≤ min (2 * s.cs.cw) s.settings.cwMax
      ∧ s.cs.waiting wantA.queue = [] ∧ wantA.sameIdentity (.want issueA 4) = true
      ∧ t.cs.waiting wantA.queue = [.want issueA 4] ∧ w.cs.control = []
      ∧ w.cs.bulk.head? = some (.piece issueA 1 []) ∧ (after .lost s).counters.framesLost = 1
      ∧ (after .lost s).cs.cw = 16 ∧ (after .lost t).cs.control = [.want issueA 6] := by decide +kernel

/-- LostFrameComesBack, PortTimeoutCountsLost: a withdrawn frame with a control frame waiting, before and after a control
run of 4, and with none; a frame merged at its port timeout. -/
theorem test_lost_withdrawn :
    let quiet := base.withCs { base.cs with inFlight := some ⟨pieceA, true, 100050, []⟩ }
    let s := quiet.withCs { quiet.cs with control := [.yield issueA], bulk := [.piece issueA 1 []] }
    let t := s.withCs { s.cs with controlRun := 4 }
    let w := (inAir wantA).withCs { (inAir wantA).cs with control := [.yield issueA, .want issueA 4] }
    let queue (s : State) := s.cs.contender.map (·.queue)
    s.cs.control.head? = some (.yield issueA) ∧ queue (after .lost s) = some .control ∧ queue (after .lost t) = some .bulk
      ∧ queue (after .portTimeout s) = some .control ∧ queue (after .portTimeout t) = some .bulk
      ∧ queue (after .portTimeout quiet) = none ∧ (after .portTimeout s).cs.bulk = [.piece issueA 1 []]
      ∧ (after .portTimeout w).cs.control = [.want issueA 6, .yield issueA]
      ∧ wantA.sameIdentity (.want issueA 4) = true ∧ wantA.sameIdentity (.yield issueA) = false := by decide +kernel

/-- PortTimeoutCountsLost: the first timeout, and the third in a row. -/
theorem test_hyp_port_timeout :
    let s := inAir offerA
    let t := s.withCs { s.cs with timeoutRun := 2 }
    s.cs.contender = none ∧ s.cs.port = .up ∧ 100050 ≤ lastMs ∧ s.cs.timeoutRun ≤ 2 ∧ t.cs.timeoutRun = 2
      ∧ 1 ≤ min (2 * s.cs.cw) s.settings.cwMax ∧ s.cs.waiting offerA.queue = []
      ∧ (after .portTimeout t).cs.port = .faulted ∧ (after .portTimeout s).flags.radioFault = true
      ∧ (after .portTimeout s).cs.guardEnd = some 100100 := by decide +kernel

/-- FrameFilterDrops: a bad frame, a bad body length, a bad tag, an echo, and a body bad for each kind. -/
theorem test_hyp_filter :
    parseFrame [] = none ∧ bodyGood .yield [1] = false ∧ tagGood 0 = false
      ∧ relayFrame (.yield 9 [1]) = some (.yield, 9, [1]) ∧ bodyGood .yield [0, 1, 0, 0, 2, 3] = true
      ∧ tagGood 9 = true
      ∧ ∀ x ∈ [(FrameKind.offer, 8), (.want, 8), (.stand, 9), (.yield, 6)], base.Hears x.1 9 (List.replicate x.2 0) := by
  unfold State.Hears; decide +kernel

/-- FrameFilterDrops: a TALLY and a COVERED of a count that their length has, with the origin 0. -/
theorem test_hyp_filter_counted :
    base.Hears .tally 9 [0, 0, 0, 0, 0, 0, 1, 0, 0, 0, 0, 0]
      ∧ base.Hears .covered 9 [0, 0, 0, 0, 0, 0, 0, 1, 0, 0, 0, 0] := by
  unfold State.Hears; decide +kernel

/-- The bodies of zeros are bad, and an echo is in the list. -/
theorem test_hyp_filter_bodies :
    parseOffer (List.replicate 8 0) = none ∧ parseWant (List.replicate 8 0) = none
      ∧ parseTally [0, 0, 0, 0, 0, 0, 1, 0, 0, 0, 0, 0] = none ∧ parseStand (List.replicate 9 0) = none
      ∧ parseCovered [0, 0, 0, 0, 0, 0, 0, 1, 0, 0, 0, 0] = none ∧ parseIssue (List.replicate 6 0) = none
      ∧ (let item : EchoItem := ⟨9, .yield, frameCheck .yield 9 [0, 1, 0, 0, 2, 3]⟩
        item ∈ ({ base.cs with echo := [item] }).echo)
      ∧ (after (.badFrame []) base).counters.linkError = 1 ∧ (after (.yield 9 [1]) base).counters.linkError = 1
      ∧ (after (.yield 9 [1]) fresh).counters.linkError = 0 := by decide +kernel

/-- ClashDrawsNewTag: a frame under our tag, with a round running and with none; a marked tag. -/
theorem test_hyp_clash :
    let running := withTally (tallyIn .standing)
    let marked := base.withCs { base.cs with tagMarked := true }
    relayFrame (.yield 5 [0, 1, 0, 0, 2, 3]) = some (.yield, base.cs.tag, [0, 1, 0, 0, 2, 3]) ∧ base.cs.port ≠ .down
      ∧ tagGood base.cs.tag = true ∧ base.roundRuns = false ∧ running.roundRuns = true
      ∧ base.cs.isEcho ⟨.yield, 5, [0, 1, 0, 0, 2, 3], frameCheck .yield 5 [0, 1, 0, 0, 2, 3]⟩ = false
      ∧ marked.cs.tagMarked = true ∧ marked.roundRuns = false
      ∧ (after (.yield 5 [0, 1, 0, 0, 2, 3]) base).cs.tag ≠ 5
      ∧ (after (.yield 5 [0, 1, 0, 0, 2, 3]) running).cs.tagMarked = true
      ∧ (after .tagRedraw marked).cs.tag ≠ 5 ∧ (after .tagRedraw base).cs.tag = 5 := by decide +kernel

/-- ClashDrawsNewTag: a TALLY that bears our tag is merged all the same, under either tag; a second clash changes nothing of
its own. -/
theorem test_clash_delivers :
    let c : Instr := .tally 5 (Payload.tally issueA [⟨9, .ack⟩]).body
    let tags (s : State) : List Nat := ((s.tally 0).toList.flatMap (·.members)).map (·.tag.toNat)
    let running := withTally (tallyIn .standing)
    let marked := (running.flag .tagClash).withCs { running.cs with tagMarked := true }
    tags (after c running) = [5, 8, 9] ∧ tags (after c (withTally (tallyIn .waiting))) = [5, 8, 9]
      ∧ (after c running).cs = (after c marked).cs ∧ (after c running).flags = (after c marked).flags := by decide +kernel

/-- ClashDrawsNewTag: such a frame is heard, the clash behind it. -/
theorem test_hyp_clash_heard :
    ((withTally (tallyIn .standing)).flag .tagClash |>.withCs { base.cs with tagMarked := true }).Hears .tally 5
      (Payload.tally issueA [⟨9, .ack⟩]).body := by
  unfold State.Hears; decide +kernel

/-- RequestIsQueuedOrMerged: a frame waiting of its identity, a full queue, one behind a contender, an empty channel. -/
theorem test_hyp_request :
    let full := base.withCs { base.cs with control := List.replicate 8 (.yield ⟨issueA.key, 9⟩) }
    fresh.cs.port ≠ .up ∧ base.cs.port = .up ∧ (contending 1).cs.contender ≠ none
      ∧ (∀ w ∈ (contending 1).cs.waiting .control, w.sameIdentity offerA = false)
      ∧ (∃ w ∈ (contending 1).cs.waiting .control, w.sameIdentity (.yield issueA) = true)
      ∧ full.cs.room .control ≤ (full.cs.waiting .control).length
      ∧ (∀ w ∈ full.cs.waiting .control, w.sameIdentity offerA = false) ∧ base.cs.contender = none
      ∧ base.cs.inFlight = none ∧ base.cs.control = [] ∧ base.cs.bulk = [] ∧ 1 ≤ base.cs.cw
      ∧ (.yield issueA : Payload).sameIdentity (.yield issueA) = true ∧ (Payload.yield issueA).kind ≠ .want
      ∧ (full.request offerA).counters.queueFull = 1 := by decide +kernel

/-! ### Frames of peers -/

/-- An entry of `issueA` with an offer record. -/
def offered : State :=
  withEntry { whole .closed with
    closureReason := some .withheld, closureTime := some 95, offer := some ⟨4, 99000, 2500, false, 255⟩ }

/-- OfferIsSettled, its first half: no record, a tombstone, the same revision, a lower one. -/
theorem test_hyp_offer :
    base.Hears .offer 9 offerA.body ∧ issueA.key.origin ≠ 0 ∧ (offered.entry 4).isComplete = true
      ∧ (offered.entry 4).ofKey issueA.key = true ∧ (offered.entry 4).offer = some ⟨4, 99000, 2500, false, 255⟩
      ∧ (offered.entry 4).issue = some issueA ∧ 1 ≤ offered.settings.offerMin
      ∧ (2 : BitVec 4).toNat < (offered.entry 4).revision ∧ (shownState.entry 4).offer = none
      ∧ (shownState.entry 4).isComplete = true ∧ (tombState.entry 4).isTombstone = true
      ∧ (tombState.entry 4).revision < issueA.revision.toNat
      ∧ (tombState.entry 4).isComplete = true ∧ (tombState.entry 4).ofKey issueA.key = true := by
  unfold State.Hears; decide +kernel

/-- OfferIsSettled: entry 4 is the only complete one of the key. -/
theorem test_hyp_offer_only :
    ∀ j, (offered.entry j).isComplete = true → (offered.entry j).ofKey issueA.key = true → j = 4 :=
  every_entry (P := fun j e => e.isComplete = true → e.ofKey issueA.key = true → j = 4) (by decide +kernel)
    (fun _ h => absurd h (by decide))

/-- OfferIsSettled, its second half: an ASSEMBLING entry met below, at and above its revision, with a WANT sent within
the delay, at its end and never; and no entry. -/
theorem test_hyp_offer_assembling :
    let wanting (sent : Option Nat) := withEntry { collecting with want := some ⟨105000, sent⟩ }
    collectingState.assemblingOf issueA.key = some 4 ∧ (2 : BitVec 4).toNat < (collectingState.entry 4).revision
      ∧ (collectingState.entry 4).issue = some issueA
      ∧ ((wanting (some 90001)).entry 4).want = some ⟨105000, some 90001⟩
      ∧ (wanting (some 90001)).now < 90001 + base.settings.gapFillDelay * 1000
      ∧ 90000 + base.settings.gapFillDelay * 1000 ≤ (wanting (some 90000)).now
      ∧ (collectingState.entry 4).revision < (4 : BitVec 4).toNat ∧ base.assemblingOf issueA.key = none
      ∧ 0 < base.table.length ∧ (base.entry 0).state = .free
      ∧ (∀ e ∈ collectingState.table, e.isComplete = true → e.ofKey issueA.key = false)
      ∧ ((after (.offer 9 offerA.body) (wanting (some 90000))).cs.control) = [.want issueA 2]
      ∧ ((after (.offer 9 offerA.body) (wanting (some 90001))).cs.control) = []
      ∧ ((after (.offer 9 offerA.body) base).entry 0).provisional = true := by decide +kernel

/-- OfferIsSettled, a retarget: total and category are the OFFER's, the old revision's PIECE goes, a WANT names all. -/
theorem test_offer_retargets :
    let higher : Payload := .offer ⟨issueA.key, 4⟩ 3 .test
    let s := collectingState.withCs { (contending 1).cs with bulk := [pieceA] }
    let t := after (.offer 9 higher.body) s
    s.Hears .offer 9 higher.body ∧ (t.entry 4).category = some .test ∧ (t.entry 4).total = 3 ∧ t.cs.bulk = []
      ∧ t.cs.control = s.cs.control ++ [.want ⟨issueA.key, 4⟩ 7] ∧ collecting.missing = 2
      ∧ collecting.map.getD 1 none = none := by
  unfold State.Hears; decide +kernel

/-- WantIsSupplied: no entry of the key; one that holds the index, with an offer record and without. -/
theorem test_hyp_want :
    let w : Word16 := 1
    base.Hears .want 9 (Payload.want issueA w).body ∧ w ≠ 0
      ∧ (∀ e ∈ base.table, e.ofKey issueA.key = true → e.revision < issueA.revision.toNat)
      ∧ (offered.entry 4).ofIssue issueA = true ∧ (offered.entry 4).kind = some .new ∧ (offered.entry 4).total ≤ 16
      ∧ (offered.entry 4).isComplete = true ∧ (collectingState.entry 4).ofIssue issueA = true
      ∧ (collectingState.entry 4).isComplete = false ∧ (collectingState.entry 4).kind = some .new
      ∧ (collectingState.entry 4).holdsIndex 0 = true
      ∧ (after (.want 9 (Payload.want issueA w).body) offered).cs.inFlight.map (fun f => f.payload.body) = some fragOnly.bytes := by
  unfold State.Hears; decide +kernel

/-- WantIsSupplied: no other entry of the key stands at the revision. -/
theorem test_hyp_want_only : ∀ j, (offered.entry j).ofKey issueA.key = true →
    (offered.entry j).revision < issueA.revision.toNat ∨ j = 4 :=
  every_entry (P := fun j e => e.ofKey issueA.key = true → e.revision < issueA.revision.toNat ∨ j = 4)
    (by decide +kernel) (fun _ h => absurd h (by decide))

/-- WantIsSupplied: a WANT below the revision of the one entry of its key, which has an offer record. -/
theorem test_want_below :
    let low : Issue := ⟨issueA.key, 1⟩
    let t := after (.want 9 (Payload.want low 1).body) offered
    base.Hears .want 9 (Payload.want low 1).body ∧ low.revision.toNat < (offered.entry 4).revision
      ∧ (t.entry 4).offer.map (fun r => (r.interval, r.start)) = some (2, 100000) ∧ t.cs = offered.cs := by
  unfold State.Hears; decide +kernel

/-- A complete entry with an offer record, and its successor ASSEMBLING in entry 6. -/
def succeeded : State := offered.setEntry 6 { collecting with issue := some ⟨issueA.key, 5⟩ }

/-- WantIsSupplied: a WANT at and below the revision of a complete entry whose successor is ASSEMBLING. -/
theorem test_want_pair :
    let w (r : BitVec 4) := after (.want 9 (Payload.want ⟨issueA.key, r⟩ 1).body) succeeded
    let renewed (s : State) := (s.entry 4).offer.map fun r => (r.interval, r.start)
    renewed (w 3) = some (2, 100000) ∧ renewed (w 1) = some (2, 100000) ∧ (w 1).cs = succeeded.cs
      ∧ ((w 3).cs.inFlight.map fun f => f.payload.body) = some fragOnly.bytes
      ∧ (w 3).entry 6 = succeeded.entry 6 := by decide +kernel

/-- WantIsSupplied: the successor stands apart from either WANT. -/
theorem test_hyp_want_pair : ∀ j, (succeeded.entry j).ofKey issueA.key = true → ∀ r ∈ [1, (succeeded.entry 4).revision],
    j = 4 ∨ ((succeeded.entry j).isComplete = false ∧ r < (succeeded.entry j).revision) :=
  every_entry (P := fun j e => e.ofKey issueA.key = true → ∀ r ∈ [1, (succeeded.entry 4).revision],
      j = 4 ∨ (e.isComplete = false ∧ r < e.revision))
    (by decide +kernel) (fun _ h => absurd h (by decide))

/-- PieceSuppressesOurs: a PIECE that is taken while ours waits, and ours the contender, alone and with others behind. -/
theorem test_suppress_taken :
    let three := withEntry { collecting with total := 3 }
    let g := frag 3 1 3 [0x42]
    let ours : Payload := .piece issueA 1 []
    let s := three.withCs { three.cs with bulk := [ours], contender := some ⟨.bulk, 3, some 100002⟩ }
    let more := s.withCs { s.cs with bulk := [ours, .piece issueA 2 []] }
    let mixed := more.withCs { more.cs with control := [.yield issueA] }
    let t (s : State) := after (.piece 9 g.bytes) s
    s.Hears .piece 9 g.bytes ∧ pieceName g.bytes = some (issueA, 1) ∧ ours.isPieceOf issueA (some 1) = true
      ∧ ((t s).entry 4).map = (emptyMap.set 0 (some 0)).set 1 (some 1) ∧ (t s).cs.bulk = [] ∧ (t s).cs.contender = none
      ∧ (t more).cs.bulk ++ ((t more).cs.inFlight.map (·.payload)).toList = [.piece issueA 2 []]
      ∧ (t mixed).cs.control ++ ((t mixed).cs.inFlight.map (·.payload)).toList = [.yield issueA]
      ∧ (t s).counters.fragmentsTaken = 1 := by
  unfold State.Hears; decide +kernel

/-- PieceSuppressesOurs: our PIECE waits behind a control contender; the record heard is malformed, or a duplicate. -/
theorem test_hyp_suppress :
    let s := shownState.withCs { (contending 1).cs with bulk := [pieceA] }
    s.Hears .piece 9 fragOnly.bytes ∧ s.Hears .piece 9 (fragOnly.bytes.set 14 0)
      ∧ pieceName (fragOnly.bytes.set 14 0) = some (issueA, 0) ∧ parseFragment (fragOnly.bytes.set 14 0) = none
      ∧ parseFragment fragOnly.bytes = some fragOnly ∧ s.cs.contender = some ⟨.control, 1, some 100002⟩
      ∧ (∃ e ∈ s.table, e.isComplete = true ∧ e.ofKey fragOnly.issue.key = true
          ∧ fragOnly.issue.revision.toNat ≤ e.revision)
      ∧ (after (.piece 9 fragOnly.bytes) s).cs.bulk = [] ∧ (after (.piece 9 fragOnly.bytes) s).counters.duplicate = 1 := by
  unfold State.Hears; decide +kernel

/-- TallyHeardIsMerged: no tally; a tag that joins; a COLLECTING tally that reaches 64 with an uplink out. -/
theorem test_hyp_tally :
    let body := (Payload.tally issueA [⟨9, .ack⟩]).body
    let members : List Member := (List.range 63).map fun n => ⟨BitVec.ofNat 32 (n + 100), false, .none⟩
    let full := (withTally { tallyIn .collecting with members := members }).withMl
      { base.ml with uplinkMarker := some ⟨⟨7, 7⟩, 0⟩ }
    base.Hears .tally 9 body ∧ base.findTally issueA = none ∧ tagGood 9 = true
      ∧ (withTally (tallyIn .waiting)).findTally issueA = some 0 ∧ (tallyIn .waiting).state ≠ .collecting
      ∧ members.length < 64 ∧ 64 ≤ (joinTag members 9 true).length ∧ full.ml.uplinkMarker = some ⟨⟨7, 7⟩, 0⟩
      ∧ (∀ m ∈ members, m.tag ≠ 9)
      ∧ ((after (.tally 9 body) (withTally (tallyIn .waiting))).tally 0).map (fun y => y.members.length) = some 3
      ∧ (after (.tally 9 body) full).ru.uplinkQueue = [0] := by
  unfold State.Hears; decide +kernel

/-- TallyHeardIsMerged, TallyTimersRun: a tally that holds 64 tags opens its window, and a TALLY heard does not end it
(log 39). -/
theorem test_full_set :
    let members : List Member := (List.range 64).map fun n => ⟨BitVec.ofNat 32 (n + 100), false, .none⟩
    let full (state : AgentState) := withTally { tallyIn state with members := members }
    let kept (s : State) := (s.tally 0).map fun y => (y.state, y.members.length)
    kept (after (.standHoldEnd 0) (full .standing)) = some (.collecting, 64)
      ∧ kept (after (.tally 9 (Payload.tally issueA [⟨9, .ack⟩]).body) (full .collecting)) = some (.collecting, 64) := by
  decide +kernel

/-- StandHeardIsCompared: a lower bid, an equal bid from a higher tag, a size of 64, a tally past STANDING. -/
theorem test_hyp_stand :
    let s := withTally (tallyIn .waiting)
    base.Hears .stand 9 (Payload.stand issueA 499 1).body ∧ s.findTally issueA = some 0
      ∧ s.tally 0 = some (tallyIn .waiting) ∧ 499 < (tallyIn .waiting).bid ∧ ¬ ((9 : Word32).toNat < s.cs.tag.toNat)
      ∧ (4 : Word32).toNat < s.cs.tag.toNat
      ∧ ((after (.stand 9 (Payload.stand issueA 499 1).body) s).tally 0).map (·.state) = some .contributing
      ∧ ((after (.stand 9 (Payload.stand issueA 500 1).body) s).tally 0).map (·.state) = some .waiting
      ∧ ((after (.stand 4 (Payload.stand issueA 500 1).body) s).tally 0).map (·.state) = some .contributing
      ∧ (after (.stand 9 (Payload.stand issueA 499 1).body) s).cs.control = [.tally issueA [⟨5, .receipt⟩, ⟨8, .ack⟩]]
      ∧ (after (.stand 9 (Payload.stand issueA 499 64).body) s).cs.control = [] := by
  unfold State.Hears; decide +kernel

/-- CoveredAndYieldHeard: tags that settle a tally and that do not, and a YIELD of the reporter and of another. -/
theorem test_hyp_covered :
    let s := withTally (tallyIn .waiting)
    let c := withTally { tallyIn .contributing with reporter := some 9 }
    let covered (tags : List Word32) := (Payload.covered issueA .receipt 0 tags).body
    base.Hears .covered 9 (covered [5]) ∧ base.Hears .yield 9 (Payload.yield issueA).body ∧ s.ru.deferred = []
      ∧ c.tally 0 = some { tallyIn .contributing with reporter := some 9 } ∧ c.findTally issueA = some 0
      ∧ ((after (.covered 9 (covered [5])) s).tally 0).map (·.state) = some .settled
      ∧ ((after (.covered 9 (covered [8])) s).tally 0).map (·.state) = some .waiting
      ∧ ((after (.yield 9 (Payload.yield issueA).body) c).tally 0).map (·.state) = some .waiting
      ∧ ((after (.yield 4 (Payload.yield issueA).body) c).tally 0).map (·.state) = some .contributing := by
  unfold State.Hears; decide +kernel

/-- StandHeardIsCompared, CoveredAndYieldHeard: frames of an issuance with no tally (06 R131). -/
theorem test_no_tally :
    base.findTally issueA = none ∧ after (.stand 9 (Payload.stand issueA 1 1).body) base = base
      ∧ after (.covered 9 (Payload.covered issueA .ack 1 [5]).body) base = base
      ∧ after (.yield 9 (Payload.yield issueA).body) base = base := by decide +kernel

/-- CoveredAndYieldHeard: a superseded tally; and items deferred, of which the earliest of the highest is served. -/
theorem test_exec_covered_served :
    let marked := { tallyIn .waiting with superseded := true }
    let items : List Deferred := [⟨⟨⟨7, 1⟩, 0⟩, 2, .receipt⟩, ⟨⟨⟨7, 2⟩, 0⟩, 5, .ack⟩, ⟨⟨⟨7, 3⟩, 0⟩, 5, .ack⟩]
    let s := (withTally (tallyIn .waiting)).withRu { (withTally (tallyIn .waiting)).ru with deferred := items }
    let t := after (.covered 9 (Payload.covered issueA .receipt 0 [5]).body) s
    (after (.covered 9 (Payload.covered issueA .receipt 0 [5]).body) (withTally marked)).tally 0 = none
      ∧ (withTally marked).ru.uplinkQueue.contains 0 = false ∧ (∀ d ∈ s.ru.deferred, d.precedence ≤ 7)
      ∧ (t.tally 0).map (fun y => (y.issue, y.ownLevel)) = some (⟨⟨7, 2⟩, 0⟩, .ack)
      ∧ t.ru.deferred = items.eraseIdx 1 := by decide +kernel

/-! ### Timers and inner steps -/

/-- AssemblyAndHuskEndFree: the timer of an ASSEMBLING entry, a husk with a deadline and without, and others. -/
theorem test_hyp_ends :
    let husk (deadline : Option Nat) := base.setEntry 4
      { whole .closed with map := emptyMap, closureTime := some 95, closureReason := some .expired, deadline := deadline }
    4 < collectingState.table.length ∧ (collectingState.entry 4).claimSlot = none
      ∧ (collectingState.entry 4).state = .assembling ∧ (collectingState.entry 4).assemblyTimer = some 180000
      ∧ 180000 ≤ lastMs ∧ (closedState.entry 4).state ≠ .assembling ∧ (closedState.entry 4).bodyHeld = true
      ∧ ((husk none).entry 4).state = .closed ∧ ((husk none).entry 4).bodyHeld = false
      ∧ ((husk none).entry 4).closureTime = some 95 ∧ ((husk (some 1890)).entry 4).deadline = some 1890
      ∧ (1890 + base.settings.huskHold) * 1000 ≤ lastMs ∧ (base.entry 4).state ≠ .closed
      ∧ (after (.assemblyTimeout 4) collectingState).free = (List.range 160).drop 1 ++ [0]
      ∧ (after (.assemblyTimeout 4) collectingState).now = 180000
      ∧ (after (.huskHoldEnd 4) (husk (some 1890))).now = 5490000
      ∧ ((after (.huskHoldEnd 4) (husk none)).entry 4) = Entry.freed 9 := by decide +kernel

/-- DeadlineExpiresEntry: no deadline, a CLOSED entry with its body, one the host holds, with 15 notices waiting and
with 16. -/
theorem test_hyp_deadline :
    let waiting (n : Nat) := claimedState.withPu
      { claimedState.pu with notices := List.replicate n ⟨.expired, ⟨1, 1⟩, none⟩ }
    (base.entry 4).deadline = none ∧ (collectingState.entry 4).state = .assembling
      ∧ (closedState.entry 4).deadline = some 1890 ∧ (closedState.entry 4).state = .closed
      ∧ (closedState.entry 4).slots ≠ [] ∧ 1890 * 1000 ≤ lastMs ∧ (claimedState.entry 4).state = .claimed
      ∧ (claimedState.entry 4).deadline = some 1890 ∧ (claimedState.entry 4).isHeld = true
      ∧ (waiting 15).pu.notices.length < 16 ∧ 16 ≤ (waiting 16).pu.notices.length
      ∧ ((after (.expiryDeadline 4) (waiting 15)).entry 4).closureReason = some .expired
      ∧ (after (.expiryDeadline 4) (waiting 15)).pu.notices.length = 16
      ∧ (after (.expiryDeadline 4) (waiting 16)).flags.noticeLost = true
      ∧ ((after (.expiryDeadline 4) closedState).entry 4).map = emptyMap := by decide +kernel

/-- DeadlineExpiresEntry: the tally of the entry uplinking, waiting, and waiting while another item is deferred; and the
entry's own item deferred. -/
theorem test_exec_deadline_tally :
    let s (y : Tally) (d : List Deferred) := claimedState.withRu { (withTally y).ru with deferred := d }
    let ru (y : Tally) (d : List Deferred) := (after (.expiryDeadline 4) (s y d)).ru
    let other : Deferred := ⟨⟨⟨7, 2⟩, 0⟩, 5, .ack⟩
    let elsewhere := { tallyIn .waiting with issue := ⟨⟨7, 1⟩, 0⟩ }
    (ru uplinking []).tallies.head? = some (some { uplinking with ended := true })
      ∧ (ru (tallyIn .waiting) []).tallies.head? = some none
      ∧ (s (tallyIn .waiting) [other]).isDeferred issueA = false
      ∧ ((ru (tallyIn .waiting) [other]).tallies.head?.join).map (·.issue) = some other.issue
      ∧ (ru (tallyIn .waiting) [other]).deferred = [] ∧ (s elsewhere [⟨issueA, 5, .ack⟩]).findTally issueA = none
      ∧ (ru elsewhere [⟨issueA, 5, .ack⟩, other]).deferred = [other] := by decide +kernel

/-- VerdictProcedureDecides: a LOCATING entry with its body, in each place its verdict comes from. -/
theorem test_hyp_verdict :
    let s := withEntry (areaEntry .locating)
    let unserved := s.withAr { s.ar with cell := 0 }
    let known := s.withAr (s.ar.filled 7 0x0A142811)
    let off := s.withSettings { s.settings with areaCheck := 0 }
    4 < s.table.length ∧ (s.entry 4).state = .locating ∧ 4 ∉ s.ar.waiting ∧ (s.entry 4).bodyHeld = true
      ∧ (s.entry 4).category = some .severe ∧ s.settings.areaCheck ≠ 0 ∧ (s.entry 4).areas ≠ []
      ∧ off.settings.areaCheck = 0 ∧ unserved.ar.cell = 0 ∧ known.ar.cached 7 = some 0x0A142811
      ∧ areaMatches (s.entry 4).areas 0x0A142811 = true ∧ areaMatches (s.entry 4).areas 0x0A142911 = false
      ∧ s.ar.cell ≠ 0 ∧ s.ar.cached s.ar.cell = none ∧ s.ml.queryMarker = none ∧ s.ml.sending = none ∧ s.ml.hold = []
      ∧ (after (.verdictProcedure 4) s).ml.sending = some (.regionQuery 7)
      ∧ ((after (.verdictProcedure 4) known).entry 4).verdict = .inside
      ∧ ((after (.verdictProcedure 4) known).entry 4).state = .pending
      ∧ ((after (.verdictProcedure 4) unserved).entry 4).verdict = .unresolved
      ∧ ((after (.verdictProcedure 4) off).entry 4).verdict = .inside := by decide +kernel

/-- VerdictProcedureDecides: the owner law holds there, and a query for another cell is out. -/
theorem test_hyp_verdict_law : (withEntry (areaEntry .locating)).OwnerLaw ∧ ∃ s : State, s.ml.queryMarker = some 9
    ∧ (s.entry 4).state = .locating ∧ s.ar.cached s.ar.cell = none :=
  ⟨by unfold State.OwnerLaw; decide +kernel, locatingState, by decide +kernel⟩

/-- VerdictProcedureDecides, the receipt event: a tally is taken, the lowest free one or the SETTLED one; one in use keeps
its state; with every tally busy the item is deferred, and a deferred one stays; OUTSIDE gives none. -/
theorem test_receipt :
    let known := (withEntry (areaEntry .locating)).withAr (base.ar.filled 7 0x0A142811)
    let outside := (withEntry (areaEntry .locating)).withAr (base.ar.filled 7 0x0B142811)
    let busy (k : Nat) : Option Tally := some { tallyIn .waiting with issue := ⟨⟨7, BitVec.ofNat _ k⟩, 0⟩ }
    let crowd := (List.range 8).map busy
    let one := crowd.set 6 (some { tallyIn .settled with issue := ⟨⟨7, 9⟩, 0⟩, settleTime := some 90000 })
    let item : Deferred := ⟨issueA, 5, .ack⟩
    let ru (s : State) (ys : List (Option Tally)) (d : List Deferred) :=
      (after (.verdictProcedure 4) (s.withRu { base.ru with tallies := ys, deferred := d })).ru
    let level (x : Report) (k : Nat) := (x.tallies[k]?.join).map fun y => (y.issue, y.ownLevel, y.members.length)
    level (ru known base.ru.tallies []) 0 = some (issueA, .receipt, 1) ∧ level (ru known one []) 6 = some (issueA, .receipt, 1)
      ∧ level (ru known (base.ru.tallies.set 2 (some { tallyIn .standing with ownLevel := .ack })) []) 2
          = some (issueA, .ack, 2)
      ∧ (ru known crowd []).deferred = [⟨issueA, 5, .receipt⟩] ∧ (ru known crowd [item]).deferred = [item]
      ∧ (ru outside base.ru.tallies []).tallies = base.ru.tallies := by decide +kernel

/-- A new alert takes the lowest free tally, and with none free the SETTLED one. -/
theorem test_hyp_takes_tally :
    let busy : Option Tally := some { tallyIn .waiting with issue := ⟨⟨7, 7⟩, 0⟩ }
    let settled : Option Tally := some { tallyIn .settled with issue := ⟨⟨7, 9⟩, 0⟩, settleTime := some 90000 }
    base.takesTally 0 ∧ (base.withRu { base.ru with tallies := [busy, settled, busy] }).takesTally 1 := by
  refine ⟨⟨by decide +kernel, Or.inl ⟨by decide +kernel, fun j h => absurd h (Nat.not_lt_zero j)⟩⟩,
    ⟨by decide +kernel, Or.inr ⟨by decide +kernel, _, _, rfl, rfl, rfl, ?_⟩⟩⟩
  intro j x hx hs
  match j, hx, hs with
  | 0, hx, hs => cases hx; exact absurd hs (by decide)
  | 1, hx, _ => cases hx; exact ⟨_, rfl, Or.inr ⟨rfl, Nat.le_refl 1⟩⟩
  | 2, hx, hs => cases hx; exact absurd hs (by decide)
  | n + 3, hx, _ => cases (show (none : Option Tally) = some x from hx)

/-- VerdictProcedureDecides: an entry whose body was released, with each verdict; and another of its key ASSEMBLING. -/
theorem test_hyp_verdict_bodiless :
    let bare := { areaEntry .locating with map := emptyMap }
    let coded (code : Word32) := (withEntry bare).withAr (base.ar.filled 7 code)
    let t := after (.verdictProcedure 4) (coded 0x0A142811)
    let rival := (coded 0x0A142811).setEntry 6 { collecting with issue := some ⟨issueA.key, 5⟩ }
    bare.bodyHeld = false ∧ bare.issue = some issueA ∧ bare.total = 1 ∧ bare.claimSlot = none
      ∧ areaMatches bare.areas 0x0A142811 = true ∧ areaMatches bare.areas 0x0B142811 = false
      ∧ ((after (.verdictProcedure 4) (coded 0x0B142811)).entry 4).state = .outside
      ∧ (t.entry 4).state = .assembling ∧ (t.entry 4).generation = 9
      ∧ (t.cs.contender.map fun k => k.queue) = some .control ∧ t.cs.control = [.want issueA 1]
      ∧ (∀ e ∈ (coded 0x0A142811).table, e.state = .assembling → e.ofKey issueA.key = false)
      ∧ (after (.verdictProcedure 4) rival).entry 4 = Entry.freed 9
      ∧ (rival.entry 6).state = .assembling ∧ (rival.entry 6).ofKey issueA.key = true := by decide +kernel

/-- VerdictProcedureDecides: the owner law holds of the entry with no body. -/
theorem test_hyp_verdict_bodiless_law : (withEntry { areaEntry .locating with map := emptyMap }).OwnerLaw := by
  unfold State.OwnerLaw; decide +kernel

/-- QueryTimeoutEndsQuery: for the serving cell, for another cell with a code cached and without, with none waiting. -/
theorem test_hyp_query_timer :
    let serving := locatingState.withAr { locatingState.ar with cell := 9 }
    let known := locatingState.withAr (locatingState.ar.filled 7 0x0A142811)
    locatingState.ml.queryMarker = some 9 ∧ locatingState.ar.queryTimer = some 103000 ∧ 103000 ≤ lastMs
      ∧ serving.ml.queryMarker = some serving.ar.cell ∧ serving.ar.waiting = [4] ∧ (serving.entry 4).bodyHeld = true
      ∧ (serving.entry 4).state = .locating ∧ (9 : Word32) ≠ locatingState.ar.cell ∧ locatingState.ar.cell ≠ 0
      ∧ locatingState.ar.waiting ≠ [] ∧ locatingState.ar.cached locatingState.ar.cell = none
      ∧ known.ar.cached known.ar.cell = some 0x0A142811
      ∧ (locatingState.withAr { locatingState.ar with waiting := [] }).ar.waiting = []
      ∧ ((after .queryTimerEnd serving).entry 4).verdict = .unresolved
      ∧ (after .queryTimerEnd locatingState).ml.queryMarker = some 7
      ∧ (after .queryTimerEnd known).ar.waiting = [] ∧ (after .queryTimerEnd known).now = 103000 := by decide +kernel

/-- RelayTimersRun: an offer point with too few offers heard and with enough, the interval at its longest, a WANT. -/
theorem test_hyp_relay_timers :
    let few := offered.setEntry 4 { offered.entry 4 with offer := some ⟨64, 99000, 2500, false, 1⟩ }
    (offered.entry 4).offer = some ⟨4, 99000, 2500, false, 255⟩ ∧ 99000 + 2500 ≤ lastMs
      ∧ (offered.entry 4).issue = some issueA ∧ (offered.entry 4).category = some .severe
      ∧ 1 < few.settings.redundancy ∧ 99000 + 64 * 1000 ≤ lastMs ∧ (collectingState.entry 4).state = .assembling
      ∧ (collectingState.entry 4).want = some ⟨105000, none⟩ ∧ 105000 ≤ lastMs
      ∧ (collectingState.entry 4).issue = some issueA ∧ (collectingState.entry 4).offer = none
      ∧ (offered.entry 4).want = none ∧ (after (.offerPoint 4) offered).cs.control = []
      ∧ (after (.offerPoint 4) few).cs.control = [offerA]
      ∧ ((after (.offerIntervalEnd 4) few).entry 4).offer.map (·.interval) = some 64
      ∧ ((after (.offerIntervalEnd 4) offered).entry 4).offer.map (·.interval) = some 8
      ∧ (after (.gapFillTimerEnd 4) collectingState).cs.control = [wantA] := by decide +kernel

/-- A part without service, and one with service and the channel down. -/
def unserved (y : Tally) : State := (withTally y).withAr { base.ar with cell := 0 }

/-- See `unserved`; an uplink is out. -/
def portless (y : Tally) : State :=
  ((withTally y).withCs { base.cs with port := .down }).withMl { base.ml with uplinkMarker := some ⟨⟨7, 7⟩, 0⟩ }

/-- TallyTimersRun: each timer where it runs, with service and channel and without, and the digest that is sent. -/
theorem test_hyp_tally_timers :
    let waiting := withTally (tallyIn .waiting)
    let collecting := withTally (tallyIn .collecting)
    0 < waiting.ru.tallies.length ∧ waiting.tally 0 = some (tallyIn .waiting) ∧ (tallyIn .waiting).timer = some 101000
      ∧ 101000 ≤ lastMs ∧ (unserved (tallyIn .waiting)).ar.cell = 0 ∧ waiting.ar.cell ≠ 0 ∧ waiting.ar.service = .full
      ∧ waiting.ml.modemReady = true ∧ waiting.cs.port = .up ∧ (portless (tallyIn .waiting)).cs.port ≠ .up
      ∧ (portless (tallyIn .waiting)).ml.uplinkMarker ≠ none ∧ collecting.ml.uplinkMarker = none
      ∧ collecting.ru.uplinkQueue = []
      ∧ ((after (.reportDelayEnd 0) waiting).tally 0).map (·.state) = some .standing
      ∧ (after (.reportDelayEnd 0) waiting).cs.control = [.stand issueA 500 2]
      ∧ ((after (.reportDelayEnd 0) (unserved (tallyIn .waiting))).tally 0).map (·.state) = some .waiting
      ∧ (after (.reportDelayEnd 0) (portless (tallyIn .waiting))).ru.uplinkQueue = [0]
      ∧ ((after (.standHoldEnd 0) (withTally (tallyIn .standing))).tally 0).map (·.timer) = some (some 109000)
      ∧ (after (.collectionWindowEnd 0) collecting).ml.sending
          = some (.uplink issueA 5 [⟨5, .receipt⟩, ⟨8, .ack⟩])
      ∧ ((after (.contributorGuardEnd 0) (withTally (tallyIn .contributing))).tally 0).map (·.state)
          = some .waiting := by decide +kernel

/-! ### Attention and keys -/

/-- The owner of entry 4 sounds a profile of one counted output, in its last burst. -/
def lastBurst : State :=
  pendingState.withAu { pendingState.au with
    cadence := some ⟨2, ⟨.off, 3, some 100500⟩, ⟨.done, 4, none⟩⟩ }

/-- CadencePhasesRun: an ON phase, an OFF phase before the last and at the last burst, with the other output done. -/
theorem test_hyp_cadence :
    lastBurst.au.cadence = some ⟨2, ⟨.off, 3, some 100500⟩, ⟨.done, 4, none⟩⟩ ∧ 100500 ≤ lastMs
      ∧ lastBurst.settings.cadenceValue 2 .tone 3 = 4 ∧ lastBurst.settings.cadenceValue 2 .tone 0 ≠ 0
      ∧ lastBurst.settings.cadenceValue 2 .tone 1 ≠ 0 ∧ lastBurst.settings.cadenceValue 2 .tone 2 ≠ 0
      ∧ lastBurst.au.owner = some ⟨4, 9, 5⟩ ∧ 4 < lastBurst.table.length
      ∧ ((after (.cadencePhaseEnd .tone) lastBurst).entry 4).sounded = true
      ∧ (after (.cadencePhaseEnd .tone) lastBurst).au.owner = none
      ∧ ((after (.cadencePhaseEnd .tone) pendingState).au.cadence.map fun c => c.tone.phase) = some .off := by
  decide +kernel

/-- CadencePhasesRun: no entry but the owner is eligible. -/
theorem test_hyp_cadence_only : ∀ j, j ≠ 4 → (lastBurst.entry j).eligible lastBurst.pu.threshold = false :=
  every_entry (P := fun j e => j ≠ 4 → e.eligible lastBurst.pu.threshold = false) (by decide +kernel)
    (fun _ _ => by decide)

/-- KeysAreDebounced, the input: each drive, each pull. -/
theorem test_hyp_key_input :
    let none' := base.withSettings { base.settings with ackPull := 0 }
    let down := base.withSettings { base.settings with ackPull := 2 }
    fresh.started = false ∧ base.started = true ∧ base.settings.pull .ack = 1 ∧ down.settings.pull .ack = 2
      ∧ none'.settings.pull .ack = 0 ∧ (after (.keyEdge .ack .low) base).au.ack.timer = some 100020
      ∧ (after (.keyEdge .ack .high) base).au.ack.timer = none
      ∧ (after (.keyEdge .ack .nothing) down).au.ack.levelHigh = false
      ∧ (after (.keyEdge .silence .low) fresh).au.silence.timer = none := by decide +kernel

/-- A key input at its active level, its debounce timer running. -/
def keyPressed (s : State) (key : KeyName) : State := s.setKey key ⟨.low, false, false, some 100020⟩

/-- KeysAreDebounced, the timer: no press; a press with no owner; either key with an owner, the host holding it or
not. -/
theorem test_hyp_debounce :
    ((keyPressed base .ack).au.key .ack).timer = some 100020 ∧ 100020 ≤ lastMs ∧ (keyPressed base .ack).keyActive .ack = true
      ∧ ((keyPressed base .ack).au.key .ack).accepted = false ∧ base.au.owner = none
      ∧ (base.setKey .ack ⟨.high, true, true, some 100020⟩).keyActive .ack = false
      ∧ (keyPressed claimedState .ack).au.owner = some ⟨4, 9, 5⟩ ∧ 4 < claimedState.table.length
      ∧ (claimedState.entry 4).isHeld = true ∧ (pendingState.entry 4).isHeld = false
      ∧ (after (.debounceEnd .ack) (keyPressed base .ack)).counters.idleKey = 1
      ∧ ((after (.debounceEnd .ack) (keyPressed claimedState .ack)).entry 4).closureReason = some .acknowledged
      ∧ (after (.debounceEnd .ack) (keyPressed claimedState .ack)).pu.notices = [⟨.keyAck, ⟨4, 9⟩, none⟩]
      ∧ ((after (.debounceEnd .silence) (keyPressed pendingState .silence)).entry 4).sounded = true
      ∧ (after (.debounceEnd .silence) (keyPressed claimedState .silence)).pu.notices
          = [⟨.keySilence, ⟨4, 9⟩, none⟩] := by decide +kernel

/-- KeysAreDebounced, a press with the notice queue full and with room; the claim slot, the report, an active level HIGH. -/
theorem test_press_owner :
    let full := claimedState.withPu { claimedState.pu with notices := List.replicate 16 ⟨.keyAck, ⟨3, 3⟩, none⟩ }
    let t (key : KeyName) (s : State) := after (.debounceEnd key) (keyPressed s key)
    let highs := base.withSettings { base.settings with ackActive := 1 }
    (t .ack claimedState).pu.slots = [none, none, none, none] ∧ (t .ack claimedState).flags.noticeLost = false
      ∧ ((t .ack claimedState).tally 0).map (fun y => (y.issue, y.ownLevel)) = some (issueA, .ack)
      ∧ (t .ack full).flags.noticeLost = true ∧ (t .ack full).pu.notices = full.pu.notices
      ∧ (t .silence full).flags.noticeLost = true ∧ (t .silence full).pu.slots = full.pu.slots
      ∧ (after (.debounceEnd .ack) (highs.setKey .ack ⟨.high, true, false, some 100020⟩)).counters.idleKey = 1
      ∧ (t .ack highs).counters.idleKey = 0 := by decide +kernel

/-- CadencePhasesRun, the pins: each mode of a part whose owner sounds, of one that is silent, and through start-up. -/
theorem test_outputs :
    let moded (n : Nat) (s : State) := s.withSettings { s.settings with toneMode := n, buzzMode := n }
    let tones (s : State) := [0, 1, 2].map fun n => (moded n s).pin .tone
    (moded 2 pendingState).settings.toneMode = 2 ∧ (pendingState.au.cadence.map fun c => c.tone.phase) = some .on
      ∧ tones pendingState = [.floating, .high, .low] ∧ tones base = [.floating, .low, .floating]
      ∧ tones (pendingState.withSl fresh.sl) = [.floating, .floating, .floating]
      ∧ (moded 1 lastBurst).pin .buzz = .low := by decide +kernel

/-- CadencePhasesRun: the next eligible entry after a completion; and an owner whose profile has no output enabled. -/
theorem test_next_owner :
    let two := lastBurst.setEntry 6 { pendingE with precedence := some 4 }
    let t := after (.cadencePhaseEnd .tone) two
    let hushed := two.withSettings { two.settings with cadence := List.replicate 32 0 }
    let u := hushed.attend
    t.au.owner = some ⟨6, 9, 4⟩ ∧ two.mappedProfile 6 = 2
      ∧ t.au.cadence = some ⟨2, ⟨.on, 0, some 100800⟩, ⟨.on, 0, some 100800⟩⟩
      ∧ (t.entry 4).sounded = true ∧ (t.entry 6).sounded = false ∧ t.now = 100500
      ∧ ({ hushed with au := { hushed.au with owner := none } }.attend).au.owner = none
      ∧ ({ hushed with au := { hushed.au with owner := none } }.attend.entry 6).sounded = true ∧ u = hushed := by
  decide +kernel

/-- CadencePhasesRun: entry 6 is the first to sound once the owner, entry 4, has sounded. -/
theorem test_hyp_first_to_sound :
    let s := (lastBurst.setEntry 6 { pendingE with precedence := some 4 }).setEntry 4 { pendingE with sounded := true }
    s.firstToSound 6 ∧ s.settings.enables (s.mappedProfile 6) .tone ∧ ∀ e ∈ s.table, e.precedence.getD 0 ≤ 7 := by
  intro s
  refine ⟨⟨by decide +kernel, by decide +kernel, ?_⟩, ?_, by decide +kernel⟩
  · have only : ∀ j, j ≠ 6 → (s.entry j).eligible s.pu.threshold = false :=
      every_entry (P := fun j e => j ≠ 6 → e.eligible s.pu.threshold = false) (by decide +kernel) (fun _ _ => by decide)
    intro j hj he; rw [only j hj] at he; cases he
  · unfold Settings.enables; decide +kernel

/-! ### Encodings and laws -/

/-- FragmentEncodingAgrees: a fragment at the ends of its ranges: eight areas, 48 bytes, index 15 of 16. -/
theorem test_hyp_fragment_encoding :
    let f : Fragment := { frag 15 0 16 (List.replicate 48 0xFF) with
      areas := List.replicate 8 ⟨0xFFFFFFFF, 4⟩, duration := 65535, category := .test, kind := .cancel }
    let g : Fragment := frag 0 15 16 []
    (f.issue.key.origin ≠ 0 ∧ f.index < f.total ∧ f.total ≤ 16 ∧ f.duration ≠ 0 ∧ f.areas.length ≤ 8 ∧ f.index = 0
        ∧ (∀ d ∈ f.areas, 1 ≤ d.depth ∧ d.depth ≤ 4) ∧ f.payload.length ≤ 48 ∧ parseFragment f.bytes = some f
        ∧ f.bytes.length = 105)
      ∧ g.index < g.total ∧ g.total ≤ 16 ∧ g.areas = [] ∧ parseFragment g.bytes = some g := by decide +kernel

/-- FrameAndRecordEncodingsAgree: bodies at the ends of their ranges. -/
theorem test_hyp_encodings :
    bodyGood .tally (Payload.tally issueA (List.replicate 16 ⟨0xFFFFFFFE, .ack⟩)).body = true
      ∧ bodyGood .covered (Payload.covered issueA .ack 0 (List.replicate 24 1)).body = true
      ∧ tagGood 0xFFFFFFFE = true ∧ tagGood 1 = true ∧ issueA.key.origin ≠ 0 ∧ (List.replicate 6 (1 : Byte)).length ≤ 6
      ∧ (List.replicate 105 (1 : Byte)).length ≤ 105 := by decide +kernel

/-- A state with an entry claimed, one LOCATING that waits for a query, one ASSEMBLING, their bodies stored, and a
command waiting. -/
def busyState : State :=
  { ((claimedState.setEntry 6 { areaEntry .locating with
        issue := some ⟨⟨7, 7⟩, 0⟩, map := emptyMap.set 0 (some 1) }).setEntry 8
      { collecting with issue := some ⟨⟨8, 8⟩, 0⟩, map := emptyMap.set 0 (some 2) }) with
    free := (List.range 160).drop 3
    ar := { base.ar with waiting := [6], queryTimer := some 103000 }
    ml := { base.ml with queryMarker := some 7 }
    pending := [.sent] }

/-- StepKeepsSizesAndRanges. -/
theorem test_hyp_shape : busyState.Shape ∧ busyState.InRange := by
  unfold State.Shape State.InRange; decide +kernel

/-- StepKeepsChannelLaws. -/
theorem test_hyp_channel_laws : (contending 3).PortLaw ∧ (contending 3).TagLaw ∧ (contending 3).EarlyLaw
    ∧ fresh.EarlyLaw := by
  refine ⟨⟨by decide +kernel, by decide +kernel, by decide +kernel, by decide +kernel, ?_, by decide +kernel,
    by decide +kernel, by decide +kernel, ?_, ?_⟩, by unfold State.TagLaw; decide +kernel,
    fun h => absurd h (by decide +kernel), fun _ => ⟨fun _ h => (by cases h), fun _ h => (by cases h)⟩⟩
  · rintro k (h : some (⟨.control, 3, some 100002⟩ : Contender) = some k); cases h; decide +kernel
  · intro q p hp
    cases q with
    | control => obtain rfl : p = .yield issueA := by simpa using (show p ∈ [Payload.yield issueA] from hp)
                 rfl
    | bulk => cases hp
  · rintro _ _ (h : some (⟨.control, 3, some 100002⟩ : Contender) = none); cases h

/-- StepKeepsClaims, StepKeepsOwner, StepKeepsSlots: the waiting set, the owner and the slots. -/
theorem test_hyp_laws : busyState.WaitLaw ∧ busyState.OwnerLaw ∧ busyState.SlotLaw := by
  unfold State.WaitLaw State.OwnerLaw State.SlotLaw Entry.SlotLaw; decide +kernel

/-- StepKeepsClaims: the claim slots. -/
theorem test_hyp_claim_law : busyState.ClaimLaw := by
  refine ⟨by decide +kernel, ?_, ?_, ?_⟩
  · refine every_entry (P := fun i e => e.state = .claimed → ∃ k, e.claimSlot = some k
      ∧ busyState.pu.slots[k]? = some (some (busyState.handle i))) ?_ (fun _ h => absurd h (by decide))
    intro i hi hc
    obtain rfl : i = 4 := by revert i; decide +kernel
    exact ⟨2, by decide +kernel, by decide +kernel⟩
  · intro k h hk
    have hlt : k < 4 := by
      by_contra hn
      have h4 : busyState.pu.slots.length = 4 := by decide +kernel
      rw [List.getElem?_eq_none (by omega)] at hk
      cases hk
    have : k = 2 ∧ h = ⟨4, 9⟩ := by
      interval_cases k
      · exact absurd (show some none = some (some h) from hk) (by simp)
      · exact absurd (show some none = some (some h) from hk) (by simp)
      · have hk : some (some (⟨4, 9⟩ : Handle)) = some (some h) := hk
        simp at hk; exact ⟨rfl, hk.symm⟩
      · exact absurd (show some none = some (some h) from hk) (by simp)
    obtain ⟨rfl, rfl⟩ := this
    decide +kernel
  · exact every_entry (P := fun _ e => e.state ≠ .claimed → e.claimSlot = none) (by decide +kernel) (fun _ _ => rfl)

/-- StepKeepsOneAssembling: one entry assembles. -/
theorem test_hyp_one_assembling : busyState.OneAssembling := by
  have only : ∀ i, (busyState.entry i).state = .assembling → i = 8 :=
    every_entry (P := fun i e => e.state = .assembling → i = 8) (by decide +kernel) (fun _ h => absurd h (by decide))
  intro i j _ hi hj _ _; rw [only i hi, only j hj]

/-- A step of the busy state answers a next state. -/
theorem test_busy_step : isNext (step busyState) := ⟨_, rfl⟩

end Sys2Proof.Tests
end

/-! A fragment record that Fragment Intake drops (02 R32 to R37, R41; 01 R29): how the record comes to the intake,
which decision applies, and when neither store nor table finds room. -/

namespace Sys2Proof.Machine

/-! ### The record comes to Fragment Intake -/

/-- A FRAGMENT record of the modem goes through framer and judge to the intake (09 R172 to R174). -/
theorem exec_fragment {s : State} {record : List Byte} (idle : s.ModemIdle) (least : 17 ≤ record.length)
    (most : record.length ≤ 105) :
    exec (.fragment record) s = .next (s.recordIn.intake .broadcast record) := by
  obtain ⟨ready, framer⟩ := idle
  have nonempty : linkRecord 3 record ≠ [] := by simp [linkRecord, num16, bytes16]
  have framed : s.ml.framer.feed modemMost (linkRecord 3 record) = (.idle, [.record (linkRecord 3 record)]) := by
    rw [framer]; exact feed_linkRecord _ _ _ (by simp only [modemMost]; omega) (by decide)
  have judged : judgeModem (linkRecord 3 record) = some (.fragment record) := by
    rw [judgeModem_linkRecord _ _ (by omega)]; simp [modemRecord, least, most]
  change Host.Outcome.next (s.modemBytes (linkRecord 3 record)) = _
  simp only [State.modemBytes, ready, nonempty, ne_eq, not_false_eq_true, and_self, if_true, framed,
    List.foldl_cons, List.foldl_nil, State.modemEvent, judged, State.takeModem, State.recordIn]

/-- A PIECE frame that the part hears is delivered (04 R76, R77). -/
theorem exec_piece {s : State} {sender : Word32} {record : List Byte} (h : s.Hears .piece sender record) :
    exec (.piece sender record) s = .next (s.hearPiece record) := by
  have taken := State.takeFrame_of_hears h
  obtain ⟨port, body, tag, -, -⟩ := h
  change Host.Outcome.next (s.receive (frameBytes .piece sender record)) = _
  simp only [State.receive, port, if_false, parseFrame_frameBytes .piece sender record body tag, taken, State.deliver]

/-- With both queues empty the arbiter finds no frame to contend for (04 R82). -/
theorem State.arbitrate_of_rests {s : State} (h : s.ArbiterRests) : s.arbitrate = s := by
  unfold State.arbitrate
  split
  · next cond =>
    obtain ⟨port, flight, contender⟩ := cond
    obtain ⟨control, bulk⟩ := h port flight contender
    simp [Station.choice, control, bulk]
  · rfl

/-- A removal that names no frame of ours changes nothing, where the arbiter has nothing to do (04 R81). -/
theorem State.removePieces_of_none {s : State} {i : Issue} {index : Option Nat}
    (bulk : ∀ p ∈ s.cs.bulk, p.isPieceOf i index = false)
    (flight : ∀ f, s.cs.inFlight = some f → f.payload.isPieceOf i index = false) (rests : s.ArbiterRests) :
    s.removePieces i index = s := by
  have kept : (s.cs.bulk.filter fun p => !p.isPieceOf i index) = s.cs.bulk :=
    List.filter_eq_self.mpr fun p hp => by simp [bulk p hp]
  have same : (s.cs.inFlight.map fun f => if f.payload.isPieceOf i index then { f with withdrawn := true } else f)
      = s.cs.inFlight := by
    cases hf : s.cs.inFlight with
    | none => rfl
    | some f => simp [flight f hf]
  have unnamed : s.cs.contenderNamed i index = false := by
    unfold Station.contenderNamed
    split
    · next hb => simp [bulk _ (hb ▸ List.mem_cons_self)]
    · rfl
  unfold State.removePieces
  simp only [kept, same, unnamed, Bool.false_eq_true, if_false]
  exact State.arbitrate_of_rests rests

/-- A record that leaves the channel station alone comes to what the intake makes of it, from either source: the removal
of our identical PIECE finds none (05 R102). -/
theorem exec_arrival {s t : State} {source : Source} {sender : Word32} {record : List Byte}
    (meet : s.Meets source sender record) (taken : (s.arrived source).intake source record = t)
    (station : t.cs = (s.arrived source).cs) : exec (arrival source sender record) s = .next t := by
  cases source with
  | broadcast =>
    obtain ⟨idle, least, most⟩ := meet
    rw [← taken]; exact exec_fragment idle least most
  | relay =>
    obtain ⟨hears, noPiece, rests⟩ := meet
    have taken : s.intake .relay record = t := taken
    have station : t.cs = s.cs := station
    refine (exec_piece hears).trans (congrArg _ ?_)
    unfold State.hearPiece
    rw [taken]
    cases name : pieceName record with
    | none => rfl
    | some named =>
      obtain ⟨bulk, flight⟩ := noPiece named.1 named.2 name
      rw [← station] at bulk flight
      refine State.removePieces_of_none bulk flight ?_
      unfold State.ArbiterRests
      rw [station]; exact rests

/-! ### The parts the intake reads are not moved by the arrival -/

@[simp] theorem State.arrived_settings (s : State) (source : Source) : (s.arrived source).settings = s.settings := by
  cases source <;> rfl

@[simp] theorem State.arrived_table (s : State) (source : Source) : (s.arrived source).table = s.table := by
  cases source <;> rfl

@[simp] theorem State.arrived_free (s : State) (source : Source) : (s.arrived source).free = s.free := by
  cases source <;> rfl

@[simp] theorem State.arrived_entry (s : State) (source : Source) (i : Nat) :
    (s.arrived source).entry i = s.entry i := by cases source <;> rfl

@[simp] theorem State.arrived_assemblingOf (s : State) (source : Source) (key : Key) :
    (s.arrived source).assemblingOf key = s.assemblingOf key := by cases source <;> rfl

@[simp] theorem State.arrived_isLive (s : State) (source : Source) (f : Fragment) :
    (s.arrived source).isLive f ↔ s.isLive f := by cases source <;> rfl

@[simp] theorem State.arrived_takes (s : State) (source : Source) (f : Fragment) :
    (s.arrived source).Takes f ↔ s.Takes f := by cases source <;> rfl

@[simp] theorem State.arrived_admits (s : State) (source : Source) (f : Fragment) :
    (s.arrived source).Admits f ↔ s.Admits f := by cases source <;> rfl

/-! ### The decisions before the ASSEMBLING entry (02 R32 to R35) -/

/-- The stale test in the words of the statements (02 R33). -/
theorem Fragment.stale_eq_false_iff (f : Fragment) (s : State) : f.stale s.tb.alertClock = false ↔ s.isLive f := by
  unfold Fragment.stale State.isLive
  cases s.tb.alertClock <;> simp

/-- A tombstone is a complete entry (01 R27). -/
theorem Entry.isComplete_of_isTombstone {e : Entry} (h : e.isTombstone = true) : e.isComplete = true := by
  have closed : e.state = .closed := by
    simp only [Entry.isTombstone, Bool.and_eq_true, beq_iff_eq] at h; exact h.1
  simp [Entry.isComplete, closed]

/-- A malformed record is counted (02 R32). -/
theorem State.intake_of_malformed {s : State} {source : Source} {record : List Byte}
    (malformed : parseFragment record = none) : s.intake source record = s.count .malformed := by
  simp [State.intake, malformed]

section Decisions

variable {s : State} {source : Source} {record : List Byte} {f : Fragment}

/-- A stale record is counted (02 R33). -/
theorem State.intake_of_stale (parsed : parseFragment record = some f) (stale : ¬ s.isLive f) :
    s.intake source record = s.count .stale := by
  rw [← Fragment.stale_eq_false_iff, Bool.not_eq_false] at stale
  simp [State.intake, parsed, stale]

/-- A tombstone of the key, or a complete entry of it at the record's revision or higher, makes the record a duplicate
(02 R34, R35). -/
theorem State.intake_of_complete (parsed : parseFragment record = some f) (live : s.isLive f) {e : Entry}
    (held : e ∈ s.table) (key : e.ofKey f.issue.key = true) (complete : e.isComplete = true)
    (old : e.isTombstone = true ∨ f.issue.revision.toNat ≤ e.revision) :
    s.intake source record = s.count .duplicate := by
  have fresh := (Fragment.stale_eq_false_iff f s).mpr live
  have found : s.cancelled f.issue.key = true ∨ s.repeated f.issue = true := by
    rcases old with tombstone | revision
    · exact .inl (List.any_eq_true.mpr ⟨e, held, by simp [tombstone, key]⟩)
    · exact .inr (List.any_eq_true.mpr ⟨e, held, by simp [complete, key, revision]⟩)
  rcases found with cancelled | repeated
  · simp [State.intake, parsed, fresh, cancelled]
  · simp [State.intake, parsed, fresh, repeated]

/-- No tombstone of the key stands where the fragment is admitted (02 R34). -/
theorem State.Admits.not_cancelled (h : s.Admits f) : s.cancelled f.issue.key = false := by
  refine List.any_eq_false.mpr fun e held both => ?_
  obtain ⟨tombstone, key⟩ := Bool.and_eq_true_iff.mp both
  have absent := (h.2 e held (Entry.isComplete_of_isTombstone tombstone) key).1
  rw [absent] at tombstone; cases tombstone

/-- No complete entry of the key stands at the record's revision or higher where the fragment is admitted (02 R35). -/
theorem State.Admits.not_repeated (h : s.Admits f) : s.repeated f.issue = false := by
  refine List.any_eq_false.mpr fun e held all => ?_
  simp only [Bool.and_eq_true, decide_eq_true_eq] at all
  obtain ⟨⟨complete, key⟩, revision⟩ := all
  have lower := (h.2 e held complete key).2
  omega

/-- An admitted fragment meets the ASSEMBLING entry of its key (02 R36). -/
theorem State.intake_of_assembling (parsed : parseFragment record = some f) (admitted : s.Admits f) {i : Nat}
    (found : s.assemblingOf f.issue.key = some i) : s.intake source record = s.intakeAssembling source f i := by
  have fresh := (Fragment.stale_eq_false_iff f s).mpr admitted.1
  simp [State.intake, parsed, fresh, admitted.not_cancelled, admitted.not_repeated, found]

/-- An admitted fragment of a key that no entry assembles starts one (02 R37). -/
theorem State.intake_of_new (parsed : parseFragment record = some f) (admitted : s.Admits f)
    (unknown : s.assemblingOf f.issue.key = none) : s.intake source record = s.intakeNew source f := by
  have fresh := (Fragment.stale_eq_false_iff f s).mpr admitted.1
  simp [State.intake, parsed, fresh, admitted.not_cancelled, admitted.not_repeated, unknown]

/-! ### The decisions at the ASSEMBLING entry (02 R36) -/

/-- An entry that holds an issuance is of its revision. -/
theorem Entry.revision_of_issue {e : Entry} {issue : Issue} (h : e.issue = some issue) :
    e.revision = issue.revision.toNat := by simp [Entry.revision, h]

/-- A fragment of a lower revision than the entry's is a duplicate. -/
theorem State.intakeAssembling_of_lower {i : Nat} (lower : f.issue.revision.toNat < (s.entry i).revision) :
    s.intakeAssembling source f i = s.count .duplicate := by
  simp [State.intakeAssembling, lower]

/-- A fragment of the entry's revision with another total or category is inconsistent. -/
theorem State.intakeAssembling_of_inconsistent {i : Nat} (own : (s.entry i).issue = some f.issue)
    (settled : (s.entry i).provisional = false)
    (other : (s.entry i).total ≠ f.total ∨ (s.entry i).category ≠ some f.category) :
    s.intakeAssembling source f i = s.count .inconsistent := by
  simp [State.intakeAssembling, Entry.revision_of_issue own, settled, other]

/-- A fragment for a position that is filled is a duplicate. -/
theorem State.intakeAssembling_of_filled {i : Nat} (own : (s.entry i).issue = some f.issue)
    (settled : (s.entry i).provisional = false) (total : (s.entry i).total = f.total)
    (category : (s.entry i).category = some f.category)
    (filled : ((s.entry i).map.getD f.index none).isSome = true) :
    s.intakeAssembling source f i = s.count .duplicate := by
  simp only [State.intakeAssembling, Entry.revision_of_issue own, settled, total, category, filled]
  simp

/-- A fragment that is to be taken and finds no slot is dropped with STORE_FULL (02 R41). -/
theorem State.intake_of_no_slot (parsed : parseFragment record = some f) (takes : s.Takes f)
    (full : s.findSlot f.issue.key f.category = none) : s.intake source record = s.flag .storeFull := by
  obtain ⟨admitted, wanted⟩ := takes
  cases found : s.assemblingOf f.issue.key with
  | none =>
    rw [State.intake_of_new parsed admitted found]
    simp [State.intakeNew, full]
  | some i =>
    rw [State.intake_of_assembling parsed admitted found]
    rcases wanted i found with higher | ⟨own, provisional | ⟨total, category, empty⟩⟩
    · simp [State.intakeAssembling, higher, Nat.not_lt_of_gt higher, full]
    · simp [State.intakeAssembling, Entry.revision_of_issue own, provisional, full]
    · simp only [State.intakeAssembling, Entry.revision_of_issue own, total, category, empty, full]
      simp

/-- A fragment of a new key that finds a slot and no entry gives the slot back to the tail and is dropped with
TABLE_FULL (01 R29, 02 R37). -/
theorem State.intake_of_no_entry (parsed : parseFragment record = some f) (admitted : s.Admits f)
    (unknown : s.assemblingOf f.issue.key = none) {slot : Nat} {rest : List Nat} (free : s.free = slot :: rest)
    (full : (s.withFree rest).takeEntry f.issue f.total f.category false = none) :
    s.intake source record = (s.withFree (rest ++ [slot])).flag .tableFull := by
  have popped : s.findSlot f.issue.key f.category = some (slot, s.withFree rest) := by
    simp [State.findSlot, State.popSlot, free]
  rw [State.intake_of_new parsed admitted unknown]
  simp only [State.intakeNew, popped, full]
  rfl

end Decisions

/-! ### Neither store nor table finds room (02 R41, R42; 01 R29) -/

/-- The entry is of lower configured precedence than a category. -/
def Entry.ranksBelow (c : Settings) (category : Category) (e : Entry) : Prop :=
  ∃ own, e.category = some own ∧ c.configured own < c.configured category

/-- Where no element has a rank, nothing is found. -/
theorem leastFrom_eq_none {α : Type} {rank : α → Option (Nat × Nat)} {xs : List α} (n : Nat)
    (h : ∀ x ∈ xs, rank x = none) : leastFrom rank n xs = none := by
  induction xs generalizing n with
  | nil => rfl
  | cons x xs ih =>
    simp only [leastFrom, h x List.mem_cons_self, ih (n + 1) fun y hy => h y (List.mem_cons_of_mem x hy)]

/-- Where no entry of the table has a rank, there is no entry of least rank. -/
theorem State.leastEntry_eq_none {s : State} {rank : Entry → Option (Nat × Nat)} (h : ∀ e ∈ s.table, rank e = none) :
    s.leastEntry rank = none := by
  simp [State.leastEntry, leastFrom_eq_none 0 h]

/-- A husk is CLOSED. -/
theorem Entry.isHusk_eq_false {e : Entry} (h : e.state ≠ .closed) : e.isHusk = false := by simp [Entry.isHusk, h]

/-- A tombstone is CLOSED. -/
theorem Entry.isTombstone_eq_false {e : Entry} (h : e.state ≠ .closed) : e.isTombstone = false := by
  simp [Entry.isTombstone, h]

/-- An ASSEMBLING entry of no lower precedence is no candidate of step 4. -/
theorem Entry.pressureRank4_eq_none {c : Settings} {key : Key} {category : Category} {e : Entry}
    (h : e.state = .assembling → e.ofKey key = false → e.slots ≠ [] → ¬ e.ranksBelow c category) :
    e.pressureRank4 c key category = none := by
  unfold Entry.pressureRank4
  split
  · next own known =>
    refine if_neg fun cond => ?_
    simp only [Bool.and_eq_true, beq_iff_eq, Bool.not_eq_true', bne_iff_ne, decide_eq_true_eq] at cond
    obtain ⟨⟨⟨assembling, other⟩, slots⟩, lower⟩ := cond
    exact h assembling other slots ⟨own, known, lower⟩
  · rfl

/-- An ASSEMBLING entry of no lower precedence is no candidate of class 4. -/
theorem Entry.assemblingRank_eq_none {c : Settings} {key : Key} {category : Category} {e : Entry}
    (h : e.ofKey key = false → e.state = .assembling → ¬ e.ranksBelow c category) :
    e.assemblingRank c key category = none := by
  unfold Entry.assemblingRank
  split
  · next own known =>
    refine if_neg fun cond => ?_
    simp only [Bool.and_eq_true, beq_iff_eq, Bool.not_eq_true', decide_eq_true_eq] at cond
    obtain ⟨⟨assembling, lower⟩, other⟩ := cond
    exact h other assembling ⟨own, known, lower⟩
  · rfl

/-- The four steps of store pressure find no candidate where no CLOSED or OUTSIDE entry holds its body and no
ASSEMBLING entry of another key and lower precedence holds a slot (02 R41, R42). -/
theorem State.makeRoom_eq_none {s : State} {key : Key} {category : Category}
    (bodies : ∀ e ∈ s.table, e.state = .closed ∨ e.state = .outside → e.bodyHeld = false)
    (higher : ∀ e ∈ s.table, e.state = .assembling → e.ofKey key = false → e.slots ≠ [] →
      ¬ e.ranksBelow s.settings category) : s.makeRoom key category = none := by
  have step1 : s.leastEntry Entry.pressureRank1 = none := State.leastEntry_eq_none fun e held => by
    by_cases closed : e.state = .closed
    · simp [Entry.pressureRank1, bodies e held (.inl closed)]
    · simp [Entry.pressureRank1, closed]
  have step2 : s.leastEntry Entry.pressureRank2 = none := State.leastEntry_eq_none fun e held => by
    by_cases outside : e.state = .outside
    · simp [Entry.pressureRank2, bodies e held (.inr outside)]
    · simp [Entry.pressureRank2, outside]
  have step3 : s.leastEntry Entry.pressureRank3 = none := State.leastEntry_eq_none fun e held => by
    by_cases closed : e.state = .closed
    · simp [Entry.pressureRank3, bodies e held (.inl closed)]
    · simp [Entry.pressureRank3, Entry.isTombstone_eq_false closed]
  have step4 : s.leastEntry (Entry.pressureRank4 s.settings key category) = none :=
    State.leastEntry_eq_none fun e held => Entry.pressureRank4_eq_none (higher e held)
  simp only [State.makeRoom, step1, step2, step3, step4]

/-- With the free list empty and no room to be made, no slot is found (02 R41). -/
theorem State.findSlot_eq_none {s : State} {key : Key} {category : Category} (empty : s.free = [])
    (full : s.makeRoom key category = none) : s.findSlot key category = none := by
  simp [State.findSlot, State.popSlot, empty, full]

/-- The four classes of table pressure find no candidate for a fragment where no entry of another key is CLOSED,
OUTSIDE, or ASSEMBLING at lower precedence (01 R29). -/
theorem State.reclaimChoice_eq_none {s : State} {key : Key} {category : Category}
    (kept : ∀ e ∈ s.table, e.ofKey key = false → e.state ≠ .closed ∧ e.state ≠ .outside
      ∧ (e.state = .assembling → ¬ e.ranksBelow s.settings category)) :
    s.reclaimChoice key category false = none := by
  have class1 : s.huskChoice key false = none := by
    rw [State.huskChoice_fragment]
    refine State.leastEntry_eq_none fun e held => ?_
    cases other : e.ofKey key with
    | true => simp [Entry.huskRank, other]
    | false => simp [Entry.huskRank, Entry.isHusk_eq_false (kept e held other).1]
  have class2 : s.leastEntry (Entry.closedRank key) = none := State.leastEntry_eq_none fun e held => by
    cases other : e.ofKey key with
    | true => simp [Entry.closedRank, other]
    | false => simp [Entry.closedRank, (kept e held other).1]
  have class3 : s.leastEntry (Entry.outsideRank key) = none := State.leastEntry_eq_none fun e held => by
    cases other : e.ofKey key with
    | true => simp [Entry.outsideRank, other]
    | false => simp [Entry.outsideRank, (kept e held other).2.1]
  have class4 : s.leastEntry (Entry.assemblingRank s.settings key category) = none :=
    State.leastEntry_eq_none fun e held => Entry.assemblingRank_eq_none fun other => (kept e held other).2.2
  simp [State.reclaimChoice, class1, class2, class3, class4]

/-- With no entry FREE and none to reclaim, no entry is taken into use (01 R9, R29). -/
theorem State.takeEntry_eq_none {s : State} {issue : Issue} {total : Nat} {category : Category} {forOffer : Bool}
    (used : ∀ e ∈ s.table, e.state ≠ .free) (full : s.reclaimChoice issue.key category forOffer = none) :
    s.takeEntry issue total category forOffer = none := by
  have noneFree : s.findEntry (fun e => e.state == .free) = none :=
    List.findIdx?_eq_none_iff.mpr fun e held => by simp [used e held]
  simp only [State.takeEntry, noneFree, full]

/-! ### What each half of the statement comes to -/

section Dropped

variable {s : State} {source : Source} {sender : Word32} {record : List Byte} {f : Fragment}

/-- The decisions that drop a fragment at the ASSEMBLING entry of its key (02 R36). -/
theorem exec_arrival_dropped_by_entry (meet : s.Meets source sender record) (parsed : parseFragment record = some f)
    (admitted : s.Admits f) {i : Nat} (found : s.assemblingOf f.issue.key = some i) :
    (f.issue.revision.toNat < (s.entry i).revision →
      exec (arrival source sender record) s = .next ((s.arrived source).count .duplicate))
    ∧ ((s.entry i).issue = some f.issue → (s.entry i).provisional = false →
      ((s.entry i).total ≠ f.total ∨ (s.entry i).category ≠ some f.category →
        exec (arrival source sender record) s = .next ((s.arrived source).count .inconsistent))
      ∧ ((s.entry i).total = f.total → (s.entry i).category = some f.category →
        ((s.entry i).map.getD f.index none).isSome = true →
        exec (arrival source sender record) s = .next ((s.arrived source).count .duplicate))) := by
  have atEntry : (s.arrived source).intake source record = (s.arrived source).intakeAssembling source f i :=
    State.intake_of_assembling parsed (by simpa using admitted) (by simpa using found)
  rw [← s.arrived_entry source i]
  refine ⟨fun older => ?_, fun own settled => ⟨fun other => ?_, fun total category filled => ?_⟩⟩
  · exact exec_arrival meet (atEntry.trans (State.intakeAssembling_of_lower older)) rfl
  · exact exec_arrival meet (atEntry.trans (State.intakeAssembling_of_inconsistent own settled other)) rfl
  · exact exec_arrival meet (atEntry.trans (State.intakeAssembling_of_filled own settled total category filled)) rfl

/-- STORE_FULL: no slot is free, and store pressure finds no candidate (02 R41, R42). -/
theorem exec_arrival_storeFull (meet : s.Meets source sender record) (parsed : parseFragment record = some f)
    (takes : s.Takes f) (empty : s.free = [])
    (kept : ∀ e ∈ s.table, (e.state = .closed ∨ e.state = .outside → e.bodyHeld = false)
      ∧ (e.state = .assembling → e.ofKey f.issue.key = false → e.slots ≠ [] →
        ¬ e.ranksBelow s.settings f.category)) :
    exec (arrival source sender record) s = .next ((s.arrived source).flag .storeFull) := by
  have noRoom : (s.arrived source).makeRoom f.issue.key f.category = none :=
    State.makeRoom_eq_none (by simpa using fun e held => (kept e held).1)
      (by simpa using fun e held => (kept e held).2)
  have noSlot := State.findSlot_eq_none (by simpa using empty) noRoom
  exact exec_arrival meet (State.intake_of_no_slot parsed (by simpa using takes) noSlot) rfl

/-- TABLE_FULL: a slot is free, no entry is, and table pressure finds no candidate (01 R29). -/
theorem exec_arrival_tableFull (meet : s.Meets source sender record) (parsed : parseFragment record = some f)
    (admitted : s.Admits f) (unknown : s.assemblingOf f.issue.key = none) {slot : Nat} {rest : List Nat}
    (free : s.free = slot :: rest)
    (kept : ∀ e ∈ s.table, e.state ≠ .free ∧ (e.ofKey f.issue.key = false →
      e.state ≠ .closed ∧ e.state ≠ .outside ∧ (e.state = .assembling → ¬ e.ranksBelow s.settings f.category))) :
    exec (arrival source sender record) s
      = .next (((s.arrived source).withFree (rest ++ [slot])).flag .tableFull) := by
  have noEntry : ((s.arrived source).withFree rest).takeEntry f.issue f.total f.category false = none :=
    State.takeEntry_eq_none (by simpa using fun e held => (kept e held).1)
      (State.reclaimChoice_eq_none (by simpa using fun e held => (kept e held).2))
  exact exec_arrival meet (State.intake_of_no_entry parsed (by simpa using admitted) (by simpa using unknown)
    (by simpa using free) noEntry) rfl

end Dropped

/-- Settles O16: the record comes to Fragment Intake (`exec_arrival`), and there the first decision that applies drops
it. -/
theorem droppedFragmentCounted : Obligations.DroppedFragmentCounted := by
  unfold Obligations.DroppedFragmentCounted
  constructor
  · refine fun s source sender record meet => ⟨fun malformed => ?_, fun f parsed => ⟨fun stale => ?_, fun live => ?_,
      fun admitted i found => ?_⟩⟩
    · exact exec_arrival meet (State.intake_of_malformed malformed) rfl
    · exact exec_arrival meet (State.intake_of_stale parsed (by simpa using stale)) rfl
    · rintro ⟨e, held, key, complete, old⟩
      have duplicate : (s.arrived source).intake source record = (s.arrived source).count .duplicate :=
        State.intake_of_complete parsed (by simpa using live) (by simpa using held) key complete old
      exact exec_arrival meet duplicate rfl
    · exact exec_arrival_dropped_by_entry meet parsed admitted found
  · intro s source sender record f meet parsed admitted lower
    refine ⟨fun empty kept wanted => ?_, fun slot rest free unknown kept => ?_⟩
    · exact exec_arrival_storeFull meet parsed ⟨admitted, wanted⟩ empty kept
    · exact exec_arrival_tableFull meet parsed admitted unknown free kept

end Sys2Proof.Machine

/-! The channel station's arbiter and its two callers: a request to queue a frame, and the answer SENT (04 R78 to R84).
First the rules of the queues and of contention, then the two statements. -/

namespace Sys2Proof.Machine

/-! ### The queues (04 R78) -/

/-- What a queue holds reads the two queues alone. -/
@[simp] theorem Station.waiting_withContender (c : Station) (k : Option Contender) (q : Queue) :
    ({ c with contender := k } : Station).waiting q = c.waiting q := by cases q <;> rfl

@[simp] theorem Station.setWaiting_port (c : Station) (q : Queue) (l : List Payload) :
    (c.setWaiting q l).port = c.port := by cases q <;> rfl

@[simp] theorem Station.setWaiting_contender (c : Station) (q : Queue) (l : List Payload) :
    (c.setWaiting q l).contender = c.contender := by cases q <;> rfl

@[simp] theorem Station.setWaiting_inFlight (c : Station) (q : Queue) (l : List Payload) :
    (c.setWaiting q l).inFlight = c.inFlight := by cases q <;> rfl

@[simp] theorem Station.setWaiting_cw (c : Station) (q : Queue) (l : List Payload) :
    (c.setWaiting q l).cw = c.cw := by cases q <;> rfl

@[simp] theorem Station.waiting_setWaiting (c : Station) (q : Queue) (l : List Payload) :
    (c.setWaiting q l).waiting q = l := by cases q <;> rfl

/-! ### What contention leaves unchanged -/

/-- Two stations agree in all that contention and a hand-over do not touch: port, lines, tag, guard, CW and timeout
run (04 R82, R83). -/
structure Station.SameLine (c d : Station) : Prop where
  port : d.port = c.port
  ready : d.ready = c.ready
  busy : d.busy = c.busy
  tag : d.tag = c.tag
  tagMarked : d.tagMarked = c.tagMarked
  guardEnd : d.guardEnd = c.guardEnd
  cw : d.cw = c.cw
  timeoutRun : d.timeoutRun = c.timeoutRun

theorem Station.SameLine.refl (c : Station) : c.SameLine c := ⟨rfl, rfl, rfl, rfl, rfl, rfl, rfl, rfl⟩

theorem Station.SameLine.trans {c d e : Station} (h : c.SameLine d) (g : d.SameLine e) : c.SameLine e :=
  ⟨g.port.trans h.port, g.ready.trans h.ready, g.busy.trans h.busy, g.tag.trans h.tag,
    g.tagMarked.trans h.tagMarked, g.guardEnd.trans h.guardEnd, g.cw.trans h.cw, g.timeoutRun.trans h.timeoutRun⟩

/-- A contender comes or goes without touching the line. -/
theorem Station.SameLine.withContender (c : Station) (k : Option Contender) : c.SameLine { c with contender := k } :=
  ⟨rfl, rfl, rfl, rfl, rfl, rfl, rfl, rfl⟩

/-- A hand-over keeps the line. -/
theorem State.handOver_sameLine (s : State) (q : Queue) : s.cs.SameLine (s.handOver q).cs := by
  unfold State.handOver
  split
  · exact .withContender s.cs none
  · cases q <;> exact ⟨rfl, rfl, rfl, rfl, rfl, rfl, rfl, rfl⟩

/-- The contender goes, or nothing happens (04 R83). -/
theorem State.tryHandOver_cases (s : State) :
    s.tryHandOver = s ∨ ∃ k, s.cs.contender = some k ∧ s.tryHandOver = s.handOver k.queue := by
  unfold State.tryHandOver
  split
  · split
    · next k contender => exact .inr ⟨k, contender, rfl⟩
    · exact .inl rfl
  · exact .inl rfl

theorem State.tryHandOver_sameLine (s : State) : s.cs.SameLine s.tryHandOver.cs := by
  obtain stays | ⟨k, -, goes⟩ := s.tryHandOver_cases
  · rw [stays]; exact .refl _
  · rw [goes]; exact s.handOver_sameLine k.queue

theorem State.contend_sameLine (s : State) (q : Queue) : s.cs.SameLine (s.contend q).cs := by
  unfold State.contend
  refine Station.SameLine.trans ?_ (State.tryHandOver_sameLine _)
  exact .withContender s.cs _

/-- The arbiter keeps the line, whatever it chooses. -/
theorem State.arbitrate_sameLine (s : State) : s.cs.SameLine s.arbitrate.cs := by
  unfold State.arbitrate
  split
  · split
    · next q _ => exact s.contend_sameLine q
    · exact .refl _
  · exact .refl _

/-! ### What contention comes to -/

/-- The head of a queue that is handed over is in flight, not withdrawn, and no contender stands (04 R83). -/
theorem State.handOver_contends {s : State} {q : Queue} {p : Payload} {rest : List Payload}
    (head : s.cs.waiting q = p :: rest) : (s.handOver q).contends q p := by
  simp [State.contends, State.handOver, head]

/-- A contender that may go is handed over, and one that may not stands. -/
theorem State.tryHandOver_contends {s : State} {k : Contender} {p : Payload} {rest : List Payload}
    (contender : s.cs.contender = some k) (count : k.count < s.cs.cw) (flight : s.cs.inFlight = none)
    (head : s.cs.waiting k.queue = p :: rest) : s.tryHandOver.contends k.queue p := by
  obtain stays | ⟨k', contender', goes⟩ := s.tryHandOver_cases
  · rw [stays]
    exact .inl ⟨k, contender, rfl, count, flight, by simp [head]⟩
  · obtain rfl : k = k' := Option.some.inj (contender.symm.trans contender')
    rw [goes]
    exact State.handOver_contends head

/-- The head of a queue contends: the count drawn lies below CW (04 R82). -/
theorem State.contend_contends {s : State} {q : Queue} {p : Payload} {rest : List Payload}
    (flight : s.cs.inFlight = none) (window : 1 ≤ s.cs.cw) (head : s.cs.waiting q = p :: rest) :
    (s.contend q).contends q p := by
  have count : s.draw s.cs.cw < s.cs.cw := Nat.mod_lt _ window
  exact State.tryHandOver_contends (k := ⟨q, s.draw s.cs.cw, _⟩) rfl count flight (by simpa using head)

/-! ### The arbiter's choice (04 R82) -/

/-- After a control run of 4 the bulk queue is chosen, where a frame waits there. -/
theorem Station.choice_bulk_of_run {c : Station} (run : c.controlRun = 4) (bulk : c.bulk ≠ []) :
    c.choice = some .bulk := by simp [Station.choice, run, bulk]

/-- Otherwise the control queue goes before the bulk queue. -/
theorem Station.choice_control {c : Station} (noTurn : c.controlRun ≠ 4 ∨ c.bulk = []) (control : c.control ≠ []) :
    c.choice = some .control := by
  have noTurn : ¬ (c.controlRun = 4 ∧ c.bulk ≠ []) := by tauto
  simp [Station.choice, noTurn, control]

/-- With no control frame waiting, the bulk queue is chosen at any control run. -/
theorem Station.choice_bulk {c : Station} (control : c.control = []) (bulk : c.bulk ≠ []) : c.choice = some .bulk := by
  simp [Station.choice, control, bulk]

/-- While a contender stands or a frame is in flight the arbiter does nothing. -/
theorem State.arbitrate_of_occupied {s : State} (occupied : s.cs.contender ≠ none ∨ s.cs.inFlight ≠ none) :
    s.arbitrate = s := by
  unfold State.arbitrate
  exact if_neg fun ⟨_, flight, contender⟩ => occupied.elim (· contender) (· flight)

/-- With the port UP, no frame in flight and no contender, the head of the chosen queue contends. -/
theorem State.arbitrate_contends {s : State} {q : Queue} {p : Payload} (up : s.cs.port = .up)
    (flight : s.cs.inFlight = none) (contender : s.cs.contender = none) (window : 1 ≤ s.cs.cw)
    (choice : s.cs.choice = some q) (head : (s.cs.waiting q).head? = some p) : s.arbitrate.contends q p := by
  obtain ⟨rest, head⟩ := List.head?_eq_some_iff.mp head
  have chosen : s.arbitrate = s.contend q := by simp [State.arbitrate, up, flight, contender, choice]
  rw [chosen]
  exact State.contend_contends flight window head

/-! ### The request to queue a frame (04 R79) -/

section Request

variable {s : State} {p : Payload}

/-- Without the channel a request is refused, and nothing is counted. -/
theorem State.request_of_unavailable (down : s.cs.port ≠ .up) : s.request p = s := by
  simp [State.request, State.answerTo, down]

/-- A frame of the request's identity waits: the two are merged in place, whether or not the queue has room. -/
theorem State.request_of_waiting (up : s.cs.port = .up)
    (waits : ∃ w ∈ s.cs.waiting p.queue, w.sameIdentity p = true) :
    s.request p = s.withCs (s.cs.setWaiting p.queue
      ((s.cs.waiting p.queue).map fun w => if w.sameIdentity p then w.merge p else w)) := by
  have answer : s.answerTo p = .merged := by simp [State.answerTo, up, waits]
  simp only [State.request, answer]

/-- No frame of the request's identity waits, in the words of the model's test. -/
theorem any_sameIdentity_eq_false {waiting : List Payload} (others : ∀ w ∈ waiting, w.sameIdentity p = false) :
    (waiting.any fun w => w.sameIdentity p) = false := by simpa using others

/-- A full queue refuses the frame, and the refusal is counted. -/
theorem State.request_of_full (up : s.cs.port = .up)
    (others : ∀ w ∈ s.cs.waiting p.queue, w.sameIdentity p = false)
    (full : s.cs.room p.queue ≤ (s.cs.waiting p.queue).length) : s.request p = s.count .queueFull := by
  have answer : s.answerTo p = .full := by simp [State.answerTo, up, any_sameIdentity_eq_false others, full]
  simp only [State.request, answer]

/-- Where there is room the frame joins the tail of its queue, and the arbiter looks (04 R79, R82). -/
theorem State.request_of_room (up : s.cs.port = .up)
    (others : ∀ w ∈ s.cs.waiting p.queue, w.sameIdentity p = false)
    (room : (s.cs.waiting p.queue).length < s.cs.room p.queue) :
    s.request p = (s.withCs (s.cs.setWaiting p.queue (s.cs.waiting p.queue ++ [p]))).arbitrate := by
  have answer : s.answerTo p = .queued := by
    simp [State.answerTo, up, any_sameIdentity_eq_false others, Nat.not_le.mpr room]
  simp only [State.request, answer]

/-- A frame alone in empty queues is the arbiter's choice. -/
theorem Station.choice_of_only {c : Station} (control : c.control = []) (bulk : c.bulk = []) (q : Queue) :
    (c.setWaiting q (c.waiting q ++ [p])).choice = some q := by
  cases q with
  | control => exact Station.choice_control (.inr bulk) (by simp [Station.setWaiting])
  | bulk => exact Station.choice_bulk control (by simp [Station.setWaiting])

/-- A frame queued into an empty channel is at once the contender (04 R82). -/
theorem State.request_contends (up : s.cs.port = .up)
    (others : ∀ w ∈ s.cs.waiting p.queue, w.sameIdentity p = false)
    (room : (s.cs.waiting p.queue).length < s.cs.room p.queue) (contender : s.cs.contender = none)
    (flight : s.cs.inFlight = none) (control : s.cs.control = []) (bulk : s.cs.bulk = []) (window : 1 ≤ s.cs.cw) :
    (s.request p).contends p.queue p := by
  have empty : s.cs.waiting p.queue = [] := by
    cases p.queue with
    | control => exact control
    | bulk => exact bulk
  rw [State.request_of_room up others room]
  exact State.arbitrate_contends (by simpa using up) (by simpa using flight) (by simpa using contender)
    (by simpa using window) (Station.choice_of_only control bulk p.queue) (by simp [empty])

/-- A frame that is neither a WANT nor a PIECE takes the place of the waiting frame of its identity: frames of one
identity are of one kind. -/
theorem Payload.merge_eq_new {w : Payload} (same : w.sameIdentity p = true) (notWant : p.kind ≠ .want)
    (notPiece : p.kind ≠ .piece) : w.merge p = p := by
  cases w with
  | want issue m =>
    cases p with
    | want => exact absurd rfl notWant
    | _ => cases same
  | piece issue k r =>
    cases p with
    | piece => exact absurd rfl notPiece
    | _ => cases same
  | _ => rfl

end Request

/-- Settles O37: one rule of `State.request` for each of CS's answers, and the merge read off its equations. -/
theorem requestIsQueuedOrMerged : Obligations.RequestIsQueuedOrMerged := by
  unfold Obligations.RequestIsQueuedOrMerged
  refine fun s p => ⟨State.request_of_unavailable,
    fun up => ⟨State.request_of_waiting up, fun others => ⟨State.request_of_full up others, fun room => ⟨?_, ?_⟩⟩⟩,
    fun _ _ _ => rfl, fun _ _ _ => rfl, fun _ => Payload.merge_eq_new⟩
  · intro occupied
    rw [State.request_of_room up others room]
    exact State.arbitrate_of_occupied (by simpa using occupied)
  · exact State.request_contends up others room

/-! ### The answer SENT (04 R84) -/

/-- The state in which the arbiter meets the end of a frame that was sent: counted, the timeout run and CW at their
starts, and the asking block told (04 R84). -/
def State.frameSent (s : State) (f : InFlight) : State :=
  ((s.count .framesSent).withCs
    { s.cs with inFlight := none, timeoutRun := 0, cw := s.settings.cwMin }).tellSent f.payload

/-- With no frame in flight, or while the guard runs, an answer answers no frame (04 R67, R70). -/
theorem Station.answered_eq_none {c : Station} (h : c.inFlight = none ∨ c.guardEnd ≠ none) : c.answered = none := by
  unfold Station.answered
  split
  · rfl
  · next guard => exact h.resolve_right (· guard)

theorem exec_sent_of_unanswered {s : State} (unanswered : s.cs.answered = none) : exec .sent s = .next s := by
  simp only [exec, execSent, unanswered]

theorem exec_lost_of_unanswered {s : State} (unanswered : s.cs.answered = none) : exec .lost s = .next s := by
  simp only [exec, execLost, unanswered]

/-- SENT for a frame in flight ends it, and the arbiter looks. -/
theorem exec_sent {s : State} {f : InFlight} (flight : s.cs.inFlight = some f) (guard : s.cs.guardEnd = none) :
    exec .sent s = .next (s.frameSent f).arbitrate := by
  have answered : s.cs.answered = some f := by simp [Station.answered, guard, flight]
  simp only [exec, execSent, answered, State.frameSent]

/-- The ASSEMBLING entry of the issuance notes the time at which its WANT went out, and restarts its gap-fill timer
(05 R101). -/
theorem State.wantSent_table {s : State} {issue : Issue} {i : Nat}
    (found : s.findEntry (fun e => e.state == .assembling && e.ofIssue issue) = some i) :
    (s.wantSent issue).table = s.table.set i { s.entry i with want := (s.entry i).want.map fun _ =>
      ⟨s.now + s.settings.gapFillDelay * 1000, some s.now⟩ } := by
  simp only [State.wantSent, found]
  rfl

section Sent

variable (s : State) (f : InFlight)

@[simp] theorem State.frameSent_cs :
    (s.frameSent f).cs = { s.cs with inFlight := none, timeoutRun := 0, cw := s.settings.cwMin } :=
  State.tellSent_frame _ f.payload .cs (by decide)

@[simp] theorem State.frameSent_counters :
    (s.frameSent f).counters = { s.counters with framesSent := bump s.counters.framesSent } :=
  State.tellSent_frame _ f.payload .counters (by decide)

theorem State.frameSent_frame : s.onlyChanges [.table, .cs, .counters] (s.frameSent f) := by
  simp [State.frameSent, State.count]

/-- Only a WANT's end reaches the Alert Table (05 R101). -/
theorem State.frameSent_table_of_not_want (notWant : f.payload.kind ≠ .want) : (s.frameSent f).table = s.table := by
  unfold State.frameSent
  cases payload : f.payload with
  | want issue wanted => exact absurd (by rw [payload]; rfl) notWant
  | _ => rfl

/-- A WANT's end reaches the ASSEMBLING entry whose WANT it was. -/
theorem State.frameSent_table_of_want {issue : Issue} {wanted : Word16} {i : Nat}
    (want : f.payload = .want issue wanted)
    (found : s.findEntry (fun e => e.state == .assembling && e.ofIssue issue) = some i) :
    (s.frameSent f).table = s.table.set i { s.entry i with want := (s.entry i).want.map fun _ =>
      ⟨s.now + s.settings.gapFillDelay * 1000, some s.now⟩ } := by
  simp only [State.frameSent, want, State.tellSent]
  exact State.wantSent_table found

variable {s f}

/-- After the end of a frame, with the port UP, the head of the queue that the arbiter chooses contends under CWmin. -/
theorem State.frameSent_contends {q : Queue} {p : Payload} (up : s.cs.port = .up) (contender : s.cs.contender = none)
    (window : 1 ≤ s.settings.cwMin) (choice : (s.frameSent f).cs.choice = some q)
    (head : ((s.frameSent f).cs.waiting q).head? = some p) : (s.frameSent f).arbitrate.contends q p :=
  State.arbitrate_contends (by simpa using up) (by simp) (by simpa using contender) (by simpa using window) choice head

/-- With both queues empty the part is left with no frame in flight and no contender. -/
theorem State.frameSent_rests (contender : s.cs.contender = none) (control : s.cs.control = [])
    (bulk : s.cs.bulk = []) :
    (s.frameSent f).arbitrate.cs.inFlight = none ∧ (s.frameSent f).arbitrate.cs.contender = none := by
  have rests : (s.frameSent f).ArbiterRests := fun _ _ _ => by simp [control, bulk]
  simp [State.arbitrate_of_rests rests, contender]

end Sent

/-- Settles O32: SENT is `State.frameSent`, and then the arbiter, of which only the choice is left to say. -/
theorem sentEndsFrame : Obligations.SentEndsFrame := by
  unfold Obligations.SentEndsFrame
  refine fun s => ⟨fun unanswered => ?_, fun f flight guard contender window => ?_⟩
  · have unanswered := Station.answered_eq_none unanswered
    exact ⟨exec_sent_of_unanswered unanswered, exec_lost_of_unanswered unanswered⟩
  have line := (s.frameSent f).arbitrate_sameLine
  have frame := (s.frameSent f).arbitrate_frame
  have table : (s.frameSent f).arbitrate.table = (s.frameSent f).table := frame .table (by decide)
  have waits {l : List Payload} {p : Payload} (head : l.head? = some p) : l ≠ [] := by rintro rfl; cases head
  refine ⟨_, exec_sent flight guard, (frame .counters (by decide)).trans (s.frameSent_counters f),
    by simp [line.timeoutRun], by simp [line.cw], by simp [line.port], by simp [line.tag],
    by simp [line.guardEnd, guard], (s.frameSent_frame f |>.mono (by decide)).step frame (by decide),
    State.frameSent_rests contender, fun p up run head => ?_, fun p up noTurn head => ?_,
    fun p up control head => ?_, fun notWant => table.trans (s.frameSent_table_of_not_want f notWant),
    fun issue wanted i want found => table.trans (s.frameSent_table_of_want f want found)⟩
  · exact State.frameSent_contends up contender window
      (Station.choice_bulk_of_run (by simpa using run) (by simpa using waits head))
      (by simpa [Station.waiting] using head)
  · exact State.frameSent_contends up contender window
      (Station.choice_control (by simpa using noTurn) (by simpa using waits head))
      (by simpa [Station.waiting] using head)
  · exact State.frameSent_contends up contender window
      (Station.choice_bulk (by simpa using control) (by simpa using waits head))
      (by simpa [Station.waiting] using head)

end Sys2Proof.Machine

/-! The relay timers of an entry: offer point, offer interval and gap-fill timer (05 R91, R92, R103).  The one idea is
that a request to CS neither reads the Alert Table nor moves the clock, so that asking for a WANT and restarting the
timer may be taken in either order. -/

namespace Sys2Proof.Machine

/-! ### A request to CS and the Alert Table (04 R79 to R83) -/

theorem State.handOver_withTable (s : State) (x : List Entry) (q : Queue) :
    (s.withTable x).handOver q = (s.handOver q).withTable x := by
  simp only [State.handOver, State.withTable_cs]
  split <;> rfl

theorem State.tryHandOver_withTable (s : State) (x : List Entry) :
    (s.withTable x).tryHandOver = s.tryHandOver.withTable x := by
  unfold State.tryHandOver
  split
  · next goes =>
    rw [if_pos (c := s.cs.mayGo = true) goes]
    simp only [State.withTable_cs]
    split
    · exact s.handOver_withTable x _
    · rfl
  · next stays => rw [if_neg (c := s.cs.mayGo = true) stays]

theorem State.contend_withTable (s : State) (x : List Entry) (q : Queue) :
    (s.withTable x).contend q = (s.contend q).withTable x :=
  State.tryHandOver_withTable (s.drew.withCs _) x

theorem State.arbitrate_withTable (s : State) (x : List Entry) :
    (s.withTable x).arbitrate = s.arbitrate.withTable x := by
  unfold State.arbitrate
  split
  · next free =>
    rw [if_pos (c := s.cs.port = .up ∧ s.cs.inFlight = none ∧ s.cs.contender = none) free]
    simp only [State.withTable_cs]
    split
    · exact s.contend_withTable x _
    · rfl
  · next occupied =>
    rw [if_neg (c := s.cs.port = .up ∧ s.cs.inFlight = none ∧ s.cs.contender = none) occupied]

/-- CS does not read the Alert Table. -/
theorem State.request_withTable (s : State) (x : List Entry) (p : Payload) :
    (s.withTable x).request p = (s.request p).withTable x := by
  have answer : (s.withTable x).answerTo p = s.answerTo p := rfl
  simp only [State.request, answer]
  split
  · rfl
  · rfl
  · rfl
  · exact State.arbitrate_withTable (s.withCs _) x

@[simp] theorem State.request_table (s : State) (p : Payload) : (s.request p).table = s.table :=
  s.request_frame p .table (by decide)

@[simp] theorem State.request_settings (s : State) (p : Payload) : (s.request p).settings = s.settings :=
  s.request_frame p .settings (by decide)

@[simp] theorem State.request_entry (s : State) (p : Payload) (i : Nat) : (s.request p).entry i = s.entry i := by
  simp only [State.entry, State.request_table]

/-- CS writes nothing but its own parts: an entry may be replaced before the request as well as after it. -/
theorem State.request_setEntry (s : State) (p : Payload) (i : Nat) (e : Entry) :
    (s.request p).setEntry i e = (s.setEntry i e).request p := by
  simp only [State.setEntry, State.request_table, State.request_withTable]

/-! ### A request to CS and the clock -/

/-- A draw takes no time. -/
theorem State.contend_now (s : State) (q : Queue) : (s.contend q).now = s.now := by
  have clock : (s.contend q).tb = s.tb.afterDraw := State.tryHandOver_frame (s.drew.withCs _) .tb (by decide)
  rw [State.now, clock]
  rfl

theorem State.arbitrate_now (s : State) : s.arbitrate.now = s.now := by
  unfold State.arbitrate
  split
  · split
    · exact s.contend_now _
    · rfl
  · rfl

@[simp] theorem State.request_now (s : State) (p : Payload) : (s.request p).now = s.now := by
  unfold State.request
  split
  · rfl
  · rfl
  · rfl
  · exact State.arbitrate_now (s.withCs _)

/-! ### The entry at its timers -/

theorem State.entry_setEntry {s : State} {i : Nat} (inTable : i < s.table.length) (e : Entry) :
    (s.setEntry i e).entry i = e := by
  simp [State.entry, State.setEntry, inTable]

@[simp] theorem State.runTo_entry (s : State) (t i : Nat) : (s.runTo t).entry i = s.entry i := rfl

/-- The first `n` positions that pass a test, gathered one bit after another, are those bits below the word's width. -/
theorem getLsbD_foldl_bits (test : Nat → Prop) [DecidablePred test] (n k : Nat) :
    ((List.range n).foldl (fun w j => if test j then w ||| (1#16 <<< j) else w) 0#16).getLsbD k = true
      ↔ k < 16 ∧ k < n ∧ test k := by
  induction n with
  | zero => simp
  | succ n ih =>
    rw [List.range_succ, List.foldl_append, List.foldl_cons, List.foldl_nil]
    by_cases last : test n
    · have bit : (1#16 <<< n).getLsbD k = true ↔ k < 16 ∧ k = n := by
        simp only [BitVec.getLsbD_shiftLeft, BitVec.getLsbD_one, Bool.and_eq_true, Bool.not_eq_true',
          decide_eq_true_eq, decide_eq_false_iff_not]
        omega
      rw [if_pos last, BitVec.getLsbD_or, Bool.or_eq_true, ih, bit]
      grind
    · rw [if_neg last, ih]
      grind

/-- The wanted-index map names the positions below the total that are empty (05 R97). -/
theorem Entry.missing_getLsbD (e : Entry) (k : Nat) :
    e.missing.getLsbD k = true ↔ k < 16 ∧ k < e.total ∧ e.map.getD k none = none := by
  have bits := getLsbD_foldl_bits (fun j => j < e.total ∧ (e.map.getD j none).isNone) 16 k
  rw [Option.isNone_iff_eq_none] at bits
  exact bits.trans (by tauto)

/-! ### The offer point (05 R91) -/

theorem State.requestOffer_eq {s : State} {i : Nat} {issue : Issue} {category : Category}
    (issued : (s.entry i).issue = some issue) (categorised : (s.entry i).category = some category) :
    s.requestOffer i = s.request (.offer issue (s.entry i).total category) := by
  simp only [State.requestOffer, issued, categorised]

/-- At the offer point the interval's point is passed, and an OFFER is asked for where fewer than k were heard. -/
theorem State.reachPoint_eq {s : State} {i : Nat} {r : OfferRecord} {issue : Issue} {category : Category}
    (inTable : i < s.table.length) (issued : (s.entry i).issue = some issue)
    (categorised : (s.entry i).category = some category) :
    s.reachPoint i r =
      let passed := s.setEntry i { s.entry i with offer := some { r with pointPassed := true } }
      if r.heard < s.settings.redundancy then passed.request (.offer issue (s.entry i).total category) else passed := by
  have entry := State.entry_setEntry inTable { s.entry i with offer := some { r with pointPassed := true } }
  have asked := State.requestOffer_eq ((congrArg Entry.issue entry).trans issued)
    ((congrArg Entry.category entry).trans categorised)
  rw [entry] at asked
  simp only [State.reachPoint, State.modEntry, asked]

theorem exec_offerPoint {s : State} {i : Nat} {r : OfferRecord} (offer : (s.entry i).offer = some r)
    (ahead : r.pointPassed = false) (counted : r.start + r.point ≤ lastMs) :
    exec (.offerPoint i) s = .next ((s.runTo (r.start + r.point)).reachPoint i r) := by
  simp only [exec, execOfferPoint, offer, ahead, s.runsOut_eq _ counted]
  rfl

theorem exec_offerPoint_of_none {s : State} {i : Nat} (noOffer : (s.entry i).offer = none) :
    exec (.offerPoint i) s = .next s := by
  simp only [exec, execOfferPoint, noOffer]

/-! ### The offer interval (05 R90, R92) -/

/-- The offer record of an interval that begins at the state's moment, its point drawn in the second half. -/
def State.freshOffer (s : State) (interval : Nat) : OfferRecord where
  interval := interval
  start := s.now
  point := interval * 500 + s.draw (interval * 500)
  pointPassed := false
  heard := 0

theorem State.beginInterval_eq (s : State) (i interval : Nat) :
    s.beginInterval i interval = s.drew.setEntry i { s.entry i with offer := some (s.freshOffer interval) } := rfl

/-- The point lies in the second half of an interval that has one. -/
theorem State.freshOffer_point (s : State) {interval : Nat} (long : 1 ≤ interval) :
    interval * 500 ≤ (s.freshOffer interval).point ∧ (s.freshOffer interval).point < interval * 1000 := by
  have drawn : s.draw (interval * 500) < interval * 500 := Nat.mod_lt _ (by omega)
  simp only [State.freshOffer]
  omega

theorem exec_offerIntervalEnd {s : State} {i : Nat} {r : OfferRecord} (offer : (s.entry i).offer = some r)
    (counted : r.start + r.interval * 1000 ≤ lastMs) :
    exec (.offerIntervalEnd i) s = .next ((s.runTo (r.start + r.interval * 1000)).beginInterval i
      (nextInterval r.interval s.settings.offerMax)) := by
  simp only [exec, execOfferIntervalEnd, offer, s.runsOut_eq _ counted, State.runTo_settings]

theorem exec_offerIntervalEnd_of_none {s : State} {i : Nat} (noOffer : (s.entry i).offer = none) :
    exec (.offerIntervalEnd i) s = .next s := by
  simp only [exec, execOfferIntervalEnd, noOffer]

/-! ### The gap-fill timer (05 R103) -/

/-- A WANT asked for and the timer restarted after it: the timer counts from the same moment, and the request is the
one the entry would make once its timer has been restarted. -/
theorem State.restartGap_requestWant {s : State} {i : Nat} {w : WantRecord} {issue : Issue}
    (want : (s.entry i).want = some w) (issued : (s.entry i).issue = some issue) :
    (s.requestWant i).restartGap i
      = (s.setEntry i { s.entry i with
          want := some { w with gapEnd := s.now + s.settings.gapFillDelay * 1000 } }).request
            (.want issue (s.entry i).missing) := by
  have asked : s.requestWant i = s.request (.want issue (s.entry i).missing) := by
    simp only [State.requestWant, issued]
  rw [asked, ← State.request_setEntry]
  simp only [State.restartGap, State.modEntry, State.gapEnd, State.request_entry, State.request_now,
    State.request_settings, want, Option.map_some]

theorem exec_gapFillTimerEnd {s : State} {i : Nat} {w : WantRecord} (assembling : (s.entry i).state = .assembling)
    (want : (s.entry i).want = some w) (counted : w.gapEnd ≤ lastMs) :
    exec (.gapFillTimerEnd i) s = .next (((s.runTo w.gapEnd).requestWant i).restartGap i) := by
  simp only [exec, execGapFillTimerEnd, assembling, want, s.runsOut_eq _ counted]

/-- Outside ASSEMBLING, or with no want record, no gap-fill timer runs. -/
theorem exec_gapFillTimerEnd_of_idle {s : State} {i : Nat}
    (idle : (s.entry i).want = none ∨ (s.entry i).state ≠ .assembling) : exec (.gapFillTimerEnd i) s = .next s := by
  simp only [exec, execGapFillTimerEnd]
  split
  · next assembling want =>
    obtain noWant | notAssembling := idle
    · cases noWant.symm.trans want
    · exact absurd assembling notAssembling
  · rfl

/-- Settles O48: each timer's command is one rule above, taken at the timer's own moment. -/
theorem relayTimersRun : Obligations.RelayTimersRun := by
  unfold Obligations.RelayTimersRun
  refine fun s i inTable => ⟨fun r issue category offer ahead counted issued categorised => ?_,
    fun r offer counted => ?_, fun w issue assembling want counted issued => ?_, (s.entry i).missing_getLsbD,
    fun noOffer => ⟨exec_offerPoint_of_none noOffer, exec_offerIntervalEnd_of_none noOffer⟩,
    exec_gapFillTimerEnd_of_idle⟩
  · exact (exec_offerPoint offer ahead counted).trans (congrArg Host.Outcome.next
      (State.reachPoint_eq (s := s.runTo _) inTable issued categorised))
  · exact ⟨(s.runTo _).freshOffer _, exec_offerIntervalEnd offer counted, rfl, rfl, rfl, rfl,
      fun long => State.freshOffer_point _ long⟩
  · exact (exec_gapFillTimerEnd assembling want counted).trans (congrArg Host.Outcome.next
      (State.restartGap_requestWant (s := s.runTo _) want issued))

end Sys2Proof.Machine

/-! COVERED and YIELD heard (06 R122, R123).  First the two bodies read back and the frame delivered, then what the
Report Unit does with a tally: the delay it draws, the deferred item it is given to, its settling; last the covered
levels. -/

namespace Sys2Proof.Machine

/-! ### The bodies read back (06 R130, 11.3) -/

theorem parseIssue_bytes_append {issue : Issue} (origin : issue.key.origin ≠ 0) (rest : List Byte) :
    parseIssue (issue.bytes ++ rest) = some issue := by
  have upper : (0#4 ++ issue.revision).extractLsb' 4 4 = 0#4 := BitVec.extractLsb'_append_eq_left
  have lower : (0#4 ++ issue.revision).extractLsb' 0 4 = issue.revision := BitVec.extractLsb'_append_eq_right
  simp only [Issue.bytes, bytes16, bytes24, List.cons_append, List.nil_append, parseIssue, word16_of_bytes,
    word24_of_bytes, upper, lower, origin, ne_eq, not_false_eq_true, and_self, if_true]

theorem parseIssue_bytes {issue : Issue} (origin : issue.key.origin ≠ 0) : parseIssue issue.bytes = some issue := by
  simpa using parseIssue_bytes_append origin []

theorem parseTags_flatMap_bytes32 {tags : List Word32} (good : ∀ x ∈ tags, tagGood x = true) :
    parseTags (tags.flatMap bytes32) = some tags := by
  induction tags with
  | nil => rfl
  | cons tag tags ih =>
    have rest := ih fun x held => good x (List.mem_cons_of_mem tag held)
    simp only [List.flatMap_cons, bytes32, List.cons_append, List.nil_append, parseTags, rest, word32_of_bytes,
      good tag List.mem_cons_self, if_true]

theorem Level.ofStatus_code {level : Level} (sent : level ≠ .none) : Level.ofStatus level.code = some level := by
  cases level with
  | none => exact absurd rfl sent
  | receipt => rfl
  | ack => rfl

theorem parseCovered_body {issue : Issue} {level : Level} {tags : List Word32} (part : Nat)
    (origin : issue.key.origin ≠ 0) (sent : level ≠ .none) (good : ∀ x ∈ tags, tagGood x = true) :
    parseCovered (Payload.covered issue level part tags).body = some (issue, level, tags) := by
  have head : parseIssue (Payload.covered issue level part tags).body = some issue := by
    simp only [Payload.body, List.append_assoc]
    exact parseIssue_bytes_append origin _
  have status : (Payload.covered issue level part tags).body.getD 6 0 = level.code := rfl
  have named : (Payload.covered issue level part tags).body.drop 8 = tags.flatMap bytes32 := rfl
  simp only [parseCovered, head, status, named, Level.ofStatus_code sent, parseTags_flatMap_bytes32 good]

/-! ### The frame delivered (04 R74, R76, R77) -/

/-- A frame that the part hears passes the filter and is delivered by its kind. -/
theorem State.hearFrame_of_hears {s : State} {kind : FrameKind} {sender : Word32} {body : List Byte}
    (h : s.Hears kind sender body) : s.hearFrame kind sender body = s.deliver kind sender body := by
  have taken := State.takeFrame_of_hears h
  obtain ⟨port, bodyOk, tagOk, -, -⟩ := h
  simp only [State.hearFrame, State.receive, port, if_false, parseFrame_frameBytes kind sender body bodyOk tagOk, taken]

theorem exec_covered {s : State} {sender : Word32} {issue : Issue} {level : Level} {part : Nat} {tags : List Word32}
    (hears : s.Hears .covered sender (Payload.covered issue level part tags).body) (origin : issue.key.origin ≠ 0)
    (sent : level ≠ .none) (good : ∀ x ∈ tags, tagGood x = true) :
    exec (.covered sender (Payload.covered issue level part tags).body) s
      = .next (s.heardCovered issue level tags) := by
  simp only [exec, execCovered, State.hearFrame_of_hears hears, State.deliver, State.hearCovered,
    parseCovered_body part origin sent good]

theorem exec_yield {s : State} {sender : Word32} {issue : Issue}
    (hears : s.Hears .yield sender (Payload.yield issue).body) (origin : issue.key.origin ≠ 0) :
    exec (.yield sender (Payload.yield issue).body) s = .next (s.heardYield sender issue) := by
  have parsed : parseIssue (Payload.yield issue).body = some issue := parseIssue_bytes origin
  simp only [exec, execYield, State.hearFrame_of_hears hears, State.deliver, State.hearYield, parsed]

/-! ### The pool (06 R108) -/

theorem State.inPool_of_tally {s : State} {k : Nat} {y : Tally} (h : s.tally k = some y) :
    k < s.ru.tallies.length := by
  by_contra beyond
  simp [State.tally, List.getD_eq_getElem?_getD, List.getElem?_eq_none (Nat.le_of_not_lt beyond)] at h

theorem State.tally_setTally {s : State} {k : Nat} (inPool : k < s.ru.tallies.length) (y : Option Tally) :
    (s.setTally k y).tally k = y := by
  simp [State.tally, State.setTally, inPool]

@[simp] theorem State.setTally_deferred (s : State) (k : Nat) (y : Option Tally) :
    (s.setTally k y).ru.deferred = s.ru.deferred := rfl

@[simp] theorem State.setTally_setTally (s : State) (k : Nat) (x y : Option Tally) :
    (s.setTally k x).setTally k y = s.setTally k y := by
  simp [State.setTally, State.withRu]

/-! ### WAITING and its report delay (06 R113, R114) -/

theorem State.reportDelay_delays (s : State) (failures : Nat) : s.delays failures (s.reportDelay failures) := by
  have drawn : s.draw (s.settings.reportSpread * 1000 + 1) < s.settings.reportSpread * 1000 + 1 :=
    Nat.mod_lt _ (Nat.succ_pos _)
  unfold State.delays State.reportDelay
  omega

theorem State.enterWaiting_eq {s : State} {k : Nat} {y : Tally} (h : s.tally k = some y) :
    s.enterWaiting k = s.drew.setTally k (some { y with
      state := .waiting, reporter := none, settleTime := none, digest := []
      timer := some (s.now + s.reportDelay y.failures), bid := min 65535 (s.reportDelay y.failures / 10) }) := by
  simp only [State.enterWaiting, h, bidOf]

/-- A tally that enters WAITING waits for a delay drawn by its failure count. -/
theorem State.enterWaiting_waitsAgain {s : State} {k : Nat} {y : Tally} (h : s.tally k = some y) :
    s.waitsAgain (s.enterWaiting k) k y :=
  ⟨s.reportDelay y.failures, s.reportDelay_delays y.failures, State.enterWaiting_eq h⟩

/-- A tally that is taken begins anew, whatever the tally of its number held before (06 R110). -/
theorem State.takeTally_eq {s : State} {k : Nat} (inPool : k < s.ru.tallies.length) (issue : Issue) (level : Level) :
    s.takeTally k issue level
      = s.drew.setTally k (some (begunTally issue s.cs.tag level s.now (s.reportDelay 0))) := by
  have fresh := s.tally_setTally inPool (some (freshTally issue s.cs.tag level))
  exact (State.enterWaiting_eq fresh).trans (s.drew.setTally_setTally k _ _)

/-! ### The deferred item chosen (06 R112) -/

/-- An element before the one that `leastFrom` finds has no rank as low. -/
theorem leastFrom_first {α : Type} {rank : α → Option (Nat × Nat)} {xs : List α} {n i : Nat} {k : Nat × Nat}
    (h : leastFrom rank n xs = some (i, k)) {m : Nat} {x : α} {l : Nat × Nat} (place : xs[m]? = some x)
    (before : n + m < i) (ranked : rank x = some l) : rankLess k l = true := by
  induction xs generalizing n m with
  | nil => cases place
  | cons a as ih =>
    have later {m : Nat} (found : leastFrom rank (n + 1) as = some (i, k)) (place : as[m]? = some x)
        (before : n + (m + 1) < i) : rankLess k l = true := ih found place (by omega)
    unfold leastFrom at h
    cases head : rank a with
    | none =>
      simp only [head] at h
      cases m with
      | zero => cases place; cases head.symm.trans ranked
      | succ m => exact later h (by simpa using place) before
    | some ka =>
      simp only [head] at h
      cases rest : leastFrom rank (n + 1) as with
      | none => simp only [rest, Option.some.injEq, Prod.mk.injEq] at h; omega
      | some found =>
        simp only [rest] at h
        split at h
        · next less =>
          obtain rfl : found = (i, k) := Option.some.inj h
          cases m with
          | zero =>
            cases place
            obtain rfl : ka = l := Option.some.inj (head.symm.trans ranked)
            exact less
          | succ m => exact later rest (by simpa using place) before
        · simp only [Option.some.injEq, Prod.mk.injEq] at h; omega

/-- The deferred item chosen is of the highest precedence, and the earliest of those.  A precedence above 7, which no
setting gives, would rank as 7. -/
theorem State.deferredChoice_some {s : State} {n : Nat} (h : s.deferredChoice = some n)
    (bounded : ∀ d ∈ s.ru.deferred, d.precedence ≤ 7) :
    ∃ d, s.ru.deferred[n]? = some d ∧ ∀ m x, s.ru.deferred[m]? = some x →
      x.precedence < d.precedence ∨ (x.precedence = d.precedence ∧ n ≤ m) := by
  obtain ⟨⟨i, rank⟩, found, rfl⟩ := Option.map_eq_some_iff.mp h
  obtain ⟨⟨j, d, place, item, ranked⟩, least⟩ := leastFrom_some found
  obtain rfl : i = j := by omega
  obtain rfl : (7 - d.precedence, 0) = rank := Option.some.inj ranked
  refine ⟨d, item, fun m x place => ?_⟩
  have dBound := bounded d (List.mem_of_getElem? item)
  have xBound := bounded x (List.mem_of_getElem? place)
  have notLess : ¬ 7 - x.precedence < 7 - d.precedence := by
    simpa [rankLess] using least x (List.mem_of_getElem? place) _ rfl
  by_cases before : m < i
  · have less : 7 - d.precedence < 7 - x.precedence := by
      simpa [rankLess] using leastFrom_first found place (by omega) rfl
    omega
  · omega

/-- With an item deferred, one is chosen. -/
theorem State.deferredChoice_ne_none {s : State} (items : s.ru.deferred ≠ []) : s.deferredChoice ≠ none := by
  obtain ⟨d, held⟩ := List.exists_mem_of_ne_nil _ items
  simpa [State.deferredChoice] using leastFrom_ne_none held rfl

/-! ### A tally freed, and settled (06 R129, R134) -/

/-- The state with tally `k` free and out of the uplink queue, before the deferred list is looked at (06 R108). -/
def State.withoutTally (s : State) (k : Nat) : State :=
  s.withRu { s.ru with tallies := s.ru.tallies.set k none, uplinkQueue := s.ru.uplinkQueue.filter fun m => m != k }

theorem State.freeTally_eq (s : State) (k : Nat) : s.freeTally k = (s.withoutTally k).serveDeferred k := rfl

theorem State.serveDeferred_of_nil {s : State} {k : Nat} (empty : s.ru.deferred = []) : s.serveDeferred k = s := by
  simp [State.serveDeferred, State.deferredChoice, empty, leastFrom]

theorem State.serveDeferred_of_choice {s : State} {k n : Nat} {d : Deferred} (choice : s.deferredChoice = some n)
    (item : s.ru.deferred[n]? = some d) :
    s.serveDeferred k
      = (s.withRu { s.ru with deferred := s.ru.deferred.eraseIdx n }).takeTally k d.issue d.level := by
  simp only [State.serveDeferred, choice, item]

/-- A tally freed is given at once to the deferred item chosen. -/
theorem State.freeTally_of_choice {s : State} {k n : Nat} {d : Deferred} (inPool : k < s.ru.tallies.length)
    (choice : s.deferredChoice = some n) (item : s.ru.deferred[n]? = some d) :
    s.freeTally k = s.drew.withRu { s.ru with
      tallies := s.ru.tallies.set k (some (begunTally d.issue s.cs.tag d.level s.now (s.reportDelay 0)))
      deferred := s.ru.deferred.eraseIdx n, uplinkQueue := s.ru.uplinkQueue.filter fun m => m != k } := by
  rw [State.freeTally_eq, State.serveDeferred_of_choice (s := s.withoutTally k) choice item, State.takeTally_eq]
  · simp only [State.setTally, State.withoutTally, State.withRu, State.drew, State.withTb, List.set_set]
    rfl
  · simpa [State.withoutTally] using inPool

theorem State.freeTally_tallyFreed {s : State} {k : Nat} (inPool : k < s.ru.tallies.length) :
    s.tallyFreed (s.freeTally k) k := by
  refine ⟨fun empty => State.serveDeferred_of_nil (s := s.withoutTally k) empty, fun items bounded => ?_⟩
  obtain ⟨n, choice⟩ := Option.ne_none_iff_exists'.mp (State.deferredChoice_ne_none items)
  obtain ⟨d, item, first⟩ := State.deferredChoice_some choice bounded
  rw [State.freeTally_of_choice inPool choice item]
  exact ⟨n, d, ⟨item, first, s.reportDelay 0, s.reportDelay_delays 0, rfl⟩, by simp, rfl⟩

/-- A tally settles: freed where it is superseded or items are deferred, in SETTLED else. -/
theorem State.settle_tallySettles {s : State} {k : Nat} {y : Tally} (h : s.tally k = some y) :
    s.tallySettles (s.settle k) k y := by
  refine ⟨fun frees => ?_, fun kept empty => ?_⟩
  · have freed : s.settle k = s.freeTally k := by simp only [State.settle, h, frees, if_true]
    rw [freed]
    exact State.freeTally_tallyFreed (State.inPool_of_tally h)
  · simp [State.settle, h, kept, empty, Tally.settledAt]

/-! ### COVERED (06 R122) -/

theorem Level.raise_raise (a b : Level) : (a.raise b).raise b = a.raise b := by
  cases a <;> cases b <;> rfl

/-- The tags of a COVERED frame, taken one after another, raise the covered level of each tag named, however often it is
named. -/
theorem foldl_coverTag (members : List Member) (level : Level) (tags : List Word32) :
    tags.foldl (fun ms tag => coverTag ms tag level) members
      = members.map fun m => if m.tag ∈ tags then { m with covered := m.covered.raise level } else m := by
  induction tags generalizing members with
  | nil => simp
  | cons tag tags ih =>
    rw [List.foldl_cons, ih, coverTag, List.map_map]
    refine List.map_congr_left fun m _ => ?_
    by_cases first : m.tag = tag
    · simp [first, Level.raise_raise]
    · simp [first]

/-- The tally with the covered levels and the reported level that a COVERED frame leaves. -/
def Tally.coveredBy (y : Tally) (level : Level) (tags : List Word32) : Tally :=
  { y with
    members := y.members.map fun m => if m.tag ∈ tags then { m with covered := m.covered.raise level } else m
    reported := if y.ownTag ∈ tags ∧ (∃ m ∈ y.members, m.tag = y.ownTag) then y.reported.raise level
      else y.reported }

/-- What `State.heardCovered` writes is the tally so covered. -/
theorem Tally.coveredBy_eq (y : Tally) (level : Level) (tags : List Word32) :
    { y with
      members := tags.foldl (fun ms tag => coverTag ms tag level) y.members
      reported := if y.ownTag ∈ tags ∧ y.members.any (fun m => m.tag == y.ownTag) then y.reported.raise level
        else y.reported } = y.coveredBy level tags := by
  have own : (y.ownTag ∈ tags ∧ y.members.any (fun m => m.tag == y.ownTag) = true)
      ↔ y.ownTag ∈ tags ∧ ∃ m ∈ y.members, m.tag = y.ownTag := by simp
  unfold Tally.coveredBy
  rw [foldl_coverTag, if_congr own rfl rfl]

theorem State.heardCovered_of_no_tally {s : State} {issue : Issue} (unknown : s.findTally issue = none) (level : Level)
    (tags : List Word32) : s.heardCovered issue level tags = s := by
  simp only [State.heardCovered, unknown]

/-- A COVERED frame raises the levels of the issuance's tally, and one in WAITING or CONTRIBUTING that is then reported
at its own level settles. -/
theorem State.heardCovered_eq {s : State} {issue : Issue} {k : Nat} {y : Tally} (found : s.findTally issue = some k)
    (h : s.tally k = some y) (level : Level) (tags : List Word32) :
    s.heardCovered issue level tags =
      if (y.state = .waiting ∨ y.state = .contributing)
          ∧ y.ownLevel.rank ≤ (y.coveredBy level tags).reported.rank then
        (s.setTally k (some (y.coveredBy level tags))).settle k
      else s.setTally k (some (y.coveredBy level tags)) := by
  rw [← Tally.coveredBy_eq]
  simp only [State.heardCovered, found, h]

/-! ### YIELD (06 R123) -/

theorem State.heardYield_of_no_tally {s : State} {issue : Issue} (unknown : s.findTally issue = none)
    (sender : Word32) : s.heardYield sender issue = s := by
  simp only [State.heardYield, unknown]

theorem State.heardYield_eq {s : State} {issue : Issue} {k : Nat} {y : Tally} (found : s.findTally issue = some k)
    (h : s.tally k = some y) (sender : Word32) :
    s.heardYield sender issue
      = if y.state = .contributing ∧ y.reporter = some sender then s.enterWaiting k else s := by
  simp only [State.heardYield, found, h]

/-! ### What each frame makes of a tally -/

section Heard

variable {s : State} {sender : Word32} {issue : Issue} {k : Nat} {y : Tally}

/-- What a COVERED frame makes of the issuance's tally. -/
theorem exec_covered_tally {level : Level} {part : Nat} {tags : List Word32} (origin : issue.key.origin ≠ 0)
    (found : s.findTally issue = some k) (held : s.tally k = some y)
    (hears : s.Hears .covered sender (Payload.covered issue level part tags).body) (sent : level ≠ .none)
    (good : ∀ x ∈ tags, tagGood x = true) :
    let z := y.coveredBy level tags
    let settles := (y.state = .waiting ∨ y.state = .contributing) ∧ y.ownLevel.rank ≤ z.reported.rank
    let run := exec (.covered sender (Payload.covered issue level part tags).body) s
    (¬ settles → run = .next (s.setTally k (some z)))
    ∧ (settles → ∃ t, run = .next t ∧ (s.setTally k (some z)).tallySettles t k z) := by
  have covered := s.tally_setTally (State.inPool_of_tally held) (some (y.coveredBy level tags))
  intro z settles run
  have heard : run = .next (s.heardCovered issue level tags) := exec_covered hears origin sent good
  rw [heard, State.heardCovered_eq found held]
  exact ⟨fun stays => by rw [if_neg stays], fun rests => ⟨_, by rw [if_pos rests], State.settle_tallySettles covered⟩⟩

/-- What a YIELD makes of the issuance's tally: nothing, unless it is of the reporter of a CONTRIBUTING one. -/
theorem exec_yield_tally (origin : issue.key.origin ≠ 0) (found : s.findTally issue = some k)
    (held : s.tally k = some y) (hears : s.Hears .yield sender (Payload.yield issue).body) :
    let run := exec (.yield sender (Payload.yield issue).body) s
    (y.state ≠ .contributing ∨ y.reporter ≠ some sender → run = .next s)
    ∧ (y.state = .contributing → y.reporter = some sender → ∃ t, run = .next t ∧ s.waitsAgain t k y) := by
  intro run
  have heard : run = .next (s.heardYield sender issue) := exec_yield hears origin
  rw [heard, State.heardYield_eq found held]
  refine ⟨fun other => ?_, fun contributing reporter => ?_⟩
  · rw [if_neg (by tauto)]
  · exact ⟨_, by rw [if_pos ⟨contributing, reporter⟩], State.enterWaiting_waitsAgain held⟩

end Heard

/-- Settles O43: the frame comes to `State.heardCovered` or `State.heardYield`, whose one tally settles by
`State.settle_tallySettles` and waits by `State.enterWaiting_waitsAgain`. -/
theorem coveredAndYieldHeard : Obligations.CoveredAndYieldHeard := by
  unfold Obligations.CoveredAndYieldHeard
  refine fun s sender issue origin => ⟨fun unknown => ⟨fun level part tags hears sent good => ?_, fun hears => ?_⟩,
    fun k y found held => ⟨fun level part tags hears sent good => ?_, fun hears => ?_⟩⟩
  · rw [exec_covered hears origin sent good, State.heardCovered_of_no_tally unknown]
  · rw [exec_yield hears origin, State.heardYield_of_no_tally unknown]
  · exact exec_covered_tally origin found held hears sent good
  · obtain ⟨ignored, yields⟩ := exec_yield_tally origin found held hears
    refine ⟨ignored, fun contributing reporter => ?_⟩
    obtain ⟨_, run, delay, ⟨least, most⟩, rfl⟩ := yields contributing reporter
    exact ⟨delay, run, least, most⟩

end Sys2Proof.Machine

/-! A host request from its record to its answer (09 R180 to R182; 07 R141, R142), and the requests READ, FETCH_NOTICE
and STATUS (07 R144, R149, R150).  The one idea of the first part: neither PU nor AU reads the application link, and the
answer overwrites every field of it, so a request may be carried out on the state as it stood before its record came. -/

namespace Sys2Proof.Machine

/-! ### The answer to a request (09 R181) -/

/-- The state `t` with the time, the start-up and the link of `s`, but for the response buffer. -/
def State.onLink (t s : State) (b : Buffer) : State :=
  ((t.withTb s.tb).withSl s.sl).withAl { s.al with buffer := b }

/-- A state agrees with itself, and with any state of its time and start-up but for the link. -/
theorem State.onLink_withAl {s t : State} (clock : t.tb = s.tb) (phase : t.sl = s.sl) (a : AppLink) (b : Buffer) :
    t.onLink (s.withAl a) b = t.withAl { a with buffer := b } := by
  simp only [State.onLink, State.withAl_tb, State.withAl_sl, ← clock, ← phase]
  rfl

/-- What the host sends is taken one thing after another. -/
theorem State.meanwhile_cons (s : State) (input : HostInput) (rest : List HostInput) :
    s.meanwhile (input :: rest) = (s.meanwhile [input]).meanwhile rest := by
  cases input with
  | bytes bs =>
    simp only [State.meanwhile]
    split <;> rfl
  | gap =>
    simp only [State.meanwhile]
    split <;> rfl

theorem State.onLink_al (t s : State) (b : Buffer) : (t.onLink s b).al = { s.al with buffer := b } := rfl

theorem State.onLink_now (t s : State) (b : Buffer) : (t.onLink s b).now = s.now := rfl

theorem State.onLink_runTo (t s : State) (b : Buffer) (time : Nat) :
    (t.onLink s b).runTo time = t.onLink (s.runTo time) b := rfl

/-- One thing that the host sends meanwhile reads time, start-up and the link alone, and of the link not the response
buffer. -/
theorem State.meanwhile_one_onLink (s t : State) (b : Buffer) (input : HostInput) :
    (t.onLink s b).meanwhile [input] = t.onLink (s.meanwhile [input]) b := by
  cases input with
  | bytes bs =>
    simp only [State.meanwhile]
    split <;> rfl
  | gap =>
    simp only [State.meanwhile, State.onLink_al, State.onLink_runTo, State.onLink_now]
    split
    · next passes => exact if_pos passes
    · next ends => exact if_neg ends

/-- All that the host sends meanwhile reads no more. -/
theorem State.meanwhile_onLink (during : List HostInput) (s t : State) (b : Buffer) :
    (t.onLink s b).meanwhile during = t.onLink (s.meanwhile during) b := by
  induction during generalizing s with
  | nil => rfl
  | cons input rest ih =>
    rw [State.meanwhile_cons, State.meanwhile_one_onLink, ih, ← State.meanwhile_cons]

/-- The answer to a request writes time and the link alone, and what it writes there depends on time and start-up
alone. -/
theorem State.answered_eq {s t : State} (clock : t.tb = s.tb) (phase : t.sl = s.sl) (now : Nat)
    (during : List HostInput) (response : List Byte) :
    t.answered now during response
      = (t.withTb (s.answered now during response).tb).withAl (s.answered now during response).al := by
  have begun : t.withAl { t.al with framer := .idle, lastByte := now, held := none }
      = t.onLink (s.withAl { s.al with framer := .idle, lastByte := now, held := none }) t.al.buffer := by
    rw [State.onLink_withAl clock phase]
  have phaseKept : ∀ u : State, (u.meanwhile during).sl = u.sl := fun u => u.meanwhile_frame during .sl (by decide)
  unfold State.answered State.answeredFrom
  rw [begun, State.meanwhile_onLink]
  simp only [State.onLink, phaseKept, State.withAl_sl, ← phase]
  rfl

/-- The answer overwrites the whole link. -/
theorem State.answered_withAl (t : State) (a : AppLink) (now : Nat) (during : List HostInput) (response : List Byte) :
    (t.withAl a).answered now during response = t.answered now during response := by
  rw [State.answered_eq (s := t) (t := t.withAl a) rfl rfl, State.answered_eq (s := t) (t := t) rfl rfl]
  rfl

/-! ### From the record to the answer (09 R180, 07 R141) -/

/-- The row of a host request writes its record and what is sent after it. -/
theorem exec_hostRequest {s : State} {c : Instr} {kind : Byte} {body : List Byte} {during : List HostInput}
    (sent : hostRequest c = some (kind, body, during)) : exec c s = .next (s.hostRequest kind body during) := by
  unfold hostRequest at sent
  split at sent <;> cases sent <;> rfl

/-- PU does not read the link as it judges handles. -/
theorem State.fits_withAl (s : State) (a : AppLink) (r : Request) : (s.withAl a).fits r = s.fits r := by
  cases r <;> rfl

/-- A request in range whose handles fit is carried out. -/
theorem State.judge_of_fits {s : State} {r : Request} (inRange : r.inRange = true) (fits : s.fits r = true) :
    s.judge r = s.carryOut r := by simp [State.judge, inRange, fits]

/-- A response placed leaves no request held: a held one is worked on next, and otherwise the response is there to be
read (09 R181, R182). -/
theorem AppLink.place_eq (a : AppLink) (response : List Byte) :
    a.place response = { a with held := none, buffer := match a.held with
      | some q => .working q
      | none => .ready response } := by
  obtain ⟨framer, lastByte, buffer, held⟩ := a
  cases held <;> rfl

/-- With the link idle, a good request that PU takes to `t`, whatever the link holds, is answered from `t`. -/
theorem exec_request {s t : State} {c : Instr} {kind seq : Byte} {params : List Byte} {during : List HostInput}
    {r : Request} {result : Result} {answer : List Byte} (idle : s.HostIdle)
    (sent : hostRequest c = some (kind, seq :: params, during)) (short : params.length ≤ 5)
    (request : requestOf kind (seq :: params) = some r) (inRange : r.inRange = true) (fits : s.fits r = true)
    (carried : ∀ a, (s.withAl a).carryOut r = ⟨t.withAl a, result, answer⟩) :
    exec c s = .next (t.answered s.now during (responseRecord kind seq result answer)) := by
  obtain ⟨started, framer, held, buffer⟩ := idle
  have notWorking : ∀ q, s.al.buffer ≠ .working q := by
    rintro q working
    obtain empty | ⟨_, ready⟩ := buffer
    · simp [working] at empty
    · simp [working] at ready
  have judged : judgeRequest (linkRecord kind (seq :: params)) = some r := by
    rw [judgeRequest_linkRecord _ _ (by simp [requestMost]; omega), request]
  have replied : ∀ a, (s.withAl a).replyTo ⟨linkRecord kind (seq :: params), !s.started⟩
      = ⟨t.withAl a, result, answer⟩ := by
    intro a
    simp only [State.replyTo, started, Bool.not_true, Bool.false_eq_true, if_false, judged]
    rw [State.judge_of_fits inRange ((s.fits_withAl a r).trans fits), carried]
  rw [exec_hostRequest sent, State.hostRequest_whole _ _ _ _ (by simp [requestMost]; omega) framer notWorking]
  simp only [replied, responseTo, requestKind_linkRecord, requestSeq_linkRecord kind seq params (by omega),
    AppLink.place_eq, framer, held]
  rw [← State.answered_withAl t ⟨.idle, s.now, .working ⟨linkRecord kind (seq :: params), !s.started⟩, none⟩]
  rfl

/-! ### READ: the encoding scan and the expansion (02 R45) -/

@[simp] theorem expand_literal {b : Byte} (rest : List Byte) (literal : b ≠ 0x1B#8) :
    expand (b :: rest) = b :: expand rest := by
  rw [expand.eq_def]; exact if_neg literal

@[simp] theorem expand_run (c b : Byte) (rest : List Byte) :
    expand (0x1B#8 :: c :: b :: rest) = List.replicate c.toNat b ++ expand rest := by
  rw [expand]; exact if_pos rfl

theorem scan_literal {b : Byte} (rest : List Byte) (n : Nat) (literal : b ≠ 0x1B#8) :
    scan (b :: rest) n = if 2048 < n + 1 then .tooLong else scan rest (n + 1) := by
  rw [scan.eq_def]; exact if_neg literal

theorem scan_run {c : Byte} (b : Byte) (rest : List Byte) (n : Nat) (counted : c ≠ 0) :
    scan (0x1B#8 :: c :: b :: rest) n
      = if 2048 < n + c.toNat then .tooLong else scan rest (n + c.toNat) := by
  rw [scan]; exact (if_pos rfl).trans (if_neg counted)

theorem scan_run_zero (b : Byte) (rest : List Byte) (n : Nat) : scan (0x1B#8 :: 0 :: b :: rest) n = .error := by
  rw [scan]; exact (if_pos rfl).trans (if_pos rfl)

theorem scan_cut (n : Nat) : scan [0x1B#8] n = .error ∧ ∀ c, scan [0x1B#8, c] n = .error := ⟨rfl, fun _ => rfl⟩

/-- A packed body taken apart as the scan takes it: a literal, a run, or a run cut short. -/
theorem packed_induction {P : List Byte → Prop} (nil : P [])
    (literal : ∀ b rest, b ≠ 0x1B#8 → P rest → P (b :: rest))
    (run : ∀ c b rest, P rest → P (0x1B#8 :: c :: b :: rest)) (cut : P [0x1B#8]) (cutRun : ∀ c, P [0x1B#8, c]) :
    ∀ body, P body
  | [] => nil
  | [b] => if h : b = 0x1B#8 then h ▸ cut else literal b [] h nil
  | [b, c] => if h : b = 0x1B#8 then h ▸ cutRun c
      else literal b [c] h (packed_induction nil literal run cut cutRun [c])
  | b :: c :: d :: rest => if h : b = 0x1B#8 then h ▸ run c d rest (packed_induction nil literal run cut cutRun rest)
      else literal b (c :: d :: rest) h (packed_induction nil literal run cut cutRun (c :: d :: rest))

/-- A body that the scan reads to its end is read as it stands before any other. -/
theorem scan_append (rest : List Byte) {n : Nat} (good : List Byte) {m : Nat} (read : scan good m = .length n) :
    scan (good ++ rest) m = scan rest n ∧ expand (good ++ rest) = expand good ++ expand rest := by
  induction good using packed_induction generalizing m with
  | nil =>
    obtain rfl : m = n := by simpa [scan] using read
    exact ⟨rfl, rfl⟩
  | literal b good literal ih =>
    rw [scan_literal _ _ literal] at read
    split at read
    · cases read
    · next fits =>
      obtain ⟨scanned, expanded⟩ := ih read
      simp [scan_literal _ _ literal, fits, scanned, expanded, literal]
  | run c b good ih =>
    by_cases counted : c = 0
    · rw [counted, scan_run_zero] at read; cases read
    rw [scan_run _ _ _ counted] at read
    split at read
    · cases read
    · next fits =>
      obtain ⟨scanned, expanded⟩ := ih read
      simp [scan_run _ _ _ counted, fits, scanned, expanded]
  | cut => rw [(scan_cut m).1] at read; cases read
  | cutRun c => rw [(scan_cut m).2 c] at read; cases read

/-- What the scan finds of the length of the expanded body, from a running length: the sum, within 2,048; or that the
sum passes it. -/
theorem scan_measures (body : List Byte) {m : Nat} (within : m ≤ 2048) :
    (∀ n, scan body m = .length n → m + (expand body).length = n ∧ n ≤ 2048)
      ∧ (scan body m = .tooLong → 2048 < m + (expand body).length) := by
  induction body using packed_induction generalizing m with
  | nil => simp [scan, expand]; omega
  | literal b rest literal ih =>
    rw [scan_literal _ _ literal, expand_literal _ literal, List.length_cons]
    split
    · simp; omega
    · simpa only [Nat.add_assoc, Nat.add_comm 1] using ih (m := m + 1) (by omega)
  | run c b rest ih =>
    rw [expand_run, List.length_append, List.length_replicate]
    by_cases counted : c = 0
    · rw [counted, scan_run_zero]; simp
    rw [scan_run _ _ _ counted]
    split
    · simp; omega
    · simpa [Nat.add_assoc] using ih (m := m + c.toNat) (by omega)
  | cut => simp [scan_cut]
  | cutRun c => simp [scan_cut]

/-- READ with an offset below the expanded length answers the bytes from there, as many as asked for and there are. -/
theorem State.read_of_lt {s : State} {h : Handle} {offset : Nat} (length : Nat)
    (below : offset < (s.entry h.index).expandedLength.getD 0) :
    s.read h offset length =
      let count := min length ((s.entry h.index).expandedLength.getD 0 - offset)
      ⟨s, .ok, byte count :: ((expand (s.packed (s.entry h.index))).drop offset).take count⟩ := if_pos below

/-- READ with any other offset answers RANGE. -/
theorem State.read_of_ge {s : State} {h : Handle} {offset : Nat} (length : Nat)
    (past : (s.entry h.index).expandedLength.getD 0 ≤ offset) : s.read h offset length = s.refuse .range :=
  if_neg (Nat.not_lt.mpr past)

theorem requestOf_read (seq index generation length : Byte) (offset : Word16) :
    requestOf 0x22 (seq :: ([index, generation] ++ bytes16 offset ++ [length]))
      = some (.read ⟨index.toNat, generation⟩ offset.toNat length.toNat) := by
  change some (Request.read _ (word16 _ _).toNat _) = _
  rw [word16_of_bytes]

/-- READ of an entry that the host holds or has shown changes no state but the response. -/
theorem exec_read {s : State} {seq index length : Byte} {offset : Word16} {during : List HostInput} {result : Result}
    {answer : List Byte} (idle : s.HostIdle) (inTable : index.toNat < 32) (least : 1 ≤ length.toNat)
    (most : length.toNat ≤ 240) (held : (s.entry index.toNat).isHeld = true)
    (carried : ∀ a, (s.withAl a).read ⟨index.toNat, (s.entry index.toNat).generation⟩ offset.toNat length.toNat
      = ⟨s.withAl a, result, answer⟩) :
    exec (.read seq index (s.entry index.toNat).generation offset length during) s
      = .next (s.answered s.now during (responseRecord 0x22 seq result answer)) :=
  exec_request idle rfl (by simp) (requestOf_read seq index _ length offset)
    (by simp [Request.inRange, Handle.inRange, inTable, least, most]) (by simp [State.fits, State.generationFits, held])
    carried

/-- Settles O25: READ is `State.read` on the state as it stands (`exec_read`); the scan and the expansion are taken
apart by `packed_induction`. -/
theorem readAnswersBody : Obligations.ReadAnswersBody := by
  unfold Obligations.ReadAnswersBody
  refine ⟨?_, fun _ rest literal => expand_literal rest literal, fun c b rest => expand_run c b rest, rfl, fun _ => rfl,
    fun _ rest n literal => scan_literal rest n literal, fun _ b rest n counted => scan_run b rest n counted,
    scan_run_zero, scan_cut, fun good rest _ read => scan_append rest good read, (scan_cut 0).1, (scan_cut 0).2,
    fun b rest => scan_run_zero b rest 0, fun body n read => ?_, fun body long => ?_⟩
  · intro s seq index length offset during idle inTable least most held
    have held : (s.entry index.toNat).isHeld = true := by simpa [Entry.isHeld] using held
    exact ⟨fun below => exec_read idle inTable least most held fun a => State.read_of_lt (s := s.withAl a) _ below,
      fun past => exec_read idle inTable least most held fun a => State.read_of_ge (s := s.withAl a) _ past⟩
  · simpa using (scan_measures body (Nat.zero_le _)).1 n read
  · simpa using (scan_measures body (Nat.zero_le _)).2 long

/-! ### FETCH_NOTICE, STATUS and the alert request line (07 R149, R150, R153) -/

/-- The line is asserted, once start-up is over, for a claimable entry or a waiting notice. -/
theorem State.alertRequestLine_iff (s : State) : s.alertRequestLine = true ↔ s.started = true
    ∧ ((∃ e ∈ s.table, e.state = .pending ∧ s.pu.threshold < e.precedence.getD 0) ∨ s.pu.notices ≠ []) := by
  simp [State.alertRequestLine, Entry.claimable]

/-- The flags word in binary, bit 0 CONFIG_DEFAULTED to bit 8 TABLE_FULL (11.5). -/
theorem FaultFlags.word_eq (f : FaultFlags) : f.word =
    Nat.bit f.configDefaulted (Nat.bit f.configCrc (Nat.bit f.queryTimeout (Nat.bit f.uplinkTimeout
      (Nat.bit f.radioFault (Nat.bit f.tagClash (Nat.bit f.noticeLost (Nat.bit f.storeFull
        (Nat.bit f.tableFull 0)))))))) := by
  have weight (b : Bool) (k : Nat) : (if b = true then k else 0) = k * b.toNat := by cases b <;> simp
  simp only [FaultFlags.word, weight, Nat.bit_val]
  omega

/-- The lowest bits of a word that is written in binary. -/
theorem map_testBit_bit (b : Bool) (w n : Nat) :
    (List.range (n + 1)).map (Nat.bit b w).testBit = b :: (List.range n).map w.testBit := by
  simp [List.range_succ_eq_map, Nat.testBit_bit_succ]

/-- Each bit of the flags word is one flag, and no other bit is set. -/
theorem FaultFlags.word_bits (f : FaultFlags) :
    [f.configDefaulted, f.configCrc, f.queryTimeout, f.uplinkTimeout, f.radioFault, f.tagClash, f.noticeLost,
      f.storeFull, f.tableFull] = (List.range 9).map f.word.testBit ∧ f.word < 512 := by
  rw [f.word_eq]
  constructor
  · simp only [map_testBit_bit, List.range_zero, List.map_nil]
  · change _ < 2 ^ 9
    simp only [Nat.bit_lt_two_pow_succ_iff, Nat.two_pow_pos]

theorem exec_fetchNotice {s t : State} {seq : Byte} {during : List HostInput} {result : Result} {answer : List Byte}
    (idle : s.HostIdle) (carried : ∀ a, (s.withAl a).fetchNotice = ⟨t.withAl a, result, answer⟩) :
    exec (.fetchNotice seq during) s = .next (t.answered s.now during (responseRecord 0x26 seq result answer)) :=
  exec_request idle rfl (by simp) (r := .fetchNotice) rfl rfl rfl carried

/-- FETCH_NOTICE answers EMPTY for an empty queue. -/
theorem State.fetchNotice_of_empty {s : State} (empty : s.pu.notices = []) : s.fetchNotice = s.refuse .empty := by
  simp only [State.fetchNotice, empty]

/-- FETCH_NOTICE takes the oldest notice. -/
theorem State.fetchNotice_of_cons {s : State} {n : Notice} {rest : List Notice} (oldest : s.pu.notices = n :: rest) :
    s.fetchNotice = ⟨s.withPu { s.pu with notices := rest }, .ok, n.bytes⟩ := by
  simp only [State.fetchNotice, oldest]

/-- Settles O28: FETCH_NOTICE and STATUS are `State.fetchNotice` and `State.status` on the state as it stands
(`exec_request`); the flags are read off their word in binary. -/
theorem noticesAndStatusRead : Obligations.NoticesAndStatusRead := by
  unfold Obligations.NoticesAndStatusRead
  refine ⟨State.alertRequestLine_iff, fun s seq during idle => ⟨fun empty => ?_, fun n rest oldest => ?_, ?_,
    FaultFlags.word_bits⟩⟩
  · exact exec_fetchNotice idle fun a => State.fetchNotice_of_empty (s := s.withAl a) empty
  · exact exec_fetchNotice idle fun a => State.fetchNotice_of_cons (s := s.withAl a) oldest
  · exact exec_request idle rfl (by simp) (r := .status) rfl rfl rfl fun _ => rfl

end Sys2Proof.Machine

/-! The end of a claim by COMPLETE and RELEASE (07 R145, R146), and what the Attention Unit makes of it (08 R157 to
R160): nothing, where the entry stays in the attention set; otherwise it changes the owner and sounded flags alone. -/

namespace Sys2Proof.Machine

/-! ### Where attention does not move (08 R159, R160) -/

theorem State.entry_setEntry_ne (s : State) {i j : Nat} (other : j ≠ i) (e : Entry) :
    (s.setEntry i e).entry j = s.entry j := by
  simp [State.entry, State.setEntry, List.getD_eq_getElem?_getD, other.symm]

/-- AU neither reads nor writes the link. -/
theorem State.reevaluate_withAl (n : Nat) (s : State) (a : AppLink) :
    State.reevaluate n (s.withAl a) = (State.reevaluate n s).withAl a := by
  induction n generalizing s with
  | zero => rfl
  | succ n ih =>
    have first : (s.withAl a).firstEligible = s.firstEligible := rfl
    have owns : ∀ i, (s.withAl a).isOwner i = s.isOwner i := fun _ => rfl
    have silent : ∀ i, (s.withAl a).settings.silent ((s.withAl a).profileFor i) = s.settings.silent (s.profileFor i) :=
      fun _ => rfl
    simp only [State.reevaluate, first, owns, silent]
    split
    · rfl
    · split
      · rfl
      · split
        · exact ih ((s.becomeOwner _).setSounded _)
        · rfl

theorem State.attend_withAl (s : State) (a : AppLink) : (s.withAl a).attend = s.attend.withAl a :=
  State.reevaluate_withAl _ s a

/-- Under the law of attention there is nothing to re-evaluate. -/
theorem State.attend_of_ownerLaw {s : State} (law : s.OwnerLaw) : s.attend = s := by
  obtain ⟨owner, cadence⟩ := law
  unfold State.attend State.reevaluate
  cases first : s.firstEligible with
  | none =>
    have owner : s.au.owner = none := by rw [owner, first]; rfl
    have cadence : s.au.cadence = none := by simpa [owner] using cadence
    dsimp only
    rw [← owner, ← cadence]
    rfl
  | some i =>
    have owns : s.isOwner i = true := by simp [State.isOwner, owner, first, State.ownerOf]
    simp [owns]

/-- `leastFrom` reads the ranks alone. -/
theorem leastFrom_set {α : Type} {rank : α → Option (Nat × Nat)} {xs : List α} {i : Nat} {x y : α} (n : Nat)
    (place : xs[i]? = some x) (same : rank y = rank x) : leastFrom rank n (xs.set i y) = leastFrom rank n xs := by
  induction xs generalizing n i with
  | nil => rfl
  | cons a as ih =>
    cases i with
    | zero =>
      obtain rfl : a = x := by simpa using place
      simp only [List.set_cons_zero, leastFrom, same]
    | succ i => simp only [List.set_cons_succ, leastFrom, ih (n + 1) (by simpa using place)]

/-- An entry replaced by one of its rank leaves the entry of least rank where it is. -/
theorem State.leastEntry_setEntry {s : State} {rank : Entry → Option (Nat × Nat)} {i : Nat} {e : Entry}
    (inTable : i < s.table.length) (same : rank e = rank (s.entry i)) :
    (s.setEntry i e).leastEntry rank = s.leastEntry rank := by
  have place : s.table[i]? = some (s.entry i) := by simp [State.entry, List.getD_eq_getElem?_getD, inTable]
  simp only [State.leastEntry, State.setEntry, State.withTable_table, leastFrom_set 0 place same]

/-- The law of attention reads of an entry whether it is eligible, its place in the pending order and its
generation. -/
theorem State.OwnerLaw.setEntry {s : State} {i : Nat} {e : Entry} (law : s.OwnerLaw) (inTable : i < s.table.length)
    (eligible : e.eligible s.pu.threshold = (s.entry i).eligible s.pu.threshold)
    (precedence : e.precedence = (s.entry i).precedence) (stamp : e.stamp = (s.entry i).stamp)
    (generation : e.generation = (s.entry i).generation) : (s.setEntry i e).OwnerLaw := by
  have first : (s.setEntry i e).firstEligible = s.firstEligible :=
    State.leastEntry_setEntry (rank := fun e => if e.eligible s.pu.threshold then some e.pendingRank else none) inTable
      (by simp only [Entry.pendingRank, eligible, precedence, stamp])
  have owner : ∀ j, (s.setEntry i e).ownerOf j = s.ownerOf j := by
    intro j
    by_cases same : j = i
    · subst same
      simp [State.ownerOf, State.entry_setEntry inTable, generation, precedence]
    · simp [State.ownerOf, s.entry_setEntry_ne same]
  have owners : (s.setEntry i e).ownerOf = s.ownerOf := funext owner
  rw [State.OwnerLaw, first, owners]
  exact law

/-! ### What attention does to an entry that is not eligible (08 R158 to R160) -/

/-- AU re-evaluates: the owner goes, or stays, or the first eligible entry becomes the owner, and where its cadence is
silent the next is looked at. -/
theorem State.reevaluate_cases (n : Nat) (s : State) :
    State.reevaluate (n + 1) s = s.withAu { s.au with owner := none, cadence := none }
      ∨ ∃ i, s.firstEligible = some i ∧ ((s.isOwner i = true ∧ State.reevaluate (n + 1) s = s)
        ∨ State.reevaluate (n + 1) s = s.becomeOwner i
        ∨ State.reevaluate (n + 1) s = State.reevaluate n ((s.becomeOwner i).setSounded i)) := by
  rw [State.reevaluate]
  cases first : s.firstEligible with
  | none => exact .inl rfl
  | some i =>
    refine .inr ⟨i, rfl, ?_⟩
    dsimp only
    split
    · next owns => exact .inl ⟨owns, rfl⟩
    · split
      · exact .inr (.inr rfl)
      · exact .inr (.inl rfl)

/-- The first eligible entry is eligible. -/
theorem State.firstEligible_eligible {s : State} {i : Nat} (first : s.firstEligible = some i) :
    i < s.table.length ∧ (s.entry i).eligible s.pu.threshold = true := by
  obtain ⟨inTable, k, ranked, -⟩ := State.leastEntry_some first
  exact ⟨inTable, by by_contra not; simp [not] at ranked⟩

theorem Entry.soundsLike.refl (e : Entry) : e.soundsLike e := rfl

theorem Entry.soundsLike.trans {e f g : Entry} (h : e.soundsLike f) (h' : f.soundsLike g) : e.soundsLike g := by
  unfold Entry.soundsLike at *
  rw [← h', ← h]

/-- Setting a sounded flag changes no more than the flag of that entry. -/
theorem State.setSounded_soundsLike (s : State) (i j : Nat) : ((s.setSounded i).entry j).soundsLike (s.entry j) := by
  by_cases same : j = i
  · subst same
    by_cases inTable : j < s.table.length
    · rw [State.setSounded, State.modEntry, State.entry_setEntry inTable]; rfl
    · simp [State.setSounded, State.modEntry, State.setEntry, State.entry, inTable, Entry.soundsLike]
  · rw [State.setSounded, State.modEntry, s.entry_setEntry_ne same]; rfl

/-- Attention changes entries in the sounded flag at most. -/
theorem State.reevaluate_soundsLike (n : Nat) (s : State) (j : Nat) :
    ((State.reevaluate n s).entry j).soundsLike (s.entry j) := by
  induction n generalizing s with
  | zero => exact .refl _
  | succ n ih =>
    obtain goes | ⟨i, -, ⟨-, stays⟩ | becomes | next⟩ := s.reevaluate_cases n
    · rw [goes]; exact .refl _
    · rw [stays]; exact .refl _
    · rw [becomes]; exact .refl _
    · rw [next]; exact (ih _).trans ((s.becomeOwner i).setSounded_soundsLike i j)

/-- An entry that is not eligible is left as it is, and is not the owner. -/
theorem State.reevaluate_of_ineligible (n : Nat) {s : State} {j : Nat}
    (ineligible : (s.entry j).eligible s.pu.threshold = false) :
    (State.reevaluate n s).entry j = s.entry j ∧ ∀ o, (State.reevaluate n s).au.owner = some o → o.index ≠ j := by
  induction n generalizing s with
  | zero => exact ⟨rfl, fun _ owner => by cases owner⟩
  | succ n ih =>
    obtain goes | ⟨i, first, step⟩ := s.reevaluate_cases n
    · rw [goes]; exact ⟨rfl, fun _ owner => by cases owner⟩
    have other : i ≠ j := by
      rintro rfl
      rw [(State.firstEligible_eligible first).2] at ineligible
      cases ineligible
    obtain ⟨owns, stays⟩ | becomes | next := step
    · rw [stays]
      refine ⟨rfl, fun o owner => ?_⟩
      have index : o.index = i := by
        simp only [State.isOwner, owner, Bool.and_eq_true, beq_iff_eq] at owns
        exact owns.1
      rwa [index]
    · rw [becomes]
      exact ⟨rfl, fun o owner => by cases owner; exact other⟩
    · have kept : ((s.becomeOwner i).setSounded i).entry j = s.entry j := s.entry_setEntry_ne other.symm _
      obtain ⟨entry, owner⟩ := ih (s := (s.becomeOwner i).setSounded i) (by rw [kept]; exact ineligible)
      rw [next]
      exact ⟨entry.trans kept, owner⟩

/-! ### COMPLETE and RELEASE (07 R145, R146) -/

/-- The claim of entry `i` ends: the entry goes to a state with its claim slot `k` emptied (07 R140). -/
def State.endClaim (s : State) (i k : Nat) (target : EntryState) : State :=
  (s.withPu { s.pu with slots := s.pu.slots.set k none }).setEntry i
    { s.entry i with state := target, claimSlot := none }

section Claim

variable {s : State} {h : Handle} {k : Nat}

/-- COMPLETE ends the claim with the entry SHOWN, and AU is told. -/
theorem State.complete_eq (slot : (s.entry h.index).claimSlot = some k) :
    s.complete h = (s.endClaim h.index k .shown).attend.done := by
  simp only [State.complete, State.emptySlot, slot]
  rfl

/-- RELEASE ends the claim with the entry PENDING, and AU is told. -/
theorem State.release_eq (slot : (s.entry h.index).claimSlot = some k) :
    s.release h = (s.endClaim h.index k .pending).attend.done := by
  simp only [State.release, State.emptySlot, slot]
  rfl

end Claim

theorem State.endClaim_entry {s : State} {i : Nat} (inTable : i < s.table.length) (k : Nat) (target : EntryState) :
    (s.endClaim i k target).entry i = { s.entry i with state := target, claimSlot := none } :=
  State.entry_setEntry (s := s.withPu _) inTable _

theorem State.endClaim_entry_ne (s : State) {i j : Nat} (other : j ≠ i) (k : Nat) (target : EntryState) :
    (s.endClaim i k target).entry j = s.entry j :=
  State.entry_setEntry_ne (s.withPu _) other _

theorem State.endClaim_frame (s : State) (i k : Nat) (target : EntryState) :
    s.onlyChanges [.table, .pu] (s.endClaim i k target) := by
  simp [State.endClaim]

/-- Attention does not move where the entry stays in the attention set. -/
theorem State.attend_endClaim {s : State} {i k : Nat} {target : EntryState} (law : s.OwnerLaw)
    (inTable : i < s.table.length) (held : (s.entry i).isHeld = true)
    (stays : ({ s.entry i with state := target, claimSlot := none } : Entry).inAttentionSet s.pu.threshold = true) :
    (s.endClaim i k target).attend = s.endClaim i k target := by
  refine State.attend_of_ownerLaw (State.OwnerLaw.setEntry (s := s.withPu _) law inTable ?_ rfl rfl rfl)
  have stood : (s.entry i).inAttentionSet s.pu.threshold = true := by simp [Entry.inAttentionSet, held]
  change (_ && _) = (_ && _)
  exact congrArg (· && !(s.entry i).sounded) (stays.trans stood.symm)

section Requests

variable {s : State} {seq index : Byte} {during : List HostInput} {k : Nat}

/-- COMPLETE of a CLAIMED entry. -/
theorem exec_complete (idle : s.HostIdle) (inTable : index.toNat < 32)
    (claimed : (s.entry index.toNat).state = .claimed) (slot : (s.entry index.toNat).claimSlot = some k) :
    exec (.complete seq index (s.entry index.toNat).generation during) s
      = .next ((s.endClaim index.toNat k .shown).attend.answered s.now during (responseRecord 0x23 seq .ok [])) :=
  exec_request idle rfl (by simp) (r := .complete ⟨index.toNat, (s.entry index.toNat).generation⟩) rfl
    (by simp [Request.inRange, Handle.inRange, inTable]) (by simp [State.fits, State.generationFits, claimed])
    fun a => by
      have carried : (s.withAl a).complete ⟨index.toNat, (s.entry index.toNat).generation⟩ = _ :=
        State.complete_eq (s := s.withAl a) slot
      exact carried.trans (congrArg State.done (State.attend_withAl (s.endClaim index.toNat k .shown) a))

/-- RELEASE of a CLAIMED entry. -/
theorem exec_release (idle : s.HostIdle) (inTable : index.toNat < 32)
    (claimed : (s.entry index.toNat).state = .claimed) (slot : (s.entry index.toNat).claimSlot = some k) :
    exec (.release seq index (s.entry index.toNat).generation during) s
      = .next ((s.endClaim index.toNat k .pending).attend.answered s.now during (responseRecord 0x24 seq .ok [])) :=
  exec_request idle rfl (by simp) (r := .release ⟨index.toNat, (s.entry index.toNat).generation⟩) rfl
    (by simp [Request.inRange, Handle.inRange, inTable]) (by simp [State.fits, State.generationFits, claimed])
    fun a => by
      have carried : (s.withAl a).release ⟨index.toNat, (s.entry index.toNat).generation⟩ = _ :=
        State.release_eq (s := s.withAl a) slot
      exact carried.trans (congrArg State.done (State.attend_withAl (s.endClaim index.toNat k .pending) a))

/-- A RELEASE at or below the threshold: the entry is not eligible as AU re-evaluates, which goes on to change owner and
sounded flags alone. -/
theorem exec_release_below (idle : s.HostIdle) (inRange : index.toNat < 32) (inTable : index.toNat < s.table.length)
    (claimed : (s.entry index.toNat).state = .claimed) (slot : (s.entry index.toNat).claimSlot = some k)
    (below : (s.entry index.toNat).precedence.getD 0 ≤ s.pu.threshold) :
    ∃ t, exec (.release seq index (s.entry index.toNat).generation during) s = .next t
      ∧ t.entry index.toNat = { s.entry index.toNat with state := .pending, claimSlot := none }
      ∧ t.pu = { s.pu with slots := s.pu.slots.set k none }
      ∧ (let answered := s.answered s.now during (responseRecord 0x24 seq .ok [])
        t.al = answered.al ∧ t.tb = answered.tb)
      ∧ s.onlyChanges [.tb, .table, .pu, .au, .al] t
      ∧ (∀ j, j ≠ index.toNat → (t.entry j).soundsLike (s.entry j))
      ∧ ∀ o, t.au.owner = some o → o.index ≠ index.toNat := by
  let u := s.endClaim index.toNat k .pending
  have entry : u.entry index.toNat = { s.entry index.toNat with state := .pending, claimSlot := none } :=
    State.endClaim_entry inTable k .pending
  have ineligible : (u.entry index.toNat).eligible u.pu.threshold = false := by
    have threshold : u.pu.threshold = s.pu.threshold := rfl
    simp [entry, threshold, Entry.eligible, Entry.inAttentionSet, Entry.claimable, Entry.isHeld, below]
  obtain ⟨kept, owner⟩ := State.reevaluate_of_ineligible (u.table.length + 1) ineligible
  have attended : s.onlyChanges [.table, .pu, .au] u.attend :=
    ((s.endClaim_frame index.toNat k .pending).mono (by decide)).step u.attend_frame (by decide)
  have answered := State.answered_eq (s := s) (t := u.attend) (attended .tb (by decide)) (attended .sl (by decide))
    s.now during (responseRecord 0x24 seq .ok [])
  refine ⟨_, exec_release idle inRange claimed slot, ?_⟩
  rw [answered]
  refine ⟨kept.trans entry, u.attend_frame .pu (by decide), ⟨rfl, rfl⟩, ?_, fun j other => ?_, owner⟩
  · have within : s.onlyChanges [.tb, .table, .pu, .au, .al] u.attend := attended.mono (by decide)
    simpa using within
  · have sounds := u.reevaluate_soundsLike (u.table.length + 1) j
    rwa [s.endClaim_entry_ne other] at sounds

end Requests

/-- Settles O26: COMPLETE, and RELEASE above the threshold, leave the entry in the attention set, where
`State.attend_endClaim` says that nothing moves; for RELEASE at or below it see `exec_release_below`. -/
theorem completeAndReleaseEndClaim : Obligations.CompleteAndReleaseEndClaim := by
  unfold Obligations.CompleteAndReleaseEndClaim
  intro s seq index during k idle law inRange inTable claimed slot e unslotted
  have held : e.isHeld = true := by simp [e, Entry.isHeld, claimed]
  refine ⟨?_, fun above => ?_, fun below => ?_⟩
  · have shown : ({ e with state := .shown, claimSlot := none } : Entry).inAttentionSet s.pu.threshold = true := by
      simp [Entry.inAttentionSet, Entry.isHeld]
    rw [exec_complete idle inRange claimed slot, State.attend_endClaim law inTable held shown]
    rfl
  · have claimable :
        ({ e with state := .pending, claimSlot := none } : Entry).inAttentionSet s.pu.threshold = true := by
      simp [Entry.inAttentionSet, Entry.claimable, above]
    rw [exec_release idle inRange claimed slot, State.attend_endClaim law inTable held claimable]
    rfl
  · exact exec_release_below idle inRange inTable claimed slot below

end Sys2Proof.Machine

/-! The laws of attention and of the waiting set (08 R159, R160; 03 R59), and the two ways a move can keep them: it
changes nothing that AU reads (`State.Calm`), or it leaves AU to be told (`State.Unattended`) and AU re-evaluates
(`State.Unattended.attend`). -/

namespace Sys2Proof.Machine

/-! ### What AU reads of the table (08 R157, R159) -/

/-- PENDING, CLAIMED or SHOWN: of the entries AU may look at. -/
def Entry.presented (e : Entry) : Bool := e.state == .pending || e.isHeld

/-- What AU reads of an entry; nothing of one that is not presented. -/
def Entry.seen (e : Entry) : Option (EntryState × Byte × Option Nat × Option Nat × Bool) :=
  if e.presented then some (e.state, e.generation, e.precedence, e.stamp, e.sounded) else none

theorem Entry.seen_eq_none_iff (e : Entry) : e.seen = none ↔ e.presented = false := by
  simp [Entry.seen]

theorem Entry.presented_eq_false {e : Entry} {x : EntryState} (h : e.state = x)
    (other : x ≠ .pending ∧ x ≠ .claimed ∧ x ≠ .shown) : e.presented = false := by
  simp [Entry.presented, Entry.isHeld, h, other]

theorem Entry.presented_of_eligible {e : Entry} {threshold : Nat} (h : e.eligible threshold = true) :
    e.presented = true := by
  simp only [Entry.eligible, Entry.inAttentionSet, Entry.claimable, Bool.and_eq_true, Bool.or_eq_true] at h
  obtain ⟨⟨pending, -⟩ | held, -⟩ := h
  · simp [Entry.presented, pending]
  · simp [Entry.presented, held]

/-- Two entries that AU reads alike have one place in the pending order, or none. -/
theorem Entry.rank_eq_of_seen {e f : Entry} (threshold : Nat) (same : e.seen = f.seen) :
    (if e.eligible threshold then some e.pendingRank else none)
      = if f.eligible threshold then some f.pendingRank else none := by
  by_cases shown : e.presented = true
  · have other : f.presented = true := by
      by_contra not
      simp [Entry.seen, shown, not] at same
    simp only [Entry.seen, shown, other, if_true, Option.some.injEq, Prod.mk.injEq] at same
    obtain ⟨state, -, precedence, stamp, sounded⟩ := same
    have eligible : e.eligible threshold = f.eligible threshold := by
      simp only [Entry.eligible, Entry.inAttentionSet, Entry.claimable, Entry.isHeld, state, precedence, sounded]
    simp only [eligible, Entry.pendingRank, precedence, stamp]
  · have other : f.presented ≠ true := by
      intro not
      simp [Entry.seen, shown, not] at same
    rw [if_neg fun h => shown (Entry.presented_of_eligible h), if_neg fun h => other (Entry.presented_of_eligible h)]

/-- `leastFrom` reads of each element its rank, and so what the rank is made of. -/
theorem leastFrom_congr {α β : Type} {rank : α → Option (Nat × Nat)} {view : α → β}
    (reads : ∀ a b, view a = view b → rank a = rank b) {xs ys : List α} (n : Nat)
    (same : xs.map view = ys.map view) : leastFrom rank n xs = leastFrom rank n ys := by
  induction xs generalizing n ys with
  | nil => rw [List.map_eq_nil_iff.mp same.symm]
  | cons x xs ih =>
    cases ys with
    | nil => cases same
    | cons y ys =>
      obtain ⟨head, tail⟩ := List.cons.inj same
      simp only [leastFrom, reads x y head, ih (n + 1) tail]

theorem State.seen_entry (s : State) (i : Nat) : (s.entry i).seen = (s.table.map Entry.seen).getD i none :=
  (List.getD_map (d := Entry.freed 0) ..).symm

/-- An entry after one entry is changed: as it was, or the one changed. -/
theorem State.entry_modEntry_cases (s : State) (i : Nat) (f : Entry → Entry) (j : Nat) :
    (s.modEntry i f).entry j = s.entry j ∨ (j = i ∧ (s.modEntry i f).entry j = f (s.entry i)) := by
  by_cases same : j = i
  · subst same
    by_cases inTable : j < s.table.length
    · exact .inr ⟨rfl, State.entry_setEntry inTable _⟩
    · exact .inl (by simp [State.modEntry, State.setEntry, State.entry, inTable])
  · exact .inl (s.entry_setEntry_ne same _)

/-! ### Moves of which AU need not be told -/

/-- Nothing that AU reads changes, the owner and whether a cadence runs stay, and no entry joins the waiting set or
stands in it LOCATING no more. -/
structure State.Calm (s t : State) : Prop where
  owner : t.au.owner = s.au.owner
  cadence : t.au.cadence.isSome = s.au.cadence.isSome
  threshold : t.pu.threshold = s.pu.threshold
  seen : t.table.map Entry.seen = s.table.map Entry.seen
  waiting : t.ar.waiting.Sublist s.ar.waiting
  locating : ∀ i ∈ t.ar.waiting, (s.entry i).state = .locating → (t.entry i).state = .locating

theorem State.Calm.refl (s : State) : s.Calm s := ⟨rfl, rfl, rfl, rfl, .refl _, fun _ _ h => h⟩

theorem State.Calm.trans {s t u : State} (h : s.Calm t) (g : t.Calm u) : s.Calm u where
  owner := g.owner.trans h.owner
  cadence := g.cadence.trans h.cadence
  threshold := g.threshold.trans h.threshold
  seen := g.seen.trans h.seen
  waiting := g.waiting.trans h.waiting
  locating := fun i mem stood => g.locating i mem (h.locating i (g.waiting.subset mem) stood)

theorem State.Calm.foldl {α : Type} {f : State → α → State} (calm : ∀ (s : State) (x : α), s.Calm (f s x))
    (xs : List α) (s : State) : s.Calm (xs.foldl f s) := by
  induction xs generalizing s with
  | nil => exact .refl s
  | cons x xs ih => exact (calm s x).trans (ih _)

section Calm

variable {s t : State}

theorem State.Calm.seen_entry (h : s.Calm t) (i : Nat) : (t.entry i).seen = (s.entry i).seen := by
  rw [State.seen_entry, h.seen, ← State.seen_entry]

theorem State.Calm.unpresented (h : s.Calm t) {i : Nat} (quiet : (s.entry i).presented = false) :
    (t.entry i).presented = false := by
  rw [← Entry.seen_eq_none_iff] at quiet ⊢
  rw [h.seen_entry, quiet]

theorem State.Calm.presented (h : s.Calm t) {i : Nat} (shown : (t.entry i).presented = true) :
    (s.entry i).presented = true ∧ (t.entry i).generation = (s.entry i).generation
      ∧ (t.entry i).precedence = (s.entry i).precedence := by
  have stood : (s.entry i).presented = true := by
    by_contra not
    rw [h.unpresented (Bool.eq_false_iff.mpr not)] at shown
    cases shown
  have same := h.seen_entry i
  simp only [Entry.seen, shown, stood, if_true, Option.some.injEq, Prod.mk.injEq] at same
  obtain ⟨-, generation, precedence, -, -⟩ := same
  exact ⟨stood, generation, precedence⟩

theorem State.Calm.firstEligible (h : s.Calm t) : t.firstEligible = s.firstEligible := by
  simp only [State.firstEligible, State.leastEntry, h.threshold]
  rw [leastFrom_congr (fun _ _ => Entry.rank_eq_of_seen s.pu.threshold) 0 h.seen]

theorem State.Calm.waitLaw (h : s.Calm t) (law : s.WaitLaw) : t.WaitLaw :=
  ⟨law.1.sublist h.waiting, fun i mem => h.locating i mem (law.2 i (h.waiting.subset mem))⟩

theorem State.Calm.ownerLaw (h : s.Calm t) (law : s.OwnerLaw) : t.OwnerLaw := by
  obtain ⟨owner, cadence⟩ := law
  refine ⟨?_, by rw [h.cadence, h.owner, cadence]⟩
  rw [h.owner, owner, h.firstEligible]
  cases first : s.firstEligible with
  | none => rfl
  | some i =>
    have shown := Entry.presented_of_eligible (State.firstEligible_eligible (h.firstEligible.trans first)).2
    obtain ⟨-, generation, precedence⟩ := h.presented shown
    simp [State.ownerOf, generation, precedence]

/-- Moves of the parts that neither AU nor the waiting set reads. -/
theorem State.onlyChanges.calm {ps : List Part} (h : s.onlyChanges ps t)
    (unread : .au ∉ ps ∧ .pu ∉ ps ∧ .ar ∉ ps ∧ .table ∉ ps) : s.Calm t := by
  obtain ⟨au, pu, ar, table⟩ := unread
  replace au : t.au = s.au := h .au au
  replace pu : t.pu = s.pu := h .pu pu
  replace ar : t.ar = s.ar := h .ar ar
  replace table : t.table = s.table := h .table table
  refine ⟨by rw [au], by rw [au], by rw [pu], by rw [table], by rw [ar], fun i _ stood => ?_⟩
  simpa only [State.entry, table] using stood

end Calm

theorem State.withPu_calm (s : State) {x : Presentation} (threshold : x.threshold = s.pu.threshold) :
    s.Calm (s.withPu x) := ⟨rfl, rfl, threshold, rfl, .refl _, fun _ _ h => h⟩

theorem State.withAr_calm (s : State) {x : Resolver} (waiting : x.waiting.Sublist s.ar.waiting) :
    s.Calm (s.withAr x) := ⟨rfl, rfl, rfl, rfl, waiting, fun _ _ h => h⟩

theorem State.withAu_calm (s : State) {x : Attention} (owner : x.owner = s.au.owner)
    (cadence : x.cadence.isSome = s.au.cadence.isSome) : s.Calm (s.withAu x) :=
  ⟨owner, cadence, rfl, rfl, .refl _, fun _ _ h => h⟩

/-- An entry is replaced by one that AU reads alike. -/
theorem State.modEntry_calm (s : State) (i : Nat) {f : Entry → Entry} (seen : (f (s.entry i)).seen = (s.entry i).seen)
    (locating : i ∈ s.ar.waiting → (s.entry i).state = .locating → (f (s.entry i)).state = .locating) :
    s.Calm (s.modEntry i f) := by
  refine ⟨rfl, rfl, rfl, ?_, .refl _, fun j mem stood => ?_⟩
  · refine List.ext_getElem? fun j => ?_
    by_cases inTable : j < s.table.length
    · have here := s.entry_modEntry_cases i f j
      have place : ∀ t : State, t.table.length = s.table.length → t.table[j]? = some (t.entry j) := fun t same => by
        simp [State.entry, List.getD_eq_getElem?_getD, same, inTable]
      rw [List.getElem?_map, List.getElem?_map, place s rfl, place (s.modEntry i f) (List.length_set ..)]
      obtain kept | ⟨rfl, changed⟩ := here
      · rw [kept]
      · simp only [changed, Option.map_some, seen]
    · simp [State.modEntry, State.setEntry, inTable]
  · obtain kept | ⟨rfl, changed⟩ := s.entry_modEntry_cases i f j
    · rwa [kept]
    · rw [changed]; exact locating mem stood

/-! ### Moves of which AU is still to be told -/

/-- The laws of the waiting set and of attention. -/
structure State.Attentive (s : State) : Prop where
  wait : s.WaitLaw
  owner : s.OwnerLaw

/-- The laws but for what AU is still to be told: a cadence runs where there is an owner, and the owner's precedence is
the entry's, as long as the entry is presented. -/
structure State.Unattended (s : State) : Prop where
  wait : s.WaitLaw
  cadence : s.au.cadence.isSome = s.au.owner.isSome
  owner : ∀ o, s.au.owner = some o → (s.entry o.index).presented = true →
    o.precedence = (s.entry o.index).precedence.getD 0

section Unattended

variable {s t : State}

theorem State.Attentive.calm (h : s.Attentive) (calm : s.Calm t) : t.Attentive :=
  ⟨calm.waitLaw h.wait, calm.ownerLaw h.owner⟩

theorem State.Unattended.calm (h : s.Unattended) (calm : s.Calm t) : t.Unattended where
  wait := calm.waitLaw h.wait
  cadence := by rw [calm.cadence, calm.owner, h.cadence]
  owner := fun o owner shown => by
    obtain ⟨stood, -, precedence⟩ := calm.presented shown
    rw [precedence]
    exact h.owner o (calm.owner ▸ owner) stood

/-- The owner is an eligible entry. -/
theorem State.Attentive.owner_eligible (h : s.Attentive) {o : Owner} (owner : s.au.owner = some o) :
    o = s.ownerOf o.index ∧ (s.entry o.index).eligible s.pu.threshold = true := by
  rw [h.owner.1, Option.map_eq_some_iff] at owner
  obtain ⟨i, first, rfl⟩ := owner
  exact ⟨rfl, (State.firstEligible_eligible first).2⟩

theorem State.Attentive.unattended (h : s.Attentive) : s.Unattended where
  wait := h.wait
  cadence := h.owner.2
  owner := fun _ owner _ => congrArg Owner.precedence (h.owner_eligible owner).1

/-- An entry is changed, where the owner keeps its precedence as long as it stays presented. -/
theorem State.Unattended.modEntry (h : s.Unattended) (i : Nat) {f : Entry → Entry}
    (owner : ∀ o, s.au.owner = some o → o.index = i → (f (s.entry i)).presented = true →
      (s.entry i).presented = true ∧ (f (s.entry i)).precedence = (s.entry i).precedence)
    (locating : i ∈ s.ar.waiting → (f (s.entry i)).state = .locating) : (s.modEntry i f).Unattended where
  wait := ⟨h.wait.1, fun j mem => by
    obtain kept | ⟨rfl, changed⟩ := s.entry_modEntry_cases i f j
    · rw [kept]; exact h.wait.2 j mem
    · rw [changed]; exact locating mem⟩
  cadence := h.cadence
  owner := fun o own shown => by
    obtain kept | ⟨index, changed⟩ := s.entry_modEntry_cases i f o.index
    · rw [kept] at shown ⊢; exact h.owner o own shown
    · rw [changed] at shown ⊢
      obtain ⟨stood, precedence⟩ := owner o own index shown
      rw [precedence, ← index]
      exact h.owner o own (index ▸ stood)

end Unattended

/-! ### AU re-evaluates (08 R160, R163) -/

theorem Entry.soundsLike.kept {e f : Entry} (h : e.soundsLike f) :
    e.state = f.state ∧ e.precedence = f.precedence := by
  have same : { e with sounded := f.sounded } = f := h
  exact ⟨(congrArg Entry.state same :), (congrArg Entry.precedence same :)⟩

theorem State.setSounded_precedence (s : State) (i j : Nat) :
    ((s.setSounded i).entry j).precedence = (s.entry j).precedence :=
  (s.setSounded_soundsLike i j).kept.2

/-- Each owner with a silent cadence leaves one eligible entry fewer. -/
theorem State.setSounded_countP {s : State} {i : Nat} (first : s.firstEligible = some i) :
    (s.setSounded i).table.countP (·.eligible s.pu.threshold) < s.table.countP (·.eligible s.pu.threshold) := by
  obtain ⟨inTable, eligible⟩ := State.firstEligible_eligible first
  have place : s.entry i = s.table[i] := by simp [State.entry, inTable]
  have member : s.table[i] ∈ s.table := List.getElem_mem inTable
  have positive : 0 < s.table.countP (·.eligible s.pu.threshold) :=
    List.countP_pos_iff.mpr ⟨_, member, place ▸ eligible⟩
  have sounded : Entry.eligible { s.entry i with sounded := true } s.pu.threshold = false := by simp [Entry.eligible]
  simp only [State.setSounded, State.modEntry, State.setEntry, State.withTable_table, List.countP_set inTable, sounded,
    place ▸ eligible, if_true]
  simp only [Bool.false_eq_true, if_false]
  omega

/-- AU's re-evaluation ends with the first eligible entry as the owner, where the looks given are more than the eligible
entries. -/
theorem State.reevaluate_ownerLaw (n : Nat) {s : State} (cadence : s.au.cadence.isSome = s.au.owner.isSome)
    (owner : ∀ o, s.au.owner = some o → (s.entry o.index).presented = true →
      o.precedence = (s.entry o.index).precedence.getD 0)
    (few : s.table.countP (·.eligible s.pu.threshold) < n) : (State.reevaluate n s).OwnerLaw := by
  induction n generalizing s with
  | zero => exact absurd few (Nat.not_lt_zero _)
  | succ n ih =>
    unfold State.reevaluate
    cases first : s.firstEligible with
    | none =>
      have still : (s.withAu { s.au with owner := none, cadence := none }).firstEligible = none := first
      dsimp only
      rw [State.OwnerLaw, still]
      exact ⟨rfl, rfl⟩
    | some i =>
      dsimp only
      by_cases owns : s.isOwner i = true
      · rw [if_pos owns]
        refine ⟨?_, cadence⟩
        cases own : s.au.owner with
        | none => simp [State.isOwner, own] at owns
        | some o =>
          simp only [State.isOwner, own, Bool.and_eq_true, beq_iff_eq] at owns
          obtain ⟨index, generation⟩ := owns
          have shown := Entry.presented_of_eligible (State.firstEligible_eligible first).2
          have precedence := owner o own (by rwa [index])
          rw [index] at precedence
          obtain ⟨oi, og, op⟩ := o
          simp only at index generation precedence
          simp [first, State.ownerOf, index, generation, precedence]
      · rw [if_neg owns]
        split
        · refine ih (s := (s.becomeOwner i).setSounded i) rfl (fun o own shown => ?_) ?_
          · cases own
            rw [State.setSounded_precedence]
            rfl
          · have fewer := State.setSounded_countP (s := s.becomeOwner i) first
            exact Nat.lt_of_lt_of_le fewer (Nat.le_of_lt_succ few)
        · have still : (s.becomeOwner i).firstEligible = some i := first
          rw [State.OwnerLaw, still]
          exact ⟨rfl, rfl⟩

/-- AU changes no state of an entry. -/
theorem State.attend_entry_state (s : State) (i : Nat) : (s.attend.entry i).state = (s.entry i).state :=
  (s.reevaluate_soundsLike (s.table.length + 1) i).kept.1

/-- AU is told, and the laws hold again. -/
theorem State.Unattended.attend {s : State} (h : s.Unattended) : s.attend.Attentive where
  wait := by
    have ar : s.attend.ar = s.ar := s.attend_frame .ar (by decide)
    rw [State.WaitLaw, ar]
    exact ⟨h.wait.1, fun i mem => (s.attend_entry_state i).trans (h.wait.2 i mem)⟩
  owner := State.reevaluate_ownerLaw _ h.cadence h.owner (Nat.lt_succ_of_le List.countP_le_length)

end Sys2Proof.Machine

/-! The moves of the Alert Table and of the blocks beside it, under the laws of attention: each is calm, or AU is told
at its end. -/

namespace Sys2Proof.Machine

/-! ### Records and notices (05, 07) -/

theorem State.beginInterval_calm (s : State) (i interval : Nat) : s.Calm (s.beginInterval i interval) :=
  (s.drew_frame.calm (by decide)).trans (s.drew.modEntry_calm i rfl fun _ stood => stood)

theorem State.startOffer_calm (s : State) (i : Nat) : s.Calm (s.startOffer i) := s.beginInterval_calm i _

theorem State.resetOffer_calm (s : State) (i : Nat) : s.Calm (s.resetOffer i) := by
  unfold State.resetOffer
  split
  · exact s.startOffer_calm i
  · exact .refl s

theorem State.heardOffer_calm (s : State) (i : Nat) : s.Calm (s.heardOffer i) :=
  s.modEntry_calm i rfl fun _ stood => stood

theorem State.restartGap_calm (s : State) (i : Nat) : s.Calm (s.restartGap i) :=
  s.modEntry_calm i rfl fun _ stood => stood

theorem State.requestWant_calm (s : State) (i : Nat) : s.Calm (s.requestWant i) :=
  (s.requestWant_frame i).calm (by decide)

theorem State.startWant_calm (s : State) (i : Nat) : s.Calm (s.startWant i) :=
  s.modEntry_calm i rfl fun _ stood => stood

theorem State.askForAll_calm (s : State) (i : Nat) : s.Calm (s.askForAll i) :=
  (s.requestWant_calm i).trans (State.startWant_calm _ i)

theorem State.wantSent_calm (s : State) (issue : Issue) : s.Calm (s.wantSent issue) := by
  unfold State.wantSent
  split
  · exact s.modEntry_calm _ rfl fun _ stood => stood
  · exact .refl s

theorem State.relayAvailable_calm (s : State) : s.Calm s.relayAvailable :=
  (State.Calm.foldl State.resetOffer_calm _ s).trans
    (State.Calm.foldl (fun s i => (s.requestWant_calm i).trans (State.restartGap_calm _ i)) _ _)

theorem State.post_calm (s : State) (n : Notice) : s.Calm (s.post n) := by
  unfold State.post
  split
  · exact s.withPu_calm rfl
  · exact (s.flag_frame _).calm (by decide)

theorem State.postIfHeld_calm (s : State) (i : Nat) (kind : NoticeKind) (successor : Option Nat) :
    s.Calm (s.postIfHeld i kind successor) := by
  unfold State.postIfHeld
  split
  · exact s.post_calm _
  · exact .refl s

theorem State.emptySlot_calm (s : State) (i : Nat) : s.Calm (s.emptySlot i) := by
  unfold State.emptySlot
  split
  · exact s.withPu_calm rfl
  · exact .refl s

/-! ### Bodies and departures (01 R7, R16; 02 R43) -/

theorem State.releaseBody_calm (s : State) (i : Nat) : s.Calm (s.releaseBody i) := by
  have cleared : s.Calm ((s.modEntry i fun e => { e with map := emptyMap, offer := none }).withFree
      (s.free ++ (s.entry i).slots)) :=
    (s.modEntry_calm i rfl fun _ stood => stood).trans ((State.withFree_frame _ _).calm (by decide))
  unfold State.releaseBody
  dsimp only
  split
  · exact .refl s
  · split
    · exact cleared.trans ((State.removePieces_frame _ _ _).calm (by decide))
    · exact cleared

/-- An entry has left its claim slot and the waiting set. -/
theorem State.vacated_calm (s : State) (i : Nat) : s.Calm ((s.emptySlot i).leaveWaiting i) :=
  (s.emptySlot_calm i).trans (State.withAr_calm _ List.filter_sublist)

theorem State.not_mem_leaveWaiting (s : State) (i : Nat) : i ∉ (s.leaveWaiting i).ar.waiting := by
  simp [State.leaveWaiting]

theorem State.Calm.depart {s u : State} {i : Nat} {f : Entry → Entry} (h : s.Calm u)
    (quiet : (s.entry i).presented = false) (left : i ∉ u.ar.waiting) (gone : (f (u.entry i)).presented = false) :
    s.Calm (u.modEntry i f) := by
  have unseen : (u.entry i).seen = none := (Entry.seen_eq_none_iff _).mpr (h.unpresented quiet)
  exact h.trans (u.modEntry_calm i (unseen ▸ (Entry.seen_eq_none_iff _).mpr gone) fun mem => absurd mem left)

theorem State.Unattended.depart {s : State} {i : Nat} {f : Entry → Entry} (h : s.Unattended)
    (left : i ∉ s.ar.waiting) (gone : (f (s.entry i)).presented = false) : (s.modEntry i f).Unattended :=
  h.modEntry i (fun _ _ _ shown => by rw [gone] at shown; cases shown) fun mem => absurd mem left

theorem State.closeEntry_calm (s : State) {i : Nat} (reason : Reason) (quiet : (s.entry i).presented = false) :
    s.Calm (s.closeEntry i reason) :=
  (s.vacated_calm i).depart quiet (State.not_mem_leaveWaiting _ i) rfl

theorem State.Unattended.closeEntry {s : State} (h : s.Unattended) (i : Nat) (reason : Reason) :
    (s.closeEntry i reason).Unattended :=
  (h.calm (s.vacated_calm i)).depart (State.not_mem_leaveWaiting _ i) rfl

/-- An entry that goes to FREE has left map, claim slot and waiting set before. -/
theorem State.freed_calm (s : State) (i : Nat) : s.Calm (((s.releaseBody i).emptySlot i).leaveWaiting i) :=
  (s.releaseBody_calm i).trans (State.vacated_calm _ i)

theorem State.tellEnded_calm (s : State) (issue : Option Issue) (superseded : Bool) :
    s.Calm (s.tellEnded issue superseded) := (s.tellEnded_frame issue superseded).calm (by decide)

theorem State.freeEntry_calm (s : State) {i : Nat} (superseded : Bool) (quiet : (s.entry i).presented = false) :
    s.Calm (s.freeEntry i superseded) :=
  ((s.freed_calm i).depart quiet (State.not_mem_leaveWaiting _ i) rfl).trans (State.tellEnded_calm _ _ _)

theorem State.Unattended.freeEntry {s : State} (h : s.Unattended) (i : Nat) (superseded : Bool) :
    (s.freeEntry i superseded).Unattended :=
  ((h.calm (s.freed_calm i)).depart (State.not_mem_leaveWaiting _ i) rfl).calm (State.tellEnded_calm _ _ _)

theorem State.not_mem_freeEntry (s : State) (i : Nat) (superseded : Bool) :
    i ∉ (s.freeEntry i superseded).ar.waiting := by
  have ar : (s.freeEntry i superseded).ar = (((s.releaseBody i).emptySlot i).leaveWaiting i).ar :=
    State.tellEnded_frame _ _ _ .ar (by decide)
  rw [ar]
  exact State.not_mem_leaveWaiting _ i

/-! ### Entries and slots taken into use (01 R9, R29; 02 R41) -/

theorem State.findEntry_some {s : State} {p : Entry → Bool} {i : Nat} (h : s.findEntry p = some i) :
    p (s.entry i) = true := by
  obtain ⟨inTable, holds, -⟩ := List.findIdx?_eq_some_iff_getElem.mp h
  simpa [State.entry, inTable] using holds

theorem State.leastEntry_unpresented {s : State} {rank : Entry → Option (Nat × Nat)} {i : Nat}
    (h : s.leastEntry rank = some i) (quiet : ∀ e k, rank e = some k → e.presented = false) :
    (s.entry i).presented = false := by
  obtain ⟨-, k, ranked, -⟩ := State.leastEntry_some h
  exact quiet _ k ranked

theorem Entry.isHusk_unpresented {e : Entry} (h : e.isHusk = true) : e.presented = false := by
  simp only [Entry.isHusk, Bool.and_eq_true, beq_iff_eq] at h
  exact Entry.presented_eq_false h.1 (by decide)

/-- Table pressure reclaims entries that are not presented. -/
theorem State.reclaimChoice_unpresented {s : State} {key : Key} {cat : Category} {forOffer : Bool} {i : Nat}
    (h : s.reclaimChoice key cat forOffer = some i) : (s.entry i).presented = false := by
  unfold State.reclaimChoice at h
  split at h
  · next husk =>
    cases h
    refine State.leastEntry_unpresented husk fun e k ranked => ?_
    simp only [Entry.huskRank] at ranked
    split at ranked
    · cases ranked
    · split at ranked
      · next cond => exact Entry.isHusk_unpresented (Bool.and_eq_true_iff.mp cond).1
      · cases ranked
  · split at h
    · cases h
    · split at h
      · next closed =>
        cases h
        refine State.leastEntry_unpresented closed fun e k ranked => ?_
        have state : e.state = .closed := by by_contra not; simp [Entry.closedRank, not] at ranked
        exact Entry.presented_eq_false state (by decide)
      · split at h
        · next outside =>
          cases h
          refine State.leastEntry_unpresented outside fun e k ranked => ?_
          have state : e.state = .outside := by by_contra not; simp [Entry.outsideRank, not] at ranked
          exact Entry.presented_eq_false state (by decide)
        · refine State.leastEntry_unpresented h fun e k ranked => ?_
          have state : e.state = .assembling := by
            by_contra not
            unfold Entry.assemblingRank at ranked
            split at ranked <;> simp [not] at ranked
          exact Entry.presented_eq_false state (by decide)

theorem State.useEntry_calm (s : State) {i : Nat} (issue : Issue) (total : Nat) (cat : Category) (provisional : Bool)
    (quiet : (s.entry i).presented = false) (left : i ∉ s.ar.waiting) :
    s.Calm (s.useEntry i issue total cat provisional) := (State.Calm.refl s).depart quiet left rfl

theorem State.WaitLaw.not_mem {s : State} (law : s.WaitLaw) {i : Nat} (state : (s.entry i).state ≠ .locating) :
    i ∉ s.ar.waiting := fun mem => state (law.2 i mem)

/-- An entry taken into use is not presented, neither before nor after. -/
theorem State.takeEntry_calm {s t : State} {issue : Issue} {total : Nat} {cat : Category} {forOffer : Bool} {i : Nat}
    (law : s.WaitLaw) (h : s.takeEntry issue total cat forOffer = some (i, t)) :
    s.Calm t ∧ (t.entry i).presented = false := by
  have taken : s.Calm t ∧ (s.entry i).presented = false := by
    unfold State.takeEntry at h
    split at h
    · next free =>
      cases h
      have state : (s.entry i).state = .free := by simpa using State.findEntry_some free
      have quiet := Entry.presented_eq_false state (by decide)
      exact ⟨s.useEntry_calm _ _ _ _ quiet (law.not_mem (by simp [state])), quiet⟩
    · split at h
      · next reclaimed =>
        cases h
        have quiet := State.reclaimChoice_unpresented reclaimed
        have freed := s.freeEntry_calm false quiet
        have used := State.useEntry_calm _ issue total cat forOffer (freed.unpresented quiet)
          (s.not_mem_freeEntry i false)
        exact ⟨freed.trans used, quiet⟩
      · cases h
  exact ⟨taken.1, taken.1.unpresented taken.2⟩

theorem State.retarget_calm (s : State) (i : Nat) (issue : Issue) (total : Nat) (cat : Category) (provisional : Bool) :
    s.Calm (s.retarget i issue total cat provisional) :=
  (s.releaseBody_calm i).trans ((s.releaseBody i).modEntry_calm i rfl fun _ stood => stood)

theorem Entry.pressureRank4_unpresented {c : Settings} {key : Key} {cat : Category} {e : Entry} {k : Nat × Nat}
    (h : e.pressureRank4 c key cat = some k) : e.presented = false := by
  have state : e.state = .assembling := by
    by_contra not
    unfold Entry.pressureRank4 at h
    split at h <;> simp [not] at h
  exact Entry.presented_eq_false state (by decide)

theorem State.makeRoom_calm {s t : State} {key : Key} {cat : Category} (h : s.makeRoom key cat = some t) :
    s.Calm t := by
  unfold State.makeRoom at h
  split at h
  · cases h; exact s.releaseBody_calm _
  · split at h
    · cases h; exact s.releaseBody_calm _
    · split at h
      · cases h; exact s.releaseBody_calm _
      · split at h
        · next pressed =>
          cases h
          exact s.freeEntry_calm false (State.leastEntry_unpresented pressed fun _ _ => Entry.pressureRank4_unpresented)
        · cases h

theorem State.popSlot_calm {s t : State} {slot : Nat} (h : s.popSlot = some (slot, t)) : s.Calm t :=
  (s.popSlot_frame h).calm (by decide)

theorem State.findSlot_calm {s t : State} {key : Key} {cat : Category} {slot : Nat}
    (h : s.findSlot key cat = some (slot, t)) : s.Calm t := by
  unfold State.findSlot at h
  split at h
  · next popped => cases h; exact State.popSlot_calm popped
  · split at h
    · next room => exact (State.makeRoom_calm room).trans (State.popSlot_calm h)
    · cases h

/-! ### Completion (01 R13, R14, R24 to R26) -/

theorem State.checkFailed_calm (s : State) {i : Nat} (quiet : (s.entry i).presented = false) :
    s.Calm (s.checkFailed i) := by
  have collected : s.Calm (((s.releaseBody i).count .checkFail).modEntry i fun e =>
      { e with areas := [], bodyCheck := none, checkFailures := e.checkFailures + 1 }) :=
    ((s.releaseBody_calm i).trans ((State.count_frame _ _).calm (by decide))).trans
      (State.modEntry_calm _ i rfl fun _ stood => stood)
  unfold State.checkFailed
  dsimp only
  split
  · exact collected.trans (State.closeEntry_calm _ _ (collected.unpresented quiet))
  · exact (collected.trans (State.modEntry_calm _ i rfl fun _ stood => stood)).trans (State.restartGap_calm _ i)

theorem State.malformedBody_calm (s : State) {i : Nat} (quiet : (s.entry i).presented = false) :
    s.Calm (s.malformedBody i) := by
  have released : s.Calm ((s.count .malformed).releaseBody i) :=
    ((s.count_frame _).calm (by decide)).trans (State.releaseBody_calm _ i)
  exact released.trans (State.closeEntry_calm _ _ (released.unpresented quiet))

theorem State.Unattended.supersede {s : State} (h : s.Unattended) (i : Nat) (key : Key) (kind : NoticeKind)
    (successor : Option Nat) : (s.supersede i key kind successor).Unattended :=
  List.foldlRecOn _ _ h fun u hu j _ => (hu.calm (u.postIfHeld_calm j kind successor)).freeEntry j true

theorem State.Unattended.cancelOthers {s : State} (h : s.Unattended) (i : Nat) (key : Key) :
    (s.cancelOthers i key).Unattended := by
  refine List.foldlRecOn _ _ h fun u hu j _ => State.Unattended.freeEntry ?_ j false
  split
  · exact hu.calm (u.post_calm _)
  · exact hu

theorem State.Unattended.entryEnds {s : State} (h : s.Unattended) (issue : Issue) (superseded : Bool) :
    (s.entryEnds issue superseded).Unattended := h.calm ((s.entryEnds_frame issue superseded).calm (by decide))

theorem State.Unattended.completeCancel {s : State} (h : s.Unattended) (i : Nat) (issue : Issue) (life : Nat) :
    (s.completeCancel i issue life).Attentive := by
  have ended := ((h.closeEntry i .cancelled).cancelOthers i issue.key).entryEnds issue false
  refine State.Unattended.attend ?_
  split
  · exact ended.calm (State.releaseBody_calm _ i)
  · exact ended.calm (State.startOffer_calm _ i)

theorem State.Unattended.completeLive {s : State} (h : s.Unattended) (i : Nat) (issue : Issue) :
    (s.completeLive i issue).Attentive := by
  have located : (s.modEntry i fun e => { e with
      state := .locating, verdict := .undecided, replaces := s.replacesFor i issue.key
      followsAcknowledged := s.followsFor i issue.key }).Unattended :=
    h.modEntry i (fun _ _ _ shown => by cases shown) fun _ => rfl
  exact ((located.supersede i issue.key .superseded (some i)).calm (State.startOffer_calm _ i)).attend

theorem State.Unattended.completeExpired {s : State} (h : s.Unattended) (i : Nat) (issue : Issue) :
    (s.completeExpired i issue).Attentive := by
  have followed : s.Calm (s.modEntry i fun e => { e with
      replaces := s.replacesFor i issue.key, followsAcknowledged := s.followsFor i issue.key }) :=
    s.modEntry_calm i rfl fun _ stood => stood
  have closed := ((h.calm followed).closeEntry i .expired).supersede i issue.key .expired none
  exact ((closed.calm (State.releaseBody_calm _ i)).entryEnds issue false).attend

theorem State.Attentive.completeEntry {s : State} (h : s.Attentive) (i length : Nat) :
    (s.completeEntry i length).Attentive := by
  have expanded : s.Calm (s.modEntry i fun e => { e with
      expandedLength := some length, deadline := some (s.uptime + s.lifeOf (s.entry i)), want := none
      assemblyTimer := none }) := s.modEntry_calm i rfl fun _ stood => stood
  have h1 := h.calm expanded
  unfold State.completeEntry
  dsimp only
  split
  · split
    · exact h1.unattended.completeCancel i _ _
    · split
      · exact h1.unattended.completeLive i _
      · exact h1.unattended.completeExpired i _
  · exact h1

theorem State.Attentive.checkBody {s : State} (h : s.Attentive) {i : Nat} (quiet : (s.entry i).presented = false) :
    (s.checkBody i).Attentive := by
  unfold State.checkBody
  dsimp only
  split
  · split
    · exact h.completeEntry i _
    · exact h.calm (s.malformedBody_calm quiet)
    · exact h.calm (s.malformedBody_calm quiet)
  · exact h.calm (s.checkFailed_calm quiet)

/-! ### Fragment Intake (02 R31 to R38) -/

theorem State.Attentive.takeInto {s : State} (h : s.Attentive) (source : Source) (f : Fragment) (slot : Nat) {i : Nat}
    (quiet : (s.entry i).presented = false) : (s.takeInto source f slot i).Attentive := by
  have taken : s.Calm ((((s.withStore (s.store.write slot f.payload)).modEntry i fun e =>
      e.taking f source slot s.uptime s.assemblyEnd).restartGap i).count .fragmentsTaken) :=
    ((((s.withStore_frame _).calm (by decide)).trans (State.modEntry_calm _ i rfl fun _ stood => stood)).trans
      (State.restartGap_calm _ i)).trans ((State.count_frame _ _).calm (by decide))
  unfold State.takeInto
  dsimp only
  split
  · have full := taken.trans (State.modEntry_calm _ i (f := fun e => { e with assemblyTimer := none }) rfl
      fun _ stood => stood)
    exact (h.calm full).checkBody (full.unpresented quiet)
  · exact h.calm taken

theorem State.Attentive.count {s : State} (h : s.Attentive) (c : Counter) : (s.count c).Attentive :=
  h.calm ((s.count_frame c).calm (by decide))

theorem State.Attentive.flag {s : State} (h : s.Attentive) (f : Flag) : (s.flag f).Attentive :=
  h.calm ((s.flag_frame f).calm (by decide))

theorem State.Attentive.intakeAssembling {s : State} (h : s.Attentive) (source : Source) (f : Fragment) {i : Nat}
    (quiet : (s.entry i).presented = false) : (s.intakeAssembling source f i).Attentive := by
  unfold State.intakeAssembling
  dsimp only
  split
  · exact h.count _
  · split
    · split
      · next found =>
        have targeted := (State.findSlot_calm found).trans (State.retarget_calm _ i f.issue f.total f.category false)
        exact (h.calm targeted).takeInto source f _ (targeted.unpresented quiet)
      · exact h.flag _
    · split
      · exact h.count _
      · split
        · exact h.count _
        · split
          · next found =>
            have room := State.findSlot_calm found
            exact (h.calm room).takeInto source f _ (room.unpresented quiet)
          · exact h.flag _

theorem State.Attentive.intakeNew {s : State} (h : s.Attentive) (source : Source) (f : Fragment) :
    (s.intakeNew source f).Attentive := by
  unfold State.intakeNew
  split
  · next found =>
    have h1 := h.calm (State.findSlot_calm found)
    split
    · next taken =>
      obtain ⟨calm, quiet⟩ := State.takeEntry_calm h1.wait taken
      exact (h1.calm calm).takeInto source f _ quiet
    · exact (h1.calm ((State.withFree_frame _ _).calm (by decide))).flag _
  · exact h.flag _

theorem State.assemblingOf_unpresented {s : State} {key : Key} {i : Nat} (h : s.assemblingOf key = some i) :
    (s.entry i).presented = false := by
  have state := State.findEntry_some h
  simp only [Bool.and_eq_true, beq_iff_eq] at state
  exact Entry.presented_eq_false state.1 (by decide)

theorem State.Attentive.intake {s : State} (h : s.Attentive) (source : Source) (record : List Byte) :
    (s.intake source record).Attentive := by
  unfold State.intake
  split
  · exact h.count _
  · split
    · exact h.count _
    · split
      · exact h.count _
      · split
        · exact h.count _
        · split
          · next assembling => exact h.intakeAssembling source _ (State.assemblingOf_unpresented assembling)
          · exact h.intakeNew source _

/-! ### Acknowledgement and expiry (01 R17, R22) -/

theorem State.Unattended.acknowledge {s : State} (h : s.Unattended) (i : Nat) : (s.acknowledge i).Unattended := by
  have closed := (h.closeEntry i .acknowledged).calm (State.modEntry_calm _ i
    (f := fun e => { e with heldWhenAcknowledged := (s.entry i).isHeld }) rfl fun _ stood => stood)
  unfold State.acknowledge
  dsimp only
  split
  · exact closed.calm ((State.ackEvent_frame _ _ _).calm (by decide))
  · exact closed

theorem State.Attentive.expire {s : State} (h : s.Attentive) (i : Nat) : (s.expire i).Attentive := by
  have expired : (((((s.postIfHeld i .expired none).releaseBody i).closeEntry i .expired).tellEnded
      (s.entry i).issue false).attend).Attentive :=
    ((((h.unattended.calm (s.postIfHeld_calm i .expired none)).calm (State.releaseBody_calm _ i)).closeEntry i
      .expired).calm (State.tellEnded_calm _ _ _)).attend
  unfold State.expire
  split
  · exact h
  · exact h
  · exact h.calm (s.releaseBody_calm i)
  all_goals exact expired

end Sys2Proof.Machine

/-! The laws of attention under the verdicts, the requests of the host, the keys, the relay channel and
start-up. -/

namespace Sys2Proof.Machine

/-! ### Verdicts (01 R19, R20) -/

theorem State.Unattended.returnToAssembling {s : State} (h : s.Unattended) {i : Nat} (left : i ∉ s.ar.waiting) :
    (s.returnToAssembling i).Unattended := by
  unfold State.returnToAssembling
  split
  · split
    · exact h.freeEntry i false
    · exact (h.depart left rfl).calm (State.requestWant_calm _ i)
  · exact h

/-- A verdict places an entry that is not the owner. -/
theorem State.Unattended.place {s : State} (h : s.Unattended) {i : Nat} (v : Verdict) (precedence : Nat)
    (left : i ∉ s.ar.waiting) (other : ∀ o, s.au.owner = some o → o.index ≠ i) :
    (s.place i v precedence).Unattended := by
  have judged := h.calm (s.modEntry_calm i (f := fun e => { e with verdict := v }) rfl fun _ stood => stood)
  unfold State.place
  dsimp only
  split
  · exact judged.closeEntry i .withheld
  · exact judged.modEntry i (fun o own index => absurd index (other o own)) fun mem => absurd mem left

theorem State.Unattended.applyVerdict {s : State} (h : s.Unattended) {i : Nat} (v : Verdict)
    (other : ∀ o, s.au.owner = some o → o.index ≠ i) : (s.applyVerdict i v).Unattended := by
  have h1 := h.calm (s.withAr_calm (x := (s.leaveWaiting i).ar) List.filter_sublist)
  have left := s.not_mem_leaveWaiting i
  unfold State.applyVerdict
  dsimp only
  cases v with
  | outside => exact h1.depart left rfl
  | inside =>
    dsimp only
    split
    · exact h1.place .inside _ left other
    · exact h1.returnToAssembling left
  | unresolved =>
    dsimp only
    split
    · exact h1.place .unresolved _ left other
    · exact h1.returnToAssembling left
  | undecided => exact h1

/-- Verdicts of LOCATING entries: the owner, being presented, is none of them. -/
theorem State.Attentive.giveVerdicts {s : State} (h : s.Attentive) {vs : List (Nat × Verdict)}
    (locating : ∀ p ∈ vs, (s.entry p.1).state = .locating) : (s.giveVerdicts vs).Attentive := by
  have other : ∀ o, s.au.owner = some o → ∀ p ∈ vs, o.index ≠ p.1 := by
    intro o own p mem same
    have shown := Entry.presented_of_eligible (h.owner_eligible own).2
    rw [same, Entry.presented_eq_false (locating p mem) (by decide)] at shown
    cases shown
  have given := List.foldlRecOn (motive := fun t : State => t.Unattended ∧ t.au = s.au) vs
    (fun s p => s.applyVerdict p.1 p.2) ⟨h.unattended, rfl⟩ fun t ht p mem =>
      ⟨ht.1.applyVerdict p.2 fun o own => other o (ht.2 ▸ own) p mem,
        (t.applyVerdict_frame p.1 p.2 .au (by decide)).trans ht.2⟩
  exact (given.1.calm ((State.receiptEvents_frame _ _).calm (by decide))).attend

/-! ### Area Resolver (03) -/

theorem State.query_calm (s : State) : s.Calm s.query :=
  ((s.sendQuery_frame _).calm (by decide)).trans (State.withAr_calm _ (.refl _))

theorem State.queryIfNone_calm (s : State) : s.Calm s.queryIfNone := by
  unfold State.queryIfNone
  split
  · exact s.query_calm
  · exact .refl s

theorem Resolver.touched_waiting (r : Resolver) (cell : Word32) : (r.touched cell).waiting = r.waiting := by
  unfold Resolver.touched; split <;> rfl

theorem Resolver.filled_waiting (r : Resolver) (cell code : Word32) : (r.filled cell code).waiting = r.waiting := by
  unfold Resolver.filled; split <;> rfl

theorem State.touched_calm (s : State) (cell : Word32) : s.Calm (s.withAr (s.ar.touched cell)) :=
  s.withAr_calm (by rw [Resolver.touched_waiting])

theorem State.queryIfNone_waiting (s : State) : s.queryIfNone.ar.waiting = s.ar.waiting := by
  unfold State.queryIfNone; split <;> rfl

/-- A LOCATING entry that does not wait joins the waiting set. -/
theorem State.Attentive.joinWaiting {s : State} (h : s.Attentive) {i : Nat} (locating : (s.entry i).state = .locating)
    (left : i ∉ s.ar.waiting) : (s.joinWaiting i).Attentive := by
  refine State.Attentive.calm (s := s.withAr { s.ar with waiting := s.ar.waiting ++ [i] })
    ⟨⟨?_, fun j mem => ?_⟩, h.owner⟩ (State.queryIfNone_calm _)
  · exact List.nodup_append.mpr ⟨h.wait.1, by simp, fun a mem b single => by
      rintro rfl
      rw [List.mem_singleton.mp single] at mem
      exact left mem⟩
  · obtain waits | single := List.mem_append.mp mem
    · exact h.wait.2 j waits
    · rw [List.mem_singleton.mp single]; exact locating

theorem State.joinWaiting_waiting (s : State) (i : Nat) : (s.joinWaiting i).ar.waiting = s.ar.waiting ++ [i] :=
  State.queryIfNone_waiting _

theorem State.joinWaiting_table (s : State) (i : Nat) : (s.joinWaiting i).table = s.table :=
  s.joinWaiting_frame i .table (by decide)

/-- The state once AR has looked the serving cell up for an entry (03 R55). -/
def State.lookedUp (s : State) (i : Nat) : State := if s.looksUp i then s.withAr (s.ar.touched s.ar.cell) else s

theorem State.takeIn_of_verdict {p : State × List (Nat × Verdict)} {i : Nat} {v : Verdict}
    (verdict : p.1.verdictFor i = some v) : State.takeIn p i = (p.1.lookedUp i, p.2 ++ [(i, v)]) := by
  simp only [State.takeIn, verdict, State.lookedUp]

theorem State.takeIn_of_miss {p : State × List (Nat × Verdict)} {i : Nat} (miss : p.1.verdictFor i = none) :
    State.takeIn p i = ((p.1.lookedUp i).joinWaiting i, p.2) := by
  simp only [State.takeIn, miss, State.lookedUp]

theorem State.lookedUp_cases (s : State) (i : Nat) :
    s.lookedUp i = s.withAr (s.ar.touched s.ar.cell) ∨ s.lookedUp i = s := by
  unfold State.lookedUp
  split
  · exact .inl rfl
  · exact .inr rfl

theorem State.lookedUp_calm (s : State) (i : Nat) : s.Calm (s.lookedUp i) := by
  obtain looked | same := s.lookedUp_cases i
  · rw [looked]; exact s.touched_calm _
  · rw [same]; exact .refl s

theorem State.lookedUp_table (s : State) (i : Nat) : (s.lookedUp i).table = s.table := by
  obtain looked | same := s.lookedUp_cases i
  · rw [looked]; rfl
  · rw [same]

theorem State.lookedUp_waiting (s : State) (i : Nat) : (s.lookedUp i).ar.waiting = s.ar.waiting := by
  obtain looked | same := s.lookedUp_cases i
  · rw [looked]; exact Resolver.touched_waiting _ _
  · rw [same]

/-- The entry is LOCATING and does not wait, so that AR may take it in (03 R58). -/
def State.readyToResolve (s : State) (i : Nat) : Prop := (s.entry i).state = .locating ∧ i ∉ s.ar.waiting

/-- AR takes in LOCATING entries that do not wait: the laws stay, and each entry with a verdict is LOCATING. -/
theorem State.takeIn_attentive (is : List Nat) {p : State × List (Nat × Verdict)} (h : p.1.Attentive)
    (nodup : is.Nodup) (ready : ∀ i ∈ is, p.1.readyToResolve i)
    (judged : ∀ q ∈ p.2, (p.1.entry q.1).state = .locating) :
    (is.foldl State.takeIn p).1.Attentive
      ∧ ∀ q ∈ (is.foldl State.takeIn p).2, ((is.foldl State.takeIn p).1.entry q.1).state = .locating := by
  induction is generalizing p with
  | nil => exact ⟨h, judged⟩
  | cons i is ih =>
    obtain ⟨fresh, nodup⟩ := List.nodup_cons.mp nodup
    obtain ⟨locating, left⟩ := ready i List.mem_cons_self
    have looked := h.calm (p.1.lookedUp_calm i)
    have entry : ∀ j, (p.1.lookedUp i).entry j = p.1.entry j := fun j => by
      simp only [State.entry, State.lookedUp_table]
    rw [List.foldl_cons]
    cases verdict : p.1.verdictFor i with
    | some v =>
      rw [State.takeIn_of_verdict verdict]
      refine ih looked nodup (fun j mem => ?_) fun q mem => ?_
      · rw [State.readyToResolve, entry, State.lookedUp_waiting]
        exact ready j (List.mem_cons_of_mem i mem)
      · rw [entry]
        obtain before | single := List.mem_append.mp mem
        · exact judged q before
        · rw [List.mem_singleton.mp single]; exact locating
    | none =>
      have joined : ∀ j, ((p.1.lookedUp i).joinWaiting i).entry j = p.1.entry j := fun j => by
        simp only [State.entry, State.joinWaiting_table, State.lookedUp_table]
      rw [State.takeIn_of_miss verdict]
      refine ih (looked.joinWaiting (by rwa [entry]) (by rwa [State.lookedUp_waiting])) nodup (fun j mem => ?_)
        fun q mem => ?_
      · obtain ⟨stood, out⟩ := ready j (List.mem_cons_of_mem i mem)
        refine ⟨by rw [joined]; exact stood, ?_⟩
        simp only [State.joinWaiting_waiting, State.lookedUp_waiting, List.mem_append, List.mem_singleton, not_or]
        exact ⟨out, fun same => fresh (same ▸ mem)⟩
      · rw [joined]; exact judged q mem

theorem State.Attentive.resolve {s : State} (h : s.Attentive) {is : List Nat} (nodup : is.Nodup)
    (ready : ∀ i ∈ is, s.readyToResolve i) : (s.resolve is).Attentive := by
  obtain ⟨taken, locating⟩ := State.takeIn_attentive is (p := (s, [])) h nodup ready fun _ mem => by cases mem
  exact taken.giveVerdicts locating

theorem State.mem_indexes {s : State} {p : Entry → Bool} {i : Nat} (mem : i ∈ s.indexes p) : p (s.entry i) = true :=
  (List.mem_filter.mp mem).2

/-- The entry at an index, once every entry is changed. -/
theorem State.entry_mapTable (s : State) {f : Entry → Entry} (free : f (Entry.freed 0) = Entry.freed 0) (i : Nat) :
    (s.withTable (s.table.map f)).entry i = f (s.entry i) := by
  have map := List.getD_map (l := s.table) (n := i) (d := Entry.freed 0) f
  rw [free] at map
  exact map

/-- An entry at a change of serving cell: an OUTSIDE one goes to LOCATING (01 R20). -/
def Entry.relocated (e : Entry) : Entry :=
  if e.state = .outside then { e with state := .locating, verdict := .undecided } else e

theorem Entry.relocated_seen (e : Entry) : e.relocated.seen = e.seen := by
  unfold Entry.relocated
  split
  · next outside => exact ((Entry.seen_eq_none_iff e).mpr (Entry.presented_eq_false outside (by decide))).symm
  · rfl

/-- The state in which the LOCATING entries are resolved for the new cell (03 R50). -/
def State.relocated (s : State) : State :=
  (s.withTable (s.table.map Entry.relocated)).withAr { s.ar with waiting := [] }

theorem State.changeCell_eq (s : State) :
    s.changeCell = s.relocated.resolve (s.relocated.indexes fun e => e.state == .locating) := rfl

theorem State.relocated_calm (s : State) : s.Calm s.relocated := by
  refine ⟨rfl, rfl, rfl, ?_, List.nil_sublist _, fun _ mem => by cases mem⟩
  simp only [State.relocated, State.withAr_table, State.withTable_table, List.map_map]
  exact List.map_congr_left fun e _ => e.relocated_seen

theorem State.Attentive.changeCell {s : State} (h : s.Attentive) : s.changeCell.Attentive := by
  rw [State.changeCell_eq]
  refine (h.calm s.relocated_calm).resolve (List.nodup_range.filter _) fun i mem => ⟨?_, List.not_mem_nil⟩
  simpa using State.mem_indexes mem

theorem State.Attentive.judgeWaiting {s : State} (h : s.Attentive) (verdict : List Descriptor → Verdict) :
    (s.judgeWaiting verdict).Attentive := by
  refine (h.calm (s.withAr_calm (List.nil_sublist _))).giveVerdicts fun p mem => ?_
  obtain ⟨i, waits, rfl⟩ := List.mem_map.mp mem
  exact h.wait.2 i waits

theorem State.endQuery_calm (s : State) : s.Calm s.endQuery :=
  (s.clearQuery_frame.calm (by decide)).trans (State.withAr_calm _ (.refl _))

theorem State.Attentive.followUp {s : State} (h : s.Attentive) : s.followUp.Attentive := by
  unfold State.followUp
  split
  · exact h
  · split
    · exact h.judgeWaiting _
    · split
      · exact (h.calm (s.touched_calm _)).judgeWaiting _
      · exact h.calm s.query_calm

theorem State.Attentive.queryTimedOut {s : State} (h : s.Attentive) : s.queryTimedOut.Attentive := by
  have ended := (h.calm s.endQuery_calm).flag .queryTimeout
  unfold State.queryTimedOut
  dsimp only
  split
  · split
    · exact ended.judgeWaiting _
    · exact ended.followUp
  · exact h

theorem State.Attentive.regionAnswer {s : State} (h : s.Attentive) (cell : Word32) (code : Option Word32) :
    (s.regionAnswer cell code).Attentive := by
  unfold State.regionAnswer
  extract_lets s1
  have filled : s1.Attentive := by
    simp only [s1]
    split
    · split
      · exact h
      · exact h.calm (s.withAr_calm (by rw [Resolver.filled_waiting]))
    · exact h
  split
  · split
    · exact (filled.calm s1.endQuery_calm).judgeWaiting _
    · exact (filled.calm s1.endQuery_calm).followUp
  · exact filled

theorem State.Attentive.cellRecord {s : State} (h : s.Attentive) (cell : Word32) (service quality : Byte) :
    (s.cellRecord cell service quality).Attentive := by
  unfold State.cellRecord
  split
  · split
    · next sv _ _ =>
      have located := h.calm (s.withAr_calm
        (x := { s.ar with cell := cell, service := sv, quality := quality.toNat }) (.refl _))
      dsimp only
      split
      · exact located
      · exact located.changeCell
    · exact h.count _
  · exact h.count _

/-! ### The modem link (09) -/

theorem State.Attentive.hello {s : State} (h : s.Attentive) : s.hello.Attentive :=
  (((h.calm (s.withAr_calm (x := s.ar.invalidated) (.refl _))).queryTimedOut.calm
    ((State.helloUplink_frame _).calm (by decide))).calm ((State.withMl_frame _ _).calm (by decide)))

theorem State.Attentive.takeModem {s : State} (h : s.Attentive) (r : FromModem) : (s.takeModem r).Attentive := by
  cases r with
  | hello => exact h.hello
  | cell c service quality => exact h.cellRecord c service quality
  | fragment body => exact h.intake .broadcast body
  | region c code => exact h.regionAnswer c code
  | time seconds => exact h.calm ((s.setClock_frame seconds).calm (by decide))
  | uplinkResult issue accepted =>
    change (s.uplinkAnswered issue accepted).Attentive
    unfold State.uplinkAnswered
    split
    · exact h.calm ((s.endUplink_frame accepted).calm (by decide))
    · exact h.count _

theorem State.Attentive.modemEvent {s : State} (h : s.Attentive) (e : FramerEvent) : (s.modemEvent e).Attentive := by
  cases e with
  | record bytes =>
    simp only [State.modemEvent]
    split
    · exact h.takeModem _
    · exact h.count _
  | badLength => exact h.count _
  | truncated => exact h.count _

theorem State.Attentive.modemEvents {s : State} (h : s.Attentive) (m : ModemLink) (es : List FramerEvent) :
    (es.foldl State.modemEvent (s.withMl m)).Attentive :=
  List.foldlRecOn _ _ (h.calm ((s.withMl_frame m).calm (by decide))) fun _ ht e _ => ht.modemEvent e

theorem State.Attentive.modemBytes {s : State} (h : s.Attentive) (bytes : List Byte) :
    (s.modemBytes bytes).Attentive := by
  unfold State.modemBytes
  split
  · exact h.modemEvents _ _
  · exact h

theorem State.Attentive.fromModem {s : State} (h : s.Attentive) (kind : Byte) (body : List Byte) :
    (s.fromModem kind body).Attentive := h.modemBytes _

/-! ### The requests of the host (07 R141 to R150) -/

/-- A presented entry is changed, with its precedence kept. -/
theorem State.Unattended.modPresented {s : State} (h : s.Unattended) {i : Nat} {f : Entry → Entry}
    (shown : (s.entry i).presented = true) (precedence : (f (s.entry i)).precedence = (s.entry i).precedence) :
    (s.modEntry i f).Unattended :=
  h.modEntry i (fun _ _ _ _ => ⟨shown, precedence⟩) fun mem => by
    rw [Entry.presented_eq_false (h.wait.2 i mem) (by decide)] at shown
    cases shown

theorem Entry.presented_of_claimed {e : Entry} (h : e.state = .claimed) : e.presented = true := by
  simp [Entry.presented, Entry.isHeld, h]

/-- Every entry is changed: none becomes presented, and each that stays so keeps its precedence. -/
theorem State.Unattended.mapTable {s : State} (h : s.Unattended) {f : Entry → Entry}
    (free : f (Entry.freed 0) = Entry.freed 0)
    (shown : ∀ e, (f e).presented = true → e.presented = true ∧ (f e).precedence = e.precedence)
    (locating : ∀ e, e.state = .locating → (f e).state = .locating) : (s.withTable (s.table.map f)).Unattended where
  wait := ⟨h.wait.1, fun i mem => by rw [s.entry_mapTable free]; exact locating _ (h.wait.2 i mem)⟩
  cadence := h.cadence
  owner := fun o own stays => by
    rw [s.entry_mapTable free] at stays ⊢
    obtain ⟨stood, precedence⟩ := shown _ stays
    rw [precedence]
    exact h.owner o own stood

theorem State.Unattended.withPu {s : State} (h : s.Unattended) (x : Presentation) : (s.withPu x).Unattended :=
  ⟨h.wait, h.cadence, h.owner⟩

theorem State.Attentive.claim {s : State} (h : s.Attentive) : s.claim.state.Attentive := by
  unfold State.claim
  split
  · exact h
  · split
    · exact h
    · next slot _ _ i first =>
      obtain ⟨-, k, ranked, -⟩ := State.leastEntry_some first
      have claimable : (s.entry i).claimable s.pu.threshold = true := by by_contra not; simp [not] at ranked
      have pending : (s.entry i).state = .pending := by
        simp only [Entry.claimable, Bool.and_eq_true, beq_iff_eq] at claimable
        exact claimable.1
      have shown : (s.entry i).presented = true := by simp [Entry.presented, pending]
      have seated := h.unattended.withPu { s.pu with slots := s.pu.slots.set slot (some (s.handle i)) }
      exact (seated.modPresented (f := fun e => { e with state := .claimed, claimSlot := some slot }) shown rfl).attend

/-- The claim of a CLAIMED entry ends, with the entry left presented. -/
theorem State.Attentive.claimEnds {s : State} (h : s.Attentive) {i : Nat} (claimed : (s.entry i).state = .claimed)
    (target : EntryState) :
    (((s.emptySlot i).modEntry i fun e => { e with state := target, claimSlot := none }).attend).Attentive := by
  have same : (s.emptySlot i).entry i = s.entry i := by
    have table : (s.emptySlot i).table = s.table := s.emptySlot_frame i .table (by decide)
    simp only [State.entry, table]
  refine State.Unattended.attend ((h.unattended.calm (s.emptySlot_calm i)).modPresented ?_ rfl)
  rw [same]
  exact Entry.presented_of_claimed claimed

theorem State.Attentive.restart {s : State} (h : s.Attentive) : s.restart.state.Attentive := by
  refine ((h.unattended.mapTable (f := Entry.unclaimed) rfl (fun e shown => ?_) fun e locating => ?_).withPu _).attend
  · unfold Entry.unclaimed at shown ⊢
    split
    · next claimed => exact ⟨Entry.presented_of_claimed claimed, rfl⟩
    · next other => rw [if_neg other] at shown; exact ⟨shown, rfl⟩
  · simp [Entry.unclaimed, locating]

theorem State.Attentive.setOptout {s : State} (h : s.Attentive) (mask : Byte) : (s.setOptout mask).state.Attentive :=
  State.Unattended.attend (List.foldlRecOn (motive := State.Unattended) _ _
    (h.unattended.withPu { s.pu with optout := optoutOf mask }) fun _ ht i _ => ht.closeEntry i .withheld)

/-- A request whose handle fits is carried out. -/
theorem State.Attentive.carryOut {s : State} (h : s.Attentive) {r : Request} (fits : s.fits r = true) :
    (s.carryOut r).state.Attentive := by
  cases r with
  | claim => exact h.claim
  | read handle offset length =>
    simp only [State.carryOut, State.read]
    split <;> exact h
  | complete handle =>
    simp only [State.fits, Bool.and_eq_true, beq_iff_eq] at fits
    exact h.claimEnds fits.2 .shown
  | release handle =>
    simp only [State.fits, Bool.and_eq_true, beq_iff_eq] at fits
    exact h.claimEnds fits.2 .pending
  | ack handle => exact (h.unattended.acknowledge handle.index).attend
  | fetchNotice =>
    simp only [State.carryOut, State.fetchNotice]
    split
    · exact h
    · exact h.calm (s.withPu_calm rfl)
  | status => exact h.calm ((s.withFlags_frame _).calm (by decide))
  | restart => exact h.restart
  | setThreshold n => exact (h.unattended.withPu _).attend
  | setOptout mask => exact h.setOptout mask

theorem State.Attentive.replyTo {s : State} (h : s.Attentive) (q : EndedRequest) : (s.replyTo q).state.Attentive := by
  unfold State.replyTo
  split
  · exact h
  · split
    · exact h
    · unfold State.judge
      split
      · exact h
      · split
        · exact h
        · next fits => exact h.carryOut (by simpa using fits)

/-! ### The application link (09 R180 to R182) -/

theorem State.Attentive.withAl {s : State} (h : s.Attentive) (a : AppLink) : (s.withAl a).Attentive :=
  h.calm ((s.withAl_frame a).calm (by decide))

theorem State.Attentive.runTo {s : State} (h : s.Attentive) (t : Nat) : (s.runTo t).Attentive :=
  h.calm ((s.runTo_frame t).calm (by decide))

theorem State.Attentive.requestEnds {w : Stretch} (h : w.state.Attentive) (e : FramerEvent) :
    (w.requestEnds e).state.Attentive := by
  unfold Stretch.requestEnds
  dsimp only
  split
  · exact h.withAl _
  · exact (h.withAl _).replyTo _

theorem State.Attentive.framed {w : Stretch} (h : w.state.Attentive) (r : Framer × List FramerEvent) :
    (w.framed r).state.Attentive :=
  List.foldlRecOn (motive := fun w : Stretch => w.state.Attentive) _ _ (h.withAl _) fun _ hw e _ => hw.requestEnds e

theorem State.Attentive.input {w : Stretch} (h : w.state.Attentive) (x : HostInput) : (w.input x).state.Attentive := by
  cases x with
  | bytes bs =>
    simp only [Stretch.input, Stretch.bytesCome]
    split
    · exact h
    · exact State.Attentive.framed (w := { w with state := _ }) (h.withAl _) _
  | gap =>
    simp only [Stretch.input, Stretch.gapPasses]
    split
    · exact h
    · exact State.Attentive.framed (h.runTo _) _

theorem State.Attentive.fromHost {s : State} (h : s.Attentive) (inputs : List HostInput) :
    (s.fromHost inputs).Attentive := by
  have taken : (inputs.foldl Stretch.input ⟨s, none⟩).state.Attentive :=
    List.foldlRecOn (motive := fun w : Stretch => w.state.Attentive) _ _ h fun _ hw x _ => hw.input x
  unfold State.fromHost Stretch.placed
  split
  · exact taken.withAl _
  · exact taken

theorem State.Attentive.hostRequest {s : State} (h : s.Attentive) (kind : Byte) (body : List Byte)
    (during : List HostInput) : (s.hostRequest kind body during).Attentive := h.fromHost _

/-! ### Cadences and keys (08) -/

theorem State.Attentive.completeCadence {s : State} (h : s.Attentive) : s.completeCadence.Attentive := by
  unfold State.completeCadence
  split
  · exact (h.unattended.modEntry _ (fun _ _ _ shown => ⟨shown, rfl⟩) (h.wait.2 _)).attend
  · exact h

theorem State.Attentive.phaseEnds {s : State} (h : s.Attentive) (o : Output) {c : Cadence}
    (runs : s.au.cadence = some c) : (s.phaseEnds o c).Attentive := by
  have moved : ∀ c1 : Cadence, (s.withAu { s.au with cadence := some c1 }).Attentive := fun c1 =>
    h.calm (s.withAu_calm rfl (by rw [runs]; rfl))
  unfold State.phaseEnds
  dsimp only
  split
  · exact (moved _).completeCadence
  · exact moved _

theorem State.setKey_calm (s : State) (k : KeyName) (x : KeyState) : s.Calm (s.setKey k x) := by
  cases k <;> exact s.withAu_calm rfl rfl

theorem State.Attentive.ackPress {s : State} (h : s.Attentive) : s.ackPress.Attentive := by
  unfold State.ackPress
  split
  · refine State.Unattended.attend ?_
    split
    · exact (h.unattended.acknowledge _).calm (State.post_calm _ _)
    · exact h.unattended.acknowledge _
  · exact h.count _

theorem State.Attentive.silencePress {s : State} (h : s.Attentive) : s.silencePress.Attentive := by
  have silenced : s.silenceAll.Unattended := by
    refine h.unattended.mapTable (by simp [Entry.eligible, Entry.inAttentionSet, Entry.claimable, Entry.isHeld,
      Entry.freed]) (fun e shown => ?_) fun e locating => ?_
    · split at shown
      · next eligible => exact ⟨shown, by rw [if_pos eligible]⟩
      · next not => exact ⟨shown, by rw [if_neg not]⟩
    · split <;> exact locating
  unfold State.silencePress
  split
  · exact (silenced.calm (State.postIfHeld_calm _ _ _ _)).attend
  · exact h

theorem State.Attentive.debounced {s : State} (h : s.Attentive) (k : KeyName) : (s.debounced k).Attentive := by
  have accepted := fun x => h.calm (s.setKey_calm k x)
  unfold State.debounced
  dsimp only
  split
  · cases k with
    | ack => exact (accepted _).ackPress
    | silence => exact (accepted _).silencePress
  · exact accepted _

/-! ### The relay channel (04, 05, 06) -/

theorem State.Attentive.settleOffer {s : State} (h : s.Attentive) (issue : Issue) (total : Nat) (cat : Category) :
    (s.settleOffer issue total cat).Attentive := by
  have beyond : (s.offerBeyond issue total cat).Attentive := by
    unfold State.offerBeyond
    split
    · next i _ =>
      unfold State.offerAssembling
      split
      · exact h
      · split
        · split
          · exact h
          · exact h.calm (s.requestWant_calm i)
        · exact h.calm ((s.retarget_calm i _ _ _ _).trans (State.askForAll_calm _ i))
    · unfold State.offerNew
      split
      · next taken => exact (h.calm (State.takeEntry_calm h.wait taken).1).calm (State.askForAll_calm _ _)
      · exact h
  unfold State.settleOffer
  split
  · split
    · exact h.calm (s.resetOffer_calm _)
    · split
      · exact h.calm (s.heardOffer_calm _)
      · exact h
  · split
    · split
      · exact h.calm (s.resetOffer_calm _)
      · split
        · exact h.calm (s.heardOffer_calm _)
        · exact beyond
    · exact beyond

theorem State.settleWant_calm (s : State) (issue : Issue) (wanted : Word16) : s.Calm (s.settleWant issue wanted) := by
  unfold State.settleWant
  extract_lets s1
  have reset : s.Calm s1 := by
    simp only [s1]
    split
    · exact s.resetOffer_calm _
    · exact .refl s
  split
  · next i _ =>
    exact reset.trans (State.Calm.foldl (fun u k => (u.supplyIndex_frame i issue k).calm (by decide)) _ _)
  · exact reset

theorem State.Attentive.deliver {s : State} (h : s.Attentive) (kind : FrameKind) (sender : Word32) (body : List Byte) :
    (s.deliver kind sender body).Attentive := by
  cases kind with
  | offer =>
    simp only [State.deliver, State.hearOffer]
    split
    · exact h.settleOffer _ _ _
    · exact h.count _
  | want =>
    simp only [State.deliver, State.hearWant]
    split
    · exact h.calm (s.settleWant_calm _ _)
    · exact h.count _
  | piece =>
    simp only [State.deliver, State.hearPiece]
    split
    · exact (h.intake .relay body).calm ((State.removePieces_frame _ _ _).calm (by decide))
    · exact h.intake .relay body
  | tally => exact h.calm ((s.hearTally_frame body).calm (by decide))
  | stand => exact h.calm ((s.hearStand_frame sender body).calm (by decide))
  | covered => exact h.calm ((s.hearCovered_frame body).calm (by decide))
  | yield => exact h.calm ((s.hearYield_frame sender body).calm (by decide))

theorem State.Attentive.receive {s : State} (h : s.Attentive) (bytes : List Byte) : (s.receive bytes).Attentive := by
  unfold State.receive
  split
  · exact h
  · split
    · unfold State.takeFrame
      split
      · exact h
      · refine State.Attentive.deliver ?_ _ _ _
        split
        · exact h.calm (s.clash_frame.calm (by decide))
        · exact h
    · exact h.count _

theorem State.portUp_calm (s : State) : s.Calm s.portUp :=
  (((s.withCs_frame _).calm (by decide)).trans (State.relayAvailable_calm _)).trans
    ((State.arbitrate_frame _).calm (by decide))

/-! ### Start-up (10 R184, R185) -/

theorem State.readKey_calm (s : State) (k : KeyName) : s.Calm (s.readKey k) :=
  ((s.afterLevel_frame k _).calm (by decide)).trans (State.setKey_calm _ k _)

theorem State.openPort_calm (s : State) : s.Calm s.openPort := by
  have window := fun x => (s.withCs_frame x).calm (by decide)
  unfold State.openPort
  dsimp only
  split
  · exact (window _).trans (State.portUp_calm _)
  · exact window _

theorem State.becomeReady_calm (s : State) : s.Calm s.becomeReady :=
  ((((((s.withSl_frame _).calm (by decide)).trans ((State.drawTag_frame _).calm (by decide))).trans
    ((State.withMl_frame _ _).calm (by decide))).trans (State.readKey_calm _ .ack)).trans
      (State.readKey_calm _ .silence)).trans (State.openPort_calm _)

/-- At power-on no entry waits, and there is neither entry nor owner nor cadence. -/
theorem State.poweredOn_attentive (s : State) : s.poweredOn.Attentive := by
  have reset : State.reset.Calm s.poweredOn := ⟨rfl, rfl, rfl, rfl, .refl _, fun _ mem => by cases mem⟩
  refine State.Attentive.calm ⟨⟨List.nodup_nil, fun _ mem => by cases mem⟩, ?_⟩ reset
  unfold State.OwnerLaw
  decide +kernel

end Sys2Proof.Machine

/-! Every command keeps the laws of attention, and with the tick every step. -/

namespace Sys2Proof.Machine

/-- The outcome, where it is a next state, obeys the laws of attention. -/
def endsAttentive (o : Host.Outcome State Fault Refusal) : Prop := ∀ t, o = .next t → t.Attentive

theorem State.Attentive.next {s : State} (h : s.Attentive) : endsAttentive (.next s) := by
  rintro t ⟨⟩
  exact h

theorem State.Calm.next {s t : State} (calm : s.Calm t) (h : s.Attentive) : endsAttentive (.next t) :=
  (h.calm calm).next

/-- A timer's end keeps the laws where its block does. -/
theorem State.Attentive.runsOut {s : State} (h : s.Attentive) {t : Nat} {act : State → State}
    (acts : (s.runTo t).Attentive → (act (s.runTo t)).Attentive) : (s.runsOut t act).Attentive := by
  unfold State.runsOut
  split
  · exact acts (h.runTo t)
  · exact h

section Commands

variable {s : State} (h : s.Attentive)
include h

/-! ### Start-up (10) -/

theorem State.Attentive.defaulted : s.defaulted.Attentive := (h.flag .configDefaulted).calm (State.becomeReady_calm _)

theorem State.Attentive.spoiled : s.spoiled.Attentive := (h.flag .configCrc).calm (State.becomeReady_calm _)

theorem execConfigProbe_attentive (answer : Option Word16) : endsAttentive (execConfigProbe answer s) := by
  refine State.Attentive.next ?_
  split
  · split
    · split
      · exact h.calm ((s.withSl_frame _).calm (by decide))
      · exact h.defaulted
    · exact h.defaulted
  · exact h

theorem execConfigRecord_attentive (first value : Word16) : endsAttentive (execConfigRecord first value s) := by
  refine State.Attentive.next ?_
  split
  · split
    · unfold State.takeRecord
      refine State.Attentive.calm ?_ ((State.withSl_frame _ _).calm (by decide))
      split
      · exact h.calm ((s.withSettings_frame _).calm (by decide))
      · exact h.count _
    · exact h.spoiled
  · exact h

theorem execConfigCheckWord_attentive (word : Word16) : endsAttentive (execConfigCheckWord word s) := by
  refine State.Attentive.next ?_
  split
  · split
    · exact h.calm s.becomeReady_calm
    · exact h.spoiled
  · exact h

theorem execMemorySilent_attentive : endsAttentive (execMemorySilent s) := by
  refine State.Attentive.next ?_
  split
  · exact h.spoiled
  · exact h

/-! ### The modem link and the application link (09) -/

theorem execModemGapTimeout_attentive (bytes : List Byte) : endsAttentive (execModemGapTimeout bytes s) := by
  refine State.Attentive.next ?_
  dsimp only
  split
  · exact h.modemBytes bytes
  · exact (h.modemBytes bytes).runsOut fun later => later.modemEvents _ _

theorem execModemRecordSent_attentive : endsAttentive (execModemRecordSent s) := by
  refine State.Attentive.next ?_
  split
  · exact h.calm ((s.withMl_frame _).calm (by decide))
  · exact h

theorem execHeldRequest_attentive : endsAttentive (execHeldRequest s) := by
  refine State.Attentive.next ?_
  split
  · next q _ => exact (h.replyTo q).withAl _
  · exact h

/-! ### The radio port (04) -/

theorem execReadyRise_attentive : endsAttentive (execReadyRise s) := by
  have risen := h.calm ((s.withCs_frame { s.cs with ready := true }).calm (by decide))
  refine State.Attentive.next ?_
  split
  · exact risen.calm (State.portUp_calm _)
  · exact risen

theorem execReadyFall_attentive : endsAttentive (execReadyFall s) := by
  have fallen := h.calm ((s.withCs_frame { s.cs with ready := false }).calm (by decide))
  refine State.Attentive.next ?_
  split
  · exact fallen
  · exact fallen.calm ((State.portDown_frame _).calm (by decide))

theorem execBusyFall_attentive : endsAttentive (execBusyFall s) := by
  have fallen := h.calm ((s.withCs_frame { s.cs with busy := false }).calm (by decide))
  refine State.Attentive.next ?_
  split
  · split
    · exact fallen.calm ((State.countOn_frame _ _).calm (by decide))
    · exact fallen
  · exact fallen

theorem execBackoffSlotEnd_attentive (busyRises : Bool) : endsAttentive (execBackoffSlotEnd busyRises s) := by
  refine State.Attentive.next ?_
  split
  · split
    · exact h.runsOut fun later => later.calm ((State.slotEnds_frame _ _ _).calm (by decide))
    · exact h
  · exact h

theorem execSent_attentive : endsAttentive (execSent s) := by
  refine State.Attentive.next ?_
  split
  · next f _ =>
    refine State.Attentive.calm (s := State.tellSent _ f.payload) ?_ ((State.arbitrate_frame _).calm (by decide))
    have counted := (h.count .framesSent).calm ((State.withCs_frame _
      { s.cs with inFlight := none, timeoutRun := 0, cw := s.settings.cwMin }).calm (by decide))
    cases f.payload with
    | want => exact counted.calm (State.wantSent_calm _ _)
    | _ => exact counted
  · exact h

theorem execLost_attentive : endsAttentive (execLost s) := by
  refine State.Attentive.next ?_
  split
  · exact (((h.count _).calm ((State.withCs_frame _ _).calm (by decide))).calm
      ((State.putBack_frame _ _).calm (by decide))).calm ((State.contendAfterLoss_frame _ _).calm (by decide))
  · exact h

theorem execPortTimeout_attentive : endsAttentive (execPortTimeout s) := by
  refine State.Attentive.next ?_
  split
  · exact h.runsOut fun later => later.calm ((State.portTimesOut_frame _ _).calm (by decide))
  · exact h

theorem execLateAnswerGuardEnd_attentive : endsAttentive (execLateAnswerGuardEnd s) := by
  refine State.Attentive.next ?_
  split
  · exact h.runsOut fun later => (later.calm ((State.withCs_frame _ _).calm (by decide))).calm
      ((State.tryHandOver_frame _).calm (by decide))
  · exact h

theorem execTagRedraw_attentive : endsAttentive (execTagRedraw s) := by
  refine State.Attentive.next ?_
  split
  · exact h.calm (s.drawTag_frame.calm (by decide))
  · exact h

/-! ### Timers of the Alert Table, the Area Resolver and the Relay Scheduler (01, 03, 05) -/

theorem execAssemblyTimeout_attentive (i : Nat) : endsAttentive (execAssemblyTimeout i s) := by
  refine State.Attentive.next ?_
  split
  · next assembling _ =>
    exact h.runsOut fun later => later.calm
      (State.freeEntry_calm _ false (Entry.presented_eq_false (e := s.entry i) assembling (by decide)))
  · exact h

theorem execExpiryDeadline_attentive (i : Nat) : endsAttentive (execExpiryDeadline i s) := by
  refine State.Attentive.next ?_
  split
  · split
    · exact h.runsOut fun later => later.expire i
    · exact h
  · exact h

theorem execHuskHoldEnd_attentive (i : Nat) : endsAttentive (execHuskHoldEnd i s) := by
  refine State.Attentive.next ?_
  split
  · next husk =>
    exact h.runsOut fun later => later.calm
      (State.freeEntry_calm _ false (Entry.isHusk_unpresented (e := s.entry i) husk))
  · exact h

theorem execVerdictProcedure_attentive (i : Nat) : endsAttentive (execVerdictProcedure i s) := by
  refine State.Attentive.next ?_
  split
  · next ready =>
    refine h.resolve (List.nodup_singleton i) fun j mem => ?_
    rw [List.mem_singleton.mp mem]
    exact ready
  · exact h

theorem execQueryTimerEnd_attentive : endsAttentive (execQueryTimerEnd s) := by
  refine State.Attentive.next ?_
  split
  · exact h.runsOut fun later => later.queryTimedOut
  · exact h

theorem execOfferPoint_attentive (i : Nat) : endsAttentive (execOfferPoint i s) := by
  refine State.Attentive.next ?_
  split
  · next r _ =>
    split
    · exact h
    · refine h.runsOut fun later => ?_
      have passed := fun u : State => u.modEntry_calm i
        (f := fun e => { e with offer := some { r with pointPassed := true } }) rfl fun _ stood => stood
      unfold State.reachPoint
      dsimp only
      split
      · exact (later.calm (passed _)).calm ((State.requestOffer_frame _ _).calm (by decide))
      · exact later.calm (passed _)
  · exact h

theorem execOfferIntervalEnd_attentive (i : Nat) : endsAttentive (execOfferIntervalEnd i s) := by
  refine State.Attentive.next ?_
  split
  · exact h.runsOut fun later => later.calm (State.beginInterval_calm _ i _)
  · exact h

theorem execGapFillTimerEnd_attentive (i : Nat) : endsAttentive (execGapFillTimerEnd i s) := by
  refine State.Attentive.next ?_
  split
  · exact h.runsOut fun later => later.calm ((State.requestWant_calm _ i).trans (State.restartGap_calm _ i))
  · exact h

/-! ### Timers of the Report Unit (06) -/

/-- A tally's timer keeps the laws where what RU then does is calm. -/
theorem State.Attentive.tallyTimer (k : Nat) (state : AgentState) {act : State → State}
    (calm : ∀ u : State, u.Calm (act u)) : (s.tallyTimer k state act).Attentive := by
  unfold State.tallyTimer
  split
  · split
    · split
      · exact h.runsOut fun later => later.calm (calm _)
      · exact h
    · exact h
  · exact h

theorem execUplinkTimeoutEnd_attentive : endsAttentive (execUplinkTimeoutEnd s) := by
  refine State.Attentive.next ?_
  split
  · split
    · exact h.tallyTimer _ _ fun u =>
        ((u.flag_frame _).calm (by decide)).trans ((State.endUplink_frame _ _).calm (by decide))
    · exact h
  · exact h

/-! ### Attention and keys (08) -/

theorem execCadencePhaseEnd_attentive (o : Output) : endsAttentive (execCadencePhaseEnd o s) := by
  refine State.Attentive.next ?_
  split
  · next runs =>
    split
    · exact h.runsOut fun later => later.phaseEnds o runs
    · exact h
  · exact h

theorem execKeyEdge_attentive (k : KeyName) (drive : Drive) : endsAttentive (execKeyEdge k drive s) := by
  refine State.Attentive.next ?_
  dsimp only
  split
  · exact (h.calm ((s.afterLevel_frame k drive).calm (by decide))).calm (State.setKey_calm _ k _)
  · exact h.calm (s.setKey_calm k _)

theorem execDebounceEnd_attentive (k : KeyName) : endsAttentive (execDebounceEnd k s) := by
  refine State.Attentive.next ?_
  split
  · exact h.runsOut fun later => later.debounced k
  · exact h

/-! ### Every command -/

theorem exec_attentive (c : Instr) : endsAttentive (exec c s) := by
  cases c with
  | powerOn => exact s.poweredOn_attentive.next
  | configProbe answer => exact execConfigProbe_attentive h answer
  | configRecord first value => exact execConfigRecord_attentive h first value
  | configCheckWord word => exact execConfigCheckWord_attentive h word
  | memorySilent => exact execMemorySilent_attentive h
  | hello => exact (h.fromModem _ _).next
  | cell => exact (h.fromModem _ _).next
  | fragment => exact (h.fromModem _ _).next
  | region => exact (h.fromModem _ _).next
  | time => exact (h.fromModem _ _).next
  | uplinkResult => exact (h.fromModem _ _).next
  | linkRecordDropped => exact (h.modemBytes _).next
  | modemGapTimeout bytes => exact execModemGapTimeout_attentive h bytes
  | modemReadyRise => exact ((s.withMl_frame _).calm (by decide)).next h
  | modemReadyFall => exact ((s.withMl_frame _).calm (by decide)).next h
  | modemRecordSent => exact execModemRecordSent_attentive h
  | claim => exact (h.hostRequest _ _ _).next
  | read => exact (h.hostRequest _ _ _).next
  | complete => exact (h.hostRequest _ _ _).next
  | release => exact (h.hostRequest _ _ _).next
  | ack => exact (h.hostRequest _ _ _).next
  | fetchNotice => exact (h.hostRequest _ _ _).next
  | status => exact (h.hostRequest _ _ _).next
  | restart => exact (h.hostRequest _ _ _).next
  | setThreshold => exact (h.hostRequest _ _ _).next
  | setOptout => exact (h.hostRequest _ _ _).next
  | badRequestRecord => exact (h.fromHost _).next
  | appGapTimeout => exact (h.fromHost _).next
  | heldRequest => exact execHeldRequest_attentive h
  | readyRise => exact execReadyRise_attentive h
  | readyFall => exact execReadyFall_attentive h
  | busyRise => exact ((s.withCs_frame _).calm (by decide)).next h
  | busyFall => exact execBusyFall_attentive h
  | backoffSlotEnd busyRises => exact execBackoffSlotEnd_attentive h busyRises
  | sent => exact execSent_attentive h
  | lost => exact execLost_attentive h
  | portTimeout => exact execPortTimeout_attentive h
  | lateAnswerGuardEnd => exact execLateAnswerGuardEnd_attentive h
  | badFrame => exact (h.receive _).next
  | tagRedraw => exact execTagRedraw_attentive h
  | offer => exact (h.receive _).next
  | want => exact (h.receive _).next
  | piece => exact (h.receive _).next
  | tally => exact (h.receive _).next
  | stand => exact (h.receive _).next
  | covered => exact (h.receive _).next
  | yield => exact (h.receive _).next
  | assemblyTimeout i => exact execAssemblyTimeout_attentive h i
  | expiryDeadline i => exact execExpiryDeadline_attentive h i
  | huskHoldEnd i => exact execHuskHoldEnd_attentive h i
  | verdictProcedure i => exact execVerdictProcedure_attentive h i
  | queryTimerEnd => exact execQueryTimerEnd_attentive h
  | offerPoint i => exact execOfferPoint_attentive h i
  | offerIntervalEnd i => exact execOfferIntervalEnd_attentive h i
  | gapFillTimerEnd i => exact execGapFillTimerEnd_attentive h i
  | reportDelayEnd k => exact (h.tallyTimer k _ fun u => (u.delayEnds_frame k).calm (by decide)).next
  | standHoldEnd k => exact (h.tallyTimer k _ fun u => (u.collect_frame k).calm (by decide)).next
  | collectionWindowEnd k => exact (h.tallyTimer k _ fun u => (u.joinUplink_frame k).calm (by decide)).next
  | contributorGuardEnd k => exact (h.tallyTimer k _ fun u => (u.enterWaiting_frame k).calm (by decide)).next
  | uplinkTimeoutEnd => exact execUplinkTimeoutEnd_attentive h
  | cadencePhaseEnd o => exact execCadencePhaseEnd_attentive h o
  | keyEdge k drive => exact execKeyEdge_attentive h k drive
  | debounceEnd k => exact execDebounceEnd_attentive h k

theorem step_attentive : endsAttentive (step s) := by
  unfold step
  split
  · exact (h.runTo _).next
  · exact exec_attentive (h.calm ((s.withPending_frame _).calm (by decide))) _

end Commands

/-- Settles O58: each command's moves are calm, or end with AU's re-evaluation, which leaves the first eligible entry as
the owner (`State.reevaluate_ownerLaw`). -/
theorem stepKeepsOwner : Obligations.StepKeepsOwner := by
  unfold Obligations.StepKeepsOwner
  intro s t wait owner stepped
  obtain ⟨wait, owner⟩ := step_attentive ⟨wait, owner⟩ t stepped
  exact ⟨wait, owner⟩

end Sys2Proof.Machine

/-! One record of the configuration image taken (10 R187 to R189): the tests of R188 as one proposition, and what the
record makes of the loader; then what CONFIG_RECORD comes to within the image space. -/

namespace Sys2Proof.Machine

/-! ### The tests of a record (10 R188, R190) -/

/-- A setting takes a value where it belongs to the zone being read, the value is in its range, and the test that joins
settings 5 and 6 does not refuse it. -/
theorem Settings.accepts_iff (x : Settings) (zone n v : Nat) :
    x.accepts zone n v = true ↔ settingZone n = some zone ∧ settingInRange n v = true
      ∧ ¬ (n = 6 ∧ v < x.offerMin) ∧ ¬ (n = 5 ∧ x.offerMax < v) := by
  simp [Settings.accepts, and_assoc, imp_iff_not_or]

section Record

variable {s : State} {first value : Word16} {zone : Nat} {zones : List Nat}

/-- A record is judged against the first of the zones still to be read. -/
theorem State.recordGood_iff (reading : s.sl.zones = zone :: zones) :
    s.recordGood first value = true ↔ first.extractLsb' 0 7 = 0#7
      ∧ s.settings.accepts zone (recordSetting first) value.toNat = true := by
  simp [State.recordGood, recordZeroGood, reading]

theorem State.takeRecord_of_good (good : s.recordGood first value = true) :
    s.takeRecord first value =
      (s.withSettings (s.settings.load (recordSetting first) value.toNat)).withSl (s.sl.afterRecord first value) := by
  rw [State.takeRecord, if_pos good]

theorem State.takeRecord_of_not_good (skipped : ¬ s.recordGood first value = true) :
    s.takeRecord first value = (s.count .configSkipped).withSl (s.sl.afterRecord first value) := by
  rw [State.takeRecord, if_neg skipped]

/-! ### The loader after a record (10 R187, R189) -/

/-- The check code over two words is the check code over their four bytes. -/
theorem checkWord_checkWord (c first value : Word16) :
    checkWord (checkWord c first) value = checkFrom c (bytes16 first ++ bytes16 value) :=
  List.foldl_append.symm

/-- The last-in-zone flag ends the zone being read, and no other. -/
theorem Loader.zonesAfter_of_cons {l : Loader} (reading : l.zones = zone :: zones) :
    l.zonesAfter first = if first.getLsbD 7 then zones else zone :: zones := by
  rw [Loader.zonesAfter, reading]
  rfl

/-! ### CONFIG_RECORD -/

theorem exec_configRecord (reading : s.sl.phase = .reading) (fits : s.sl.address < 511) :
    exec (.configRecord first value) s = .next (s.takeRecord first value) := by
  have arm : exec (.configRecord first value) s = execConfigRecord first value s := rfl
  rw [arm, execConfigRecord, if_pos reading, if_pos fits]

end Record

/-- Settles O6: the tests of 10 R188 are `State.recordGood`, and the loader moves on the same way in both branches of
`State.takeRecord`. -/
theorem recordLoadedOrSkipped : Obligations.RecordLoadedOrSkipped := by
  unfold Obligations.RecordLoadedOrSkipped
  intro s first value zone zones phase fits reading n v left good sl
  have tests : s.recordGood first value = true ↔ good :=
    (State.recordGood_iff reading).trans (and_congr_right' (Settings.accepts_iff _ _ _ _))
  have loader : s.sl.afterRecord first value = sl := by
    rw [Loader.afterRecord, Loader.zonesAfter_of_cons reading, checkWord_checkWord]
    rfl
  constructor
  · intro loaded
    rw [exec_configRecord phase fits, State.takeRecord_of_good (tests.mpr loaded), loader]
    rfl
  · intro skipped
    rw [exec_configRecord phase fits, State.takeRecord_of_not_good (mt tests.mp skipped), loader]

end Sys2Proof.Machine

/-! What a step is made of: every command is a row of elementary moves (`Move`), each of which says what it does to the
table, the store and the parts beside them, and under what conditions.  The laws that every step keeps are then proved
once per elementary move. -/

namespace Sys2Proof.Machine

/-! ### What is granted, and what the channel's laws read -/

/-- The laws that are granted of the state in which a command is taken. -/
structure Granted where
  wait : Prop
  range : Prop
  owner : Prop
  channel : Prop

/-- The laws of the relay channel's port, queues and tag. -/
structure State.Channelled (s : State) : Prop where
  port : s.PortLaw
  tag : s.TagLaw

/-- The sizes and the ranges. -/
structure State.Sized (s : State) : Prop where
  shape : s.Shape
  range : s.InRange

/-- The granted laws hold. -/
structure State.Obeys (g : Granted) (s : State) : Prop where
  wait : g.wait → s.WaitLaw
  range : g.range → s.Sized
  channel : g.channel → s.Channelled

/-- What the laws read of an entry, but for its timers and what it says to the host. -/
structure Entry.Core where
  state : EntryState
  generation : Byte
  issue : Option Issue
  total : Nat
  provisional : Bool
  map : List (Option Nat)
  claimSlot : Option Nat
  precedence : Option Nat

/-- See `Entry.Core`. -/
def Entry.core (e : Entry) : Entry.Core :=
  ⟨e.state, e.generation, e.issue, e.total, e.provisional, e.map, e.claimSlot, e.precedence⟩

/-- The ranges of what PU holds beside the claim slots (07 R137, R138, R151). -/
def Presentation.inRange (p : Presentation) : Prop :=
  p.threshold ≤ 6 ∧ p.optout.getLsbD 0 = false ∧ p.notices.length ≤ 16

/-- The fields of an entry that is retargeted, once its slots are released (01 R11). -/
def Entry.retargeted (issue : Issue) (total : Nat) (cat : Category) (provisional : Bool) (assemblyEnd gapEnd : Nat)
    (e : Entry) : Entry :=
  { e with
    issue := some issue, category := some cat, total := total, provisional := provisional
    checkFailures := 0, areas := [], bodyCheck := none, heardBroadcast := false, heardRelay := false
    kind := none, issueTime := none, duration := none, followsAcknowledged := false, replaces := none
    assemblyTimer := some assemblyEnd, want := some ⟨gapEnd, none⟩ }

/-! ### The elementary moves -/

/-- Moves beside the table: none touches an entry, a store slot, the waiting set or a claim slot. -/
inductive Aside (g : Granted) : State → State → Prop
  | quiet {s t : State} (only : s.onlyChanges [.au, .ml, .flags] t) : Aside g s t
  | clock {s : State} (x : TimeBase) (later : s.now ≤ x.ms) : Aside g s (s.withTb x)
  | loader {s : State} (x : Loader) (phase : x.phase = .finished ↔ s.sl.phase = .finished) : Aside g s (s.withSl x)
  | ready {s : State} : Aside g s s.loaded.drawTag
  | load {s : State} {zone n v : Nat} (starting : s.started = false) (accepted : s.settings.accepts zone n v = true) :
      Aside g s (s.withSettings (s.settings.load n v))
  | count {s : State} (c : Counter) : Aside g s (s.count c)
  | link {s : State} (a : AppLink) (early : s.EarlyLaw → (s.withAl a).EarlyLaw) : Aside g s (s.withAl a)
  | radio {s t : State} (only : s.onlyChanges [.tb, .cs] t) (kept : g.channel → s.Channelled → t.Channelled)
      (later : s.now ≤ t.now) : Aside g s t
  | present {s : State} (x : Presentation) (slots : x.slots = s.pu.slots) (range : s.pu.inRange → x.inRange) :
      Aside g s (s.withPu x)
  | locate {s : State} (x : Resolver) (waiting : x.waiting = s.ar.waiting) (cache : s.ar.cache.length = 8 → x.cache.length = 8)
      (quality : s.ar.quality ≤ 3 → x.quality ≤ 3) : Aside g s (s.withAr x)
  | report {s : State} (x : Report) (tallies : x.tallies.length = s.ru.tallies.length)
      (deferred : g.range → (∀ d ∈ s.ru.deferred, d.precedence ≤ 7) → ∀ d ∈ x.deferred, d.precedence ≤ 7) :
      Aside g s (s.withRu x)

/-- Moves of an entry, of the waiting set or of a claim slot. -/
inductive Turn (g : Granted) : State → State → Prop
  | edit {s : State} (x : List Entry) (core : x.map Entry.core = s.table.map Entry.core) : Turn g s (s.withTable x)
  | close {s : State} (i : Nat) (reason : Reason)
      (whole : g.owner → (s.entry i).state = .assembling → (s.entry i).slots = [] ∨ (s.entry i).bodyHeld = true) :
      Turn g s (s.closeEntry i reason)
  | dissolve {s : State} (i : Nat) (empty : (s.entry i).slots = []) :
      Turn g s (((s.emptySlot i).leaveWaiting i).modEntry i fun e => Entry.freed e.generation)
  | use {s : State} (i : Nat) (issue : Issue) (total : Nat) (cat : Category) (provisional : Bool)
      (free : (s.entry i).state = .free)
      (fresh : ∀ j, (s.entry j).state = .assembling → (s.entry j).ofKey issue.key = false) :
      Turn g s (s.useEntry i issue total cat provisional)
  | retarget {s : State} (i : Nat) (issue : Issue) (total : Nat) (cat : Category) (provisional : Bool)
      (assemblyEnd gapEnd : Nat) (empty : (s.entry i).slots = []) (assembling : (s.entry i).state = .assembling)
      (own : (s.entry i).ofKey issue.key = true) :
      Turn g s (s.modEntry i (Entry.retargeted issue total cat provisional assemblyEnd gapEnd))
  | locating {s : State} (i : Nat) (replaces : Option Handle) (follows : Bool)
      (assembling : (s.entry i).state = .assembling) (whole : (s.entry i).bodyHeld = true) :
      Turn g s (s.modEntry i fun e => { e with
        state := .locating, verdict := .undecided, replaces := replaces, followsAcknowledged := follows })
  | outside {s : State} (i : Nat) (left : i ∉ s.ar.waiting) (locating : g.wait → (s.entry i).state = .locating) :
      Turn g s (s.modEntry i fun e => { e with state := .outside, verdict := .outside })
  | pend {s : State} (i precedence stamp : Nat) (left : i ∉ s.ar.waiting)
      (locating : g.wait → (s.entry i).state = .locating) (whole : (s.entry i).bodyHeld = true)
      (range : g.range → precedence ≤ 7) :
      Turn g s (s.modEntry i fun e => { e with
        state := .pending, precedence := some precedence, stamp := some stamp, sounded := false })
  | again {s : State} (i : Nat) (issue : Issue) (assemblyEnd gapEnd : Nat) (left : i ∉ s.ar.waiting)
      (locating : g.wait → (s.entry i).state = .locating) (partial' : (s.entry i).bodyHeld = false)
      (own : (s.entry i).issue = some issue)
      (fresh : ∀ j, (s.entry j).state = .assembling → (s.entry j).ofKey issue.key = false) :
      Turn g s (s.modEntry i fun e => e.returned assemblyEnd gapEnd)
  | relocate {s : State} : Turn g s s.relocated
  | claim {s : State} (i slot : Nat) (inTable : i < s.table.length) (pending : (s.entry i).state = .pending)
      (empty : s.pu.slots[slot]? = some none) :
      Turn g s ((s.withPu { s.pu with slots := s.pu.slots.set slot (some (s.handle i)) }).modEntry i fun e =>
        { e with state := .claimed, claimSlot := some slot })
  | unclaim {s : State} (i : Nat) (target : EntryState) (claimed : (s.entry i).state = .claimed)
      (presented : target = .shown ∨ target = .pending) :
      Turn g s ((s.emptySlot i).modEntry i fun e => { e with state := target, claimSlot := none })
  | restart {s : State} : Turn g s ((s.withTable (s.table.map Entry.unclaimed)).withPu
      { s.pu with slots := List.replicate 4 none, notices := [] })
  | leave {s : State} (l : List Nat) (rest : l.Sublist s.ar.waiting) : Turn g s (s.withAr { s.ar with waiting := l })
  | join {s : State} (i : Nat) (ready : g.wait → s.readyToResolve i) :
      Turn g s (s.withAr { s.ar with waiting := s.ar.waiting ++ [i] })

/-- An elementary move.  Beside the state stand the slots in hand: taken off the free list, and not yet named by a map. -/
inductive Move (g : Granted) : List Nat × State → List Nat × State → Prop
  | aside {hand : List Nat} {s t : State} (h : Aside g s t) : Move g (hand, s) (hand, t)
  | turn {hand : List Nat} {s t : State} (h : Turn g s t) : Move g (hand, s) (hand, t)
  | clear {hand : List Nat} {s : State} (i : Nat) :
      Move g (hand, s) (hand, (s.modEntry i fun e => { e with map := emptyMap, offer := none }).withFree
        (s.free ++ (s.entry i).slots))
  | pop {hand rest : List Nat} {s : State} {slot : Nat} (head : s.free = slot :: rest) :
      Move g (hand, s) (slot :: hand, s.withFree rest)
  | put {hand : List Nat} {s : State} (slot : Nat) : Move g (slot :: hand, s) (hand, s.withFree (s.free ++ [slot]))
  | take {hand : List Nat} {s : State} (slot i : Nat) (f : Fragment) (source : Source) (uptime assemblyEnd : Nat)
      (assembling : (s.entry i).state = .assembling) (position : f.index < 16)
      (vacant : (s.entry i).provisional = false → (s.entry i).map.getD f.index none = none) :
      Move g (slot :: hand, s) (hand, (s.withStore (s.store.write slot f.payload)).modEntry i fun e =>
        e.taking f source slot uptime assemblyEnd)

/-- Elementary moves lead from one state, with slots in hand, to another. -/
def Moves (g : Granted) : List Nat × State → List Nat × State → Prop := Relation.ReflTransGen (Move g)

/-- Elementary moves lead from `s` to `t`, and no slot is taken in hand or put down. -/
def State.moves (g : Granted) (s t : State) : Prop := ∀ hand, Moves g (hand, s) (hand, t)

theorem State.moves.refl {g : Granted} (s : State) : s.moves g s := fun _ => .refl

theorem State.moves.trans {g : Granted} {s t u : State} (h : s.moves g t) (h' : t.moves g u) : s.moves g u :=
  fun hand => (h hand).trans (h' hand)

theorem Aside.moves {g : Granted} {s t : State} (h : Aside g s t) : s.moves g t := fun _ => .single (.aside h)

theorem Turn.moves {g : Granted} {s t : State} (h : Turn g s t) : s.moves g t := fun _ => .single (.turn h)

theorem State.moves.foldl {α : Type} {g : Granted} {f : State → α → State} (step : ∀ (s : State) (x : α), s.moves g (f s x))
    (xs : List α) (s : State) : s.moves g (xs.foldl f s) := by
  induction xs generalizing s with
  | nil => exact .refl s
  | cons x xs ih => exact (step s x).trans (ih _)

end Sys2Proof.Machine

/-! The laws under the elementary moves: the waiting set, the claim slots and the one ASSEMBLING entry of a key. -/

namespace Sys2Proof.Machine

/-! ### What the moves leave alone -/

theorem State.entry_congr {s t : State} (table : t.table = s.table) (i : Nat) : t.entry i = s.entry i := by
  simp only [State.entry, table]

@[simp] theorem State.emptySlot_table (s : State) (i : Nat) : (s.emptySlot i).table = s.table :=
  s.emptySlot_frame i .table (by decide)

@[simp] theorem State.emptySlot_entry (s : State) (i j : Nat) : (s.emptySlot i).entry j = s.entry j :=
  State.entry_congr (s.emptySlot_table i) j

@[simp] theorem State.emptySlot_ar (s : State) (i : Nat) : (s.emptySlot i).ar = s.ar := s.emptySlot_frame i .ar (by decide)

@[simp] theorem State.leaveWaiting_entry (s : State) (i j : Nat) : (s.leaveWaiting i).entry j = s.entry j := rfl

theorem State.mem_table_entry (s : State) {i : Nat} (inTable : i < s.table.length) : s.entry i ∈ s.table := by
  simp [State.entry, inTable]

theorem State.entry_of_length_le (s : State) {i : Nat} (outside : s.table.length ≤ i) : s.entry i = Entry.freed 0 := by
  simp [State.entry, outside]

/-- A test that the entries of the table and a FREE one pass. -/
theorem State.forall_entry {s : State} {P : Entry → Prop} (free : P (Entry.freed 0)) :
    (∀ i, P (s.entry i)) ↔ ∀ e ∈ s.table, P e := by
  refine ⟨fun h e mem => ?_, fun h i => ?_⟩
  · obtain ⟨i, inTable, rfl⟩ := List.getElem_of_mem mem
    simpa [State.entry, inTable] using h i
  · by_cases inTable : i < s.table.length
    · exact h _ (s.mem_table_entry inTable)
    · rw [s.entry_of_length_le (Nat.le_of_not_lt inTable)]
      exact free

theorem State.forall_modEntry {s : State} {P : Entry → Prop} {i : Nat} {f : Entry → Entry}
    (h : ∀ e ∈ s.table, P e) (changed : i < s.table.length → P (s.entry i) → P (f (s.entry i))) :
    ∀ e ∈ (s.modEntry i f).table, P e := by
  intro e mem
  obtain old | ⟨inTable, rfl⟩ : e ∈ s.table ∨ (i < s.table.length ∧ e = f (s.entry i)) := by
    by_cases inTable : i < s.table.length
    · exact (List.mem_or_eq_of_mem_set mem).imp_right fun same => ⟨inTable, same⟩
    · rw [State.modEntry, State.setEntry, State.withTable_table, List.set_eq_of_length_le (Nat.le_of_not_lt inTable)] at mem
      exact .inl mem
  · exact h e old
  · exact changed inTable (h _ (s.mem_table_entry inTable))

theorem State.ready_frame (s : State) : s.onlyChanges [.tb, .sl, .cs] s.loaded.drawTag := by
  simp [State.loaded]

section Aside

variable {g : Granted} {s t : State} (h : Aside g s t)
include h

theorem Aside.table : t.table = s.table := by
  cases h with
  | quiet only => exact only .table (by decide)
  | radio only => exact only .table (by decide)
  | ready => exact s.ready_frame .table (by decide)
  | _ => rfl

theorem Aside.free : t.free = s.free := by
  cases h with
  | quiet only => exact only .free (by decide)
  | radio only => exact only .free (by decide)
  | ready => exact s.ready_frame .free (by decide)
  | _ => rfl

theorem Aside.store : t.store = s.store := by
  cases h with
  | quiet only => exact only .store (by decide)
  | radio only => exact only .store (by decide)
  | ready => exact s.ready_frame .store (by decide)
  | _ => rfl

theorem Aside.waiting : t.ar.waiting = s.ar.waiting := by
  cases h with
  | quiet only => exact congrArg Resolver.waiting (only .ar (by decide))
  | radio only => exact congrArg Resolver.waiting (only .ar (by decide))
  | ready => exact congrArg Resolver.waiting (s.ready_frame .ar (by decide))
  | locate x waiting => exact waiting
  | _ => rfl

theorem Aside.slots : t.pu.slots = s.pu.slots := by
  cases h with
  | quiet only => exact congrArg Presentation.slots (only .pu (by decide))
  | radio only => exact congrArg Presentation.slots (only .pu (by decide))
  | ready => exact congrArg Presentation.slots (s.ready_frame .pu (by decide))
  | present x slots => exact slots
  | _ => rfl

theorem Aside.entry (i : Nat) : t.entry i = s.entry i := State.entry_congr h.table i

end Aside

/-- Moves of an entry touch the table, the waiting set, the claim slots, and, at a RESTART, the notices. -/
theorem Turn.frame {g : Granted} {s t : State} (h : Turn g s t) : s.onlyChanges [.table, .ar, .pu] t := by
  cases h <;> simp [State.relocated]

/-! ### An entry by its core -/

theorem State.core_entry {s : State} {x : List Entry} (core : x.map Entry.core = s.table.map Entry.core) (i : Nat) :
    ((s.withTable x).entry i).core = (s.entry i).core := by
  have view : ∀ l : List Entry, (l.getD i (Entry.freed 0)).core = (l.map Entry.core).getD i (Entry.freed 0).core :=
    fun l => (List.getD_map ..).symm
  simp only [State.entry, State.withTable_table, view, core]

section Core

variable {e f : Entry} (h : e.core = f.core)
include h

theorem Entry.state_of_core : e.state = f.state := congrArg Entry.Core.state h
theorem Entry.generation_of_core : e.generation = f.generation := congrArg Entry.Core.generation h
theorem Entry.issue_of_core : e.issue = f.issue := congrArg Entry.Core.issue h
theorem Entry.total_of_core : e.total = f.total := congrArg Entry.Core.total h
theorem Entry.provisional_of_core : e.provisional = f.provisional := congrArg Entry.Core.provisional h
theorem Entry.map_of_core : e.map = f.map := congrArg Entry.Core.map h
theorem Entry.claimSlot_of_core : e.claimSlot = f.claimSlot := congrArg Entry.Core.claimSlot h
theorem Entry.precedence_of_core : e.precedence = f.precedence := congrArg Entry.Core.precedence h

theorem Entry.slots_of_core : e.slots = f.slots := by rw [Entry.slots, Entry.slots, Entry.map_of_core h]

theorem Entry.bodyHeld_of_core : e.bodyHeld = f.bodyHeld := by
  rw [Entry.bodyHeld, Entry.bodyHeld, Entry.map_of_core h, Entry.total_of_core h]

theorem Entry.ofKey_of_core (k : Key) : e.ofKey k = f.ofKey k := by
  rw [Entry.ofKey, Entry.ofKey, Entry.state_of_core h, Entry.issue_of_core h]

end Core

/-! ### The waiting set (03 R59) -/

/-- No entry joins the waiting set, and each that waits stays LOCATING. -/
theorem State.WaitLaw.kept {s t : State} (law : s.WaitLaw) (waiting : t.ar.waiting.Sublist s.ar.waiting)
    (locating : ∀ i ∈ t.ar.waiting, (s.entry i).state = .locating → (t.entry i).state = .locating) : t.WaitLaw :=
  ⟨law.1.sublist waiting, fun i mem => locating i mem (law.2 i (waiting.subset mem))⟩

/-- An entry is changed that does not wait, or stays LOCATING. -/
theorem State.WaitLaw.modEntry {s : State} (law : s.WaitLaw) {i : Nat} {f : Entry → Entry}
    (locating : i ∈ s.ar.waiting → (f (s.entry i)).state = .locating) : (s.modEntry i f).WaitLaw :=
  law.kept (.refl _) fun j mem stood => by
    obtain kept | ⟨rfl, changed⟩ := s.entry_modEntry_cases i f j
    · rwa [kept]
    · rw [changed]; exact locating mem

theorem State.WaitLaw.vacated {s : State} (law : s.WaitLaw) (i : Nat) : ((s.emptySlot i).leaveWaiting i).WaitLaw :=
  law.kept (by simp [State.leaveWaiting]) fun j _ stood => by simpa using stood

theorem Turn.waitLaw {g : Granted} {s t : State} (h : Turn g s t) (wait : g.wait) (law : s.WaitLaw) : t.WaitLaw := by
  cases h with
  | edit x core => exact law.kept (.refl _) fun i _ stood => (Entry.state_of_core (State.core_entry core i)).trans stood
  | close i reason =>
    exact (law.vacated i).modEntry fun mem => absurd mem (State.not_mem_leaveWaiting _ i)
  | dissolve i => exact (law.vacated i).modEntry fun mem => absurd mem (State.not_mem_leaveWaiting _ i)
  | use i issue total cat provisional free =>
    exact law.modEntry fun mem => absurd mem (law.not_mem (by simp [free]))
  | retarget i _ _ _ _ _ _ _ assembling => exact law.modEntry fun mem => absurd mem (law.not_mem (by simp [assembling]))
  | locating => exact law.modEntry fun _ => rfl
  | outside i left => exact law.modEntry fun mem => absurd mem left
  | pend i _ _ left => exact law.modEntry fun mem => absurd mem left
  | again i _ _ _ left => exact law.modEntry fun mem => absurd mem left
  | relocate => exact ⟨List.nodup_nil, fun _ mem => absurd mem List.not_mem_nil⟩
  | claim i slot _ pending =>
    exact State.WaitLaw.modEntry (s := s.withPu { s.pu with slots := s.pu.slots.set slot (some (s.handle i)) }) law
      fun mem => absurd mem (law.not_mem (by simp [pending]))
  | unclaim i target claimed =>
    refine State.WaitLaw.modEntry (s := s.emptySlot i) (law.kept (by simp) fun j _ stood => by simpa using stood)
      fun mem => absurd (s.emptySlot_ar i ▸ mem) (law.not_mem (by simp [claimed]))
  | restart =>
    refine law.kept (.refl _) fun i _ stood => ?_
    change ((s.withTable (s.table.map Entry.unclaimed)).entry i).state = _
    rw [s.entry_mapTable rfl]
    simp [Entry.unclaimed, stood]
  | leave l rest => exact law.kept rest fun _ _ stood => stood
  | join i ready =>
    obtain ⟨locating, left⟩ := ready wait
    refine ⟨List.nodup_append.mpr ⟨law.1, by simp, fun a mem b single => ?_⟩, fun j mem => ?_⟩
    · rintro rfl
      exact left (List.mem_singleton.mp single ▸ mem)
    · obtain waits | single := List.mem_append.mp mem
      · exact law.2 j waits
      · rw [List.mem_singleton.mp single]; exact locating

theorem Move.waitLaw {g : Granted} {p q : List Nat × State} (h : Move g p q) (wait : g.wait) (law : p.2.WaitLaw) :
    q.2.WaitLaw := by
  cases h with
  | aside h => exact law.kept (by rw [h.waiting]) fun i _ stood => by rw [h.entry, stood]
  | turn h => exact h.waitLaw wait law
  | clear i => exact State.WaitLaw.modEntry law (f := fun e => { e with map := emptyMap, offer := none }) (law.2 i)
  | pop => exact law
  | put => exact law
  | @take _ s slot i f source uptime assemblyEnd =>
    exact State.WaitLaw.modEntry (s := s.withStore _) law
      (f := fun e => e.taking f source slot uptime assemblyEnd) (law.2 i)

/-! ### The claim slots (07 R140) -/

/-- What the claim law reads of an entry. -/
def Entry.claimView (e : Entry) : EntryState × Byte × Option Nat := (e.state, e.generation, e.claimSlot)

/-- The claim slots stay, and each entry keeps its view, or is CLAIMED neither before nor after. -/
theorem State.ClaimLaw.kept {s t : State} (law : s.ClaimLaw) (slots : t.pu.slots = s.pu.slots)
    (view : ∀ i, (t.entry i).claimView = (s.entry i).claimView
      ∨ ((s.entry i).state ≠ .claimed ∧ (t.entry i).state ≠ .claimed ∧ (t.entry i).claimSlot = none)) : t.ClaimLaw := by
  obtain ⟨length, claimed, occupied, other⟩ := law
  have same : ∀ i, (s.entry i).state = .claimed ∨ (t.entry i).state = .claimed →
      (t.entry i).state = (s.entry i).state ∧ t.handle i = s.handle i ∧ (t.entry i).claimSlot = (s.entry i).claimSlot := by
    intro i either
    obtain kept | ⟨before, after, -⟩ := view i
    · simp only [Entry.claimView, Prod.mk.injEq] at kept
      obtain ⟨state, generation, slot⟩ := kept
      exact ⟨state, by rw [State.handle, State.handle, generation], slot⟩
    · exact absurd either (not_or.mpr ⟨before, after⟩)
  refine ⟨slots ▸ length, fun i now => ?_, fun k h named => ?_, fun i now => ?_⟩
  · obtain ⟨state, handle, slot⟩ := same i (.inr now)
    rw [slots, handle, slot]
    exact claimed i (state ▸ now)
  · obtain ⟨rfl', stood, slot⟩ := occupied k h (slots ▸ named)
    obtain ⟨state, handle, slot'⟩ := same h.index (.inl stood)
    exact ⟨handle ▸ rfl', state ▸ stood, slot' ▸ slot⟩
  · obtain kept | ⟨-, -, slot⟩ := view i
    · simp only [Entry.claimView, Prod.mk.injEq] at kept
      obtain ⟨state, -, slot⟩ := kept
      rw [slot]
      exact other i (state ▸ now)
    · exact slot

theorem State.ClaimLaw.modEntry {s : State} (law : s.ClaimLaw) {i : Nat} {f : Entry → Entry}
    (view : (f (s.entry i)).claimView = (s.entry i).claimView
      ∨ ((s.entry i).state ≠ .claimed ∧ (f (s.entry i)).state ≠ .claimed ∧ (f (s.entry i)).claimSlot = none)) :
    (s.modEntry i f).ClaimLaw :=
  law.kept rfl fun j => by
    obtain kept | ⟨rfl, changed⟩ := s.entry_modEntry_cases i f j
    · rw [kept]; exact .inl rfl
    · rw [changed]; exact view

theorem State.ClaimLaw.claimSlot_eq_none {s : State} (law : s.ClaimLaw) {i : Nat} (other : (s.entry i).state ≠ .claimed) :
    (s.entry i).claimSlot = none := law.2.2.2 i other

theorem State.inTable_of_state {s : State} {i : Nat} {x : EntryState} (state : (s.entry i).state = x) (used : x ≠ .free) :
    i < s.table.length := by
  by_contra outside
  rw [s.entry_of_length_le (Nat.le_of_not_lt outside)] at state
  exact used state.symm

/-- An entry leaves CLAIMED, if it was there, and its claim slot is emptied. -/
theorem State.ClaimLaw.vacate {s t : State} (law : s.ClaimLaw) {i : Nat} {f : Entry → Entry}
    (pu : t.pu = (s.emptySlot i).pu) (table : t.table = s.table) (gone : (f (s.entry i)).state ≠ .claimed)
    (empty : (f (s.entry i)).claimSlot = none) : (t.modEntry i f).ClaimLaw := by
  have here : t.entry i = s.entry i := State.entry_congr table i
  by_cases stood : (s.entry i).state = .claimed
  · obtain ⟨length, claimed, occupied, other⟩ := law
    obtain ⟨k, slot, named⟩ := claimed i stood
    have slots : t.pu.slots = s.pu.slots.set k none := by rw [pu]; simp [State.emptySlot, slot]
    have inTable : i < t.table.length := table ▸ State.inTable_of_state stood (by decide)
    have changed : (t.modEntry i f).entry i = f (s.entry i) := by rw [← here]; exact State.entry_setEntry inTable _
    have kept : ∀ j, j ≠ i → (t.modEntry i f).entry j = s.entry j := fun j ne =>
      (t.entry_setEntry_ne ne _).trans (State.entry_congr table j)
    have unnamed : ∀ j k', j ≠ i → (s.entry j).claimSlot = some k' →
        s.pu.slots[k']? = some (some (s.handle j)) → k' ≠ k := by
      rintro j k' ne - at' rfl
      rw [named] at at'
      simp only [Option.some.injEq, State.handle, Handle.mk.injEq] at at'
      exact ne at'.1.symm
    refine ⟨?_, fun j now => ?_, fun k' h at' => ?_, fun j now => ?_⟩
    · change t.pu.slots.length = 4
      rw [slots, List.length_set, length]
    · by_cases ne : j = i
      · subst ne; rw [changed] at now; exact absurd now gone
      · rw [kept j ne] at now ⊢
        obtain ⟨k', slot', named'⟩ := claimed j now
        refine ⟨k', slot', ?_⟩
        change t.pu.slots[k']? = _
        rw [slots, List.getElem?_set_ne (unnamed j k' ne slot' named').symm, named', State.handle, State.handle, kept j ne]
    · have ne : k' ≠ k := by
        rintro rfl
        have : (t.modEntry i f).pu.slots[k']? = (s.pu.slots.set k' none)[k']? := by rw [← slots]; rfl
        rw [this, List.getElem?_set_self (List.getElem?_eq_some_iff.mp named).1] at at'
        cases at'
      have at'' : s.pu.slots[k']? = some (some h) := by
        have : (t.modEntry i f).pu.slots[k']? = (s.pu.slots.set k none)[k']? := by rw [← slots]; rfl
        rwa [this, List.getElem?_set_ne ne.symm] at at'
      obtain ⟨own, state, slot'⟩ := occupied k' h at''
      have other' : h.index ≠ i := by
        intro same
        rw [same, slot] at slot'
        exact ne (Option.some.inj slot').symm
      rw [State.handle, kept _ other']
      exact ⟨own, state, slot'⟩
    · by_cases ne : j = i
      · subst ne; rw [changed]; exact empty
      · rw [kept j ne] at now ⊢; exact other j now
  · have none := law.claimSlot_eq_none stood
    have slots : t.pu.slots = s.pu.slots := by rw [pu]; simp [State.emptySlot, none]
    refine law.kept slots fun j => ?_
    obtain kept | ⟨rfl, changed⟩ := t.entry_modEntry_cases i f j
    · rw [kept, State.entry_congr table]; exact .inl rfl
    · rw [changed, here]; exact .inr ⟨stood, gone, empty⟩

theorem State.ClaimLaw.claimed {s : State} (law : s.ClaimLaw) {i slot : Nat} (inTable : i < s.table.length)
    (pending : (s.entry i).state = .pending) (free : s.pu.slots[slot]? = some none) :
    ((s.withPu { s.pu with slots := s.pu.slots.set slot (some (s.handle i)) }).modEntry i fun e =>
      { e with state := .claimed, claimSlot := some slot }).ClaimLaw := by
  obtain ⟨length, claimed, occupied, other⟩ := law
  have inSlots : slot < s.pu.slots.length := (List.getElem?_eq_some_iff.mp free).1
  generalize ht : (s.withPu { s.pu with slots := s.pu.slots.set slot (some (s.handle i)) }).modEntry i _ = t
  have slots : t.pu.slots = s.pu.slots.set slot (some (s.handle i)) := by rw [← ht]; rfl
  have changed : t.entry i = { s.entry i with state := .claimed, claimSlot := some slot } := by
    rw [← ht]; exact State.entry_setEntry (s := s.withPu _) inTable _
  have kept : ∀ j, j ≠ i → t.entry j = s.entry j := fun j ne => by rw [← ht]; exact State.entry_setEntry_ne _ ne _
  have handle : ∀ j, t.handle j = s.handle j := by
    intro j
    by_cases ne : j = i
    · subst ne; rw [State.handle, State.handle, changed]
    · rw [State.handle, State.handle, kept j ne]
  refine ⟨by rw [slots, List.length_set, length], fun j now => ?_, fun k h named => ?_, fun j now => ?_⟩
  · by_cases ne : j = i
    · subst ne
      exact ⟨slot, by rw [changed], by rw [slots, List.getElem?_set_self inSlots, handle]⟩
    · rw [kept j ne] at now ⊢
      obtain ⟨k, at', named⟩ := claimed j now
      refine ⟨k, at', ?_⟩
      have apart : slot ≠ k := by rintro rfl; rw [free] at named; cases named
      rw [slots, List.getElem?_set_ne apart, named, handle]
  · rw [slots] at named
    by_cases same : slot = k
    · subst same
      rw [List.getElem?_set_self inSlots] at named
      cases named
      rw [handle]
      exact ⟨rfl, by rw [State.handle, changed], by rw [State.handle, changed]⟩
    · rw [List.getElem?_set_ne same] at named
      obtain ⟨own, state, at'⟩ := occupied k h named
      have ne : h.index ≠ i := by intro same; rw [same, pending] at state; cases state
      rw [handle, kept _ ne]
      exact ⟨own, state, at'⟩
  · by_cases ne : j = i
    · subst ne; rw [changed] at now; exact absurd rfl now
    · rw [kept j ne] at now ⊢; exact other j now

theorem Entry.unclaimed_state (e : Entry) : e.unclaimed.state ≠ .claimed := by
  unfold Entry.unclaimed
  split
  · simp
  · assumption

theorem State.ClaimLaw.restart {s : State} (law : s.ClaimLaw) (notices : List Notice) :
    ((s.withTable (s.table.map Entry.unclaimed)).withPu
      { s.pu with slots := List.replicate 4 none, notices := notices }).ClaimLaw := by
  have entry : ∀ i, ((s.withTable (s.table.map Entry.unclaimed)).withPu
      { s.pu with slots := List.replicate 4 none, notices := notices }).entry i = (s.entry i).unclaimed :=
    fun i => s.entry_mapTable rfl i
  refine ⟨rfl, fun i now => absurd (entry i ▸ now) (Entry.unclaimed_state _), fun k h named => ?_, fun i _ => ?_⟩
  · have none := List.mem_replicate.mp (List.mem_of_getElem? named)
    exact absurd none.2 (by simp)
  · rw [entry, Entry.unclaimed]
    split
    · rfl
    · next other => exact law.claimSlot_eq_none other

theorem Entry.relocated_claimView (e : Entry) : e.relocated.claimView = e.claimView
    ∨ (e.state = .outside ∧ e.relocated.state = .locating ∧ e.relocated.claimSlot = e.claimSlot) := by
  unfold Entry.relocated
  split
  · next outside => exact .inr ⟨outside, rfl, rfl⟩
  · exact .inl rfl

theorem Turn.claimLaw {g : Granted} {s t : State} (h : Turn g s t) (wait : g.wait) (law : s.ClaimLaw) : t.ClaimLaw := by
  have quiet : ∀ {i x}, (s.entry i).state = x → x ≠ .claimed →
      (s.entry i).state ≠ .claimed ∧ (s.entry i).claimSlot = none := fun state other =>
    ⟨state ▸ other, law.claimSlot_eq_none (state ▸ other)⟩
  cases h with
  | edit x core =>
    refine law.kept rfl fun i => .inl ?_
    have core := State.core_entry core i
    rw [Entry.claimView, Entry.claimView, Entry.state_of_core core, Entry.generation_of_core core,
      Entry.claimSlot_of_core core]
  | close i reason => exact law.vacate (t := (s.emptySlot i).leaveWaiting i) rfl (by simp [State.leaveWaiting]) (by simp [Entry.close]) rfl
  | dissolve i => exact law.vacate (t := (s.emptySlot i).leaveWaiting i) rfl (by simp [State.leaveWaiting]) (by simp [Entry.freed]) rfl
  | use i _ _ _ _ free => exact law.modEntry (.inr ⟨(quiet free (by decide)).1, by simp, rfl⟩)
  | retarget i issue total cat provisional assemblyEnd gapEnd => exact law.modEntry (.inl rfl)
  | locating i _ _ assembling =>
    obtain ⟨other, none⟩ := quiet assembling (by decide)
    exact law.modEntry (.inr ⟨other, by simp, none⟩)
  | outside i left locating =>
    obtain ⟨other, none⟩ := quiet (locating wait) (by decide)
    exact law.modEntry (.inr ⟨other, by simp, none⟩)
  | pend i _ _ _ locating =>
    obtain ⟨other, none⟩ := quiet (locating wait) (by decide)
    exact law.modEntry (.inr ⟨other, by simp, none⟩)
  | again i _ _ _ _ locating =>
    obtain ⟨other, none⟩ := quiet (locating wait) (by decide)
    exact law.modEntry (.inr ⟨other, by simp [Entry.returned], none⟩)
  | relocate =>
    refine law.kept rfl fun i => ?_
    have entry : s.relocated.entry i = (s.entry i).relocated := s.entry_mapTable rfl i
    rw [entry]
    refine (Entry.relocated_claimView _).imp_right fun ⟨before, after, slot⟩ => ?_
    obtain ⟨other, none⟩ := quiet before (by decide)
    exact ⟨other, by simp [after], slot.trans none⟩
  | claim i slot inTable pending empty => exact law.claimed inTable pending empty
  | unclaim i target claimed presented =>
    exact law.vacate (t := s.emptySlot i) rfl (by simp) (by rcases presented with rfl | rfl <;> simp) rfl
  | restart => exact law.restart _
  | leave => exact law
  | join => exact law

theorem Move.claimLaw {g : Granted} {p q : List Nat × State} (h : Move g p q) (wait : g.wait) (law : p.2.ClaimLaw) :
    q.2.ClaimLaw := by
  cases h with
  | aside h => exact law.kept h.slots fun i => .inl (by rw [h.entry])
  | turn h => exact h.claimLaw wait law
  | clear i => exact law.modEntry (f := fun e => { e with map := emptyMap, offer := none }) (.inl rfl)
  | pop => exact law
  | put => exact law
  | @take _ s slot i f source uptime assemblyEnd =>
    exact State.ClaimLaw.modEntry (s := s.withStore _) law
      (f := fun e => e.taking f source slot uptime assemblyEnd) (.inl rfl)

/-! ### One ASSEMBLING entry of a key (01 R6) -/

/-- Every ASSEMBLING entry was so before, and of the same keys. -/
theorem State.OneAssembling.kept {s t : State} (law : s.OneAssembling)
    (kept : ∀ i, (t.entry i).state = .assembling →
      (s.entry i).state = .assembling ∧ ∀ k, (t.entry i).ofKey k = true → (s.entry i).ofKey k = true) :
    t.OneAssembling := by
  intro i j k stateI stateJ keyI keyJ
  obtain ⟨beforeI, ofI⟩ := kept i stateI
  obtain ⟨beforeJ, ofJ⟩ := kept j stateJ
  exact law i j k beforeI beforeJ (ofI k keyI) (ofJ k keyJ)

theorem State.OneAssembling.modEntry {s : State} (law : s.OneAssembling) {i : Nat} {f : Entry → Entry}
    (kept : (f (s.entry i)).state = .assembling →
      (s.entry i).state = .assembling ∧ ∀ k, (f (s.entry i)).ofKey k = true → (s.entry i).ofKey k = true) :
    (s.modEntry i f).OneAssembling :=
  law.kept fun j now => by
    obtain same | ⟨rfl, changed⟩ := s.entry_modEntry_cases i f j
    · rw [same] at now ⊢; exact ⟨now, fun _ h => h⟩
    · rw [changed] at now ⊢; exact kept now

/-- An entry comes to ASSEMBLING for a key that no ASSEMBLING entry has. -/
theorem State.OneAssembling.started {s : State} (law : s.OneAssembling) {i : Nat} {f : Entry → Entry} {issue : Issue}
    (own : (f (s.entry i)).issue = some issue)
    (fresh : ∀ j, (s.entry j).state = .assembling → (s.entry j).ofKey issue.key = false) :
    (s.modEntry i f).OneAssembling := by
  have key : ∀ k, (f (s.entry i)).ofKey k = true → issue.key = k := by
    intro k of
    simp only [Entry.ofKey, own, Bool.and_eq_true, beq_iff_eq] at of
    exact of.2
  intro a b k stateA stateB keyA keyB
  obtain sameA | ⟨isA, changedA⟩ := s.entry_modEntry_cases i f a <;>
    obtain sameB | ⟨isB, changedB⟩ := s.entry_modEntry_cases i f b
  · rw [sameA] at stateA keyA
    rw [sameB] at stateB keyB
    exact law a b k stateA stateB keyA keyB
  · rw [sameA] at stateA keyA
    rw [changedB] at keyB
    rw [← key k keyB, fresh a stateA] at keyA
    cases keyA
  · rw [changedA] at keyA
    rw [sameB] at stateB keyB
    rw [← key k keyA, fresh b stateB] at keyB
    cases keyB
  · exact isA.trans isB.symm

theorem Entry.ofKey_iff (e : Entry) (k : Key) :
    e.ofKey k = true ↔ e.state ≠ .free ∧ ∃ issue, e.issue = some issue ∧ issue.key = k := by
  unfold Entry.ofKey
  split <;> simp_all

theorem Entry.retargeted_ofKey {e : Entry} {issue : Issue} (own : e.ofKey issue.key = true) (total : Nat)
    (cat : Category) (provisional : Bool) (assemblyEnd gapEnd : Nat) {k : Key}
    (of : (e.retargeted issue total cat provisional assemblyEnd gapEnd).ofKey k = true) : e.ofKey k = true := by
  obtain ⟨-, new, isNew, rfl⟩ := (Entry.ofKey_iff _ _).mp of
  cases isNew
  exact own

theorem Turn.oneAssembling {g : Granted} {s t : State} (h : Turn g s t) (law : s.OneAssembling) : t.OneAssembling := by
  have vacated : ∀ i, ((s.emptySlot i).leaveWaiting i).OneAssembling := fun i =>
    law.kept fun j => by simp +contextual
  cases h with
  | edit x core =>
    refine law.kept fun i now => ?_
    have core := State.core_entry core i
    exact ⟨Entry.state_of_core core ▸ now, fun k => by rw [Entry.ofKey_of_core core]; exact id⟩
  | close i reason => exact (vacated i).modEntry fun now => by simp [Entry.close] at now
  | dissolve i => exact (vacated i).modEntry fun now => by simp [Entry.freed] at now
  | use i issue total cat provisional free fresh => exact law.started rfl fresh
  | retarget i issue total cat provisional assemblyEnd gapEnd empty assembling own =>
    exact law.modEntry fun _ => ⟨assembling, fun k => Entry.retargeted_ofKey own total cat provisional assemblyEnd gapEnd⟩
  | locating => exact law.modEntry fun now => by simp at now
  | outside => exact law.modEntry fun now => by simp at now
  | pend => exact law.modEntry fun now => by simp at now
  | again i issue assemblyEnd gapEnd left locating partial' own fresh => exact law.started own fresh
  | relocate =>
    refine law.kept fun i => ?_
    have entry : s.relocated.entry i = (s.entry i).relocated := s.entry_mapTable rfl i
    rw [entry, Entry.relocated]
    split
    · simp
    · exact fun now => ⟨now, fun _ h => h⟩
  | claim i slot =>
    exact State.OneAssembling.modEntry (s := s.withPu { s.pu with slots := s.pu.slots.set slot (some (s.handle i)) })
      law fun now => by simp at now
  | unclaim i target claimed presented =>
    refine State.OneAssembling.modEntry (s := s.emptySlot i) (law.kept fun j => by simp +contextual) fun now => ?_
    rcases presented with rfl | rfl <;> cases now
  | restart =>
    refine law.kept fun i => ?_
    have entry : ((s.withTable (s.table.map Entry.unclaimed)).withPu
        { s.pu with slots := List.replicate 4 none, notices := [] }).entry i = (s.entry i).unclaimed :=
      s.entry_mapTable rfl i
    rw [entry, Entry.unclaimed]
    split
    · simp
    · exact fun now => ⟨now, fun _ h => h⟩
  | leave => exact law
  | join => exact law

theorem Move.oneAssembling {g : Granted} {p q : List Nat × State} (h : Move g p q) (law : p.2.OneAssembling) :
    q.2.OneAssembling := by
  cases h with
  | aside h => exact law.kept fun i => by rw [h.entry]; exact fun now => ⟨now, fun _ h => h⟩
  | turn h => exact h.oneAssembling law
  | clear i =>
    exact State.OneAssembling.modEntry law (f := fun e => { e with map := emptyMap, offer := none }) fun now =>
      ⟨now, fun _ h => h⟩
  | pop => exact law
  | put => exact law
  | @take _ s slot i f source uptime assemblyEnd assembling =>
    exact State.OneAssembling.modEntry (s := s.withStore _) law
      (f := fun e => e.taking f source slot uptime assemblyEnd) fun _ => ⟨assembling, fun _ h => h⟩

end Sys2Proof.Machine

/-! The laws under the elementary moves: the store slots, the sizes and ranges, the relay channel. -/

namespace Sys2Proof.Machine

/-! ### The store slots (02 R40) -/

/-- A list's elements stand for lists; one element gives way to another. -/
theorem flatMap_set_perm {α β : Type} (f : α → List β) {l : List α} {i : Nat} {x : α} (y : α) (place : l[i]? = some x) :
    (f x ++ (l.set i y).flatMap f).Perm (f y ++ l.flatMap f) := by
  induction l generalizing i with
  | nil => cases place
  | cons a l ih =>
    cases i with
    | zero =>
      cases place
      simp only [List.set_cons_zero, List.flatMap_cons]
      exact List.perm_append_comm_assoc ..
    | succ i =>
      simp only [List.set_cons_succ, List.flatMap_cons]
      exact (List.perm_append_comm_assoc ..).trans
        (((ih place).append_left (f a)).trans (List.perm_append_comm_assoc ..))

/-- What the law says of one entry. -/
def Entry.holdsSlots (e : Entry) : Prop := e.map.length = 16 ∧ e.SlotLaw

/-- The law of the slots, some of them in hand. -/
def State.SlotsWith (hand : List Nat) (s : State) : Prop :=
  s.table.length = 32 ∧ (∀ e ∈ s.table, e.holdsSlots)
    ∧ (hand ++ s.free ++ s.table.flatMap Entry.slots).Perm (List.range 160)

theorem State.slotsWith_nil (s : State) : s.SlotsWith [] ↔ s.SlotLaw := Iff.rfl

theorem Entry.slots_of_emptyMap {e : Entry} (h : e.map = emptyMap) : e.slots = [] := by
  simp [Entry.slots, h, emptyMap]

theorem Entry.SlotLaw.slots_of_free {e : Entry} (law : e.SlotLaw) (free : e.state = .free) : e.slots = [] :=
  (law.1 (by simp [free])).resolve_right fun h => h.2 free

theorem Entry.SlotLaw.slots_of_partial {e : Entry} (law : e.SlotLaw) (state : e.state ≠ .assembling)
    (part : e.bodyHeld = false) : e.slots = [] :=
  (law.1 state).resolve_right fun h => by simp [part] at h

theorem Entry.getD_of_slots_nil {e : Entry} (empty : e.slots = []) (k : Nat) : e.map.getD k none = none := by
  cases place : e.map[k]? with
  | none => simp [List.getD_eq_getElem?_getD, place]
  | some x =>
    have none : x = none := by
      have := List.filterMap_eq_nil_iff.mp empty x (List.mem_of_getElem? place)
      simpa using this
    simp [List.getD_eq_getElem?_getD, place, none]

theorem Entry.slots_set_perm {e : Entry} {k : Nat} (slot : Nat) (inMap : k < e.map.length)
    (vacant : e.map.getD k none = none) : ((e.map.set k (some slot)).filterMap id).Perm (slot :: e.slots) := by
  have place : e.map[k]? = some none := by
    rw [List.getD_eq_getElem?_getD, List.getElem?_eq_getElem inMap] at vacant
    rw [List.getElem?_eq_getElem inMap]
    simpa using vacant
  rw [Entry.slots, List.filterMap_eq_flatMap_toList, List.filterMap_eq_flatMap_toList]
  exact flatMap_set_perm (fun x : Option Nat => (id x).toList) (some slot) place

section Slots

variable {s t : State} {hand hand' : List Nat}

/-- One entry is changed, and the slots it gives up or takes are accounted for. -/
theorem State.SlotsWith.modEntry (law : s.SlotsWith hand) {i : Nat} {f : Entry → Entry}
    (table : t.table = (s.modEntry i f).table) (good : (s.entry i).holdsSlots → (f (s.entry i)).holdsSlots)
    (perm : (hand' ++ t.free ++ (f (s.entry i)).slots).Perm (hand ++ s.free ++ (s.entry i).slots))
    (out : s.table.length ≤ i → (hand' ++ t.free).Perm (hand ++ s.free)) : t.SlotsWith hand' := by
  obtain ⟨length, entries, slots⟩ := law
  refine ⟨by rw [table]; simpa [State.modEntry, State.setEntry] using length, ?_, ?_⟩
  · rw [table]; exact State.forall_modEntry entries fun _ => good
  · by_cases inTable : i < s.table.length
    · have place : s.table[i]? = some (s.entry i) := by simp [State.entry, inTable]
      have moved := flatMap_set_perm Entry.slots (f (s.entry i)) place
      refine List.Perm.trans ?_ slots
      rw [table]
      change (hand' ++ t.free ++ (s.table.set i (f (s.entry i))).flatMap Entry.slots).Perm _
      refine (List.perm_append_right_iff (s.entry i).slots).mp ?_
      have shuffle : ∀ a b c : List Nat, (a ++ b ++ c).Perm (a ++ (c ++ b)) := fun a b c => by
        rw [List.append_assoc]; exact List.perm_append_comm.append_left a
      calc (hand' ++ t.free ++ (s.table.set i (f (s.entry i))).flatMap Entry.slots ++ (s.entry i).slots)
        _ |>.Perm ((hand' ++ t.free) ++ ((s.entry i).slots ++ (s.table.set i (f (s.entry i))).flatMap Entry.slots)) :=
          shuffle ..
        _ |>.Perm ((hand' ++ t.free) ++ ((f (s.entry i)).slots ++ s.table.flatMap Entry.slots)) := moved.append_left _
        _ |>.Perm ((hand' ++ t.free ++ (f (s.entry i)).slots) ++ s.table.flatMap Entry.slots) := by
          rw [List.append_assoc (hand' ++ t.free)]
        _ |>.Perm ((hand ++ s.free ++ (s.entry i).slots) ++ s.table.flatMap Entry.slots) := perm.append_right _
        _ |>.Perm (hand ++ s.free ++ s.table.flatMap Entry.slots ++ (s.entry i).slots) := by
          rw [List.append_assoc]; exact (shuffle ..).symm
    · have same : t.table = s.table := by
        rw [table, State.modEntry, State.setEntry, State.withTable_table,
          List.set_eq_of_length_le (Nat.le_of_not_lt inTable)]
      rw [same]
      exact ((out (Nat.le_of_not_lt inTable)).append_right _).trans slots

/-- One entry is changed that keeps its slots. -/
theorem State.SlotsWith.keeps (law : s.SlotsWith hand) {i : Nat} {f : Entry → Entry}
    (table : t.table = (s.modEntry i f).table) (free : t.free = s.free)
    (good : (s.entry i).holdsSlots → (f (s.entry i)).holdsSlots) (slots : (f (s.entry i)).slots = (s.entry i).slots) :
    t.SlotsWith hand :=
  law.modEntry table good (by rw [slots, free]) fun _ => by rw [free]

/-- Every entry is changed, and each keeps its slots. -/
theorem State.SlotsWith.mapped (law : s.SlotsWith hand) {f : Entry → Entry} (table : t.table = s.table.map f)
    (free : t.free = s.free) (good : ∀ e : Entry, e.holdsSlots → (f e).holdsSlots)
    (slots : ∀ e : Entry, (f e).slots = e.slots) : t.SlotsWith hand := by
  obtain ⟨length, entries, perm⟩ := law
  refine ⟨by rw [table, List.length_map, length], fun e mem => ?_, ?_⟩
  · rw [table] at mem
    obtain ⟨old, before, rfl⟩ := List.mem_map.mp mem
    exact good old (entries old before)
  · rw [table, free, List.flatMap_map]
    simpa only [slots] using perm

end Slots

/-- An entry outside ASSEMBLING with its slots as they are, and no slot or its whole body. -/
theorem Entry.holdsSlots.moved {e f : Entry} (h : e.holdsSlots) (map : f.map = e.map) (total : f.total = e.total)
    (provisional : f.provisional = e.provisional) (used : f.state ≠ .free)
    (whole : e.state = .assembling → e.slots = [] ∨ e.bodyHeld = true) : f.holdsSlots := by
  have slots : f.slots = e.slots := by rw [Entry.slots, Entry.slots, map]
  have held : f.bodyHeld = e.bodyHeld := by rw [Entry.bodyHeld, Entry.bodyHeld, map, total]
  obtain ⟨length, state, prov⟩ := h
  refine ⟨map ▸ length, fun _ => ?_, fun p => slots ▸ prov (provisional ▸ p)⟩
  rw [slots, held]
  by_cases assembling : e.state = .assembling
  · exact (whole assembling).imp_right fun h => ⟨h, used⟩
  · exact (state assembling).imp_right fun h => ⟨h.1, used⟩

theorem Entry.holdsSlots_of_slots_nil {e : Entry} (length : e.map.length = 16) (empty : e.slots = []) : e.holdsSlots :=
  ⟨length, fun _ => .inl empty, fun _ => empty⟩

theorem Entry.holdsSlots_of_core {e f : Entry} (core : e.core = f.core) (h : f.holdsSlots) : e.holdsSlots := by
  obtain ⟨length, state, prov⟩ := h
  refine ⟨Entry.map_of_core core ▸ length, fun now => ?_, fun now => ?_⟩
  · rw [Entry.slots_of_core core, Entry.bodyHeld_of_core core, Entry.state_of_core core]
    exact state (Entry.state_of_core core ▸ now)
  · rw [Entry.slots_of_core core]
    exact prov (Entry.provisional_of_core core ▸ now)

theorem State.entry_holdsSlots {s : State} {hand : List Nat} (law : s.SlotsWith hand) (i : Nat) :
    (s.entry i).holdsSlots :=
  (State.forall_entry (P := Entry.holdsSlots) (Entry.holdsSlots_of_slots_nil rfl rfl)).mpr law.2.1 i

theorem Turn.slotsWith {g : Granted} {s t : State} {hand : List Nat} (h : Turn g s t) (wait : g.wait) (owner : g.owner)
    (law : s.SlotsWith hand) : t.SlotsWith hand := by
  have entry := State.entry_holdsSlots law
  cases h with
  | edit x core =>
    obtain ⟨length, entries, perm⟩ := law
    refine ⟨by simpa using (congrArg List.length core).trans ((List.length_map _).trans length), fun e mem => ?_, ?_⟩
    · obtain ⟨old, mem, same⟩ := List.mem_map.mp (core ▸ List.mem_map_of_mem (f := Entry.core) mem)
      exact Entry.holdsSlots_of_core same.symm (entries old mem)
    · have slots : ∀ l : List Entry, l.flatMap Entry.slots = (l.map Entry.core).flatMap fun c => c.map.filterMap id :=
        fun l => by rw [List.flatMap_map]; rfl
      simpa [slots, core] using perm
  | close i reason whole =>
    exact law.keeps (i := i) (by simp [State.closeEntry, State.leaveWaiting, State.modEntry, State.setEntry, State.entry])
      (State.closeEntry_frame s i reason .free (by decide))
      (f := fun e => e.close reason s.uptime) (fun h => h.moved rfl rfl rfl (by simp [Entry.close]) (whole owner)) rfl
  | dissolve i empty =>
    exact law.keeps (i := i) (by simp [State.leaveWaiting, State.modEntry, State.setEntry, State.entry])
      (s.emptySlot_frame i .free (by decide))
      (f := fun e => Entry.freed e.generation) (fun _ => Entry.holdsSlots_of_slots_nil rfl rfl) (by rw [empty]; rfl)
  | use i issue total cat provisional free =>
    exact law.keeps rfl rfl (fun _ => Entry.holdsSlots_of_slots_nil rfl rfl)
      ((entry i).2.slots_of_free free).symm
  | retarget i issue total cat provisional assemblyEnd gapEnd empty =>
    exact law.keeps rfl rfl (fun h => Entry.holdsSlots_of_slots_nil h.1 empty) rfl
  | locating i _ _ _ whole => exact law.keeps rfl rfl (fun h => h.moved rfl rfl rfl (by simp) fun _ => .inr whole) rfl
  | outside i _ locating =>
    exact law.keeps rfl rfl (fun h => h.moved rfl rfl rfl (by simp) fun now => by simp [locating wait] at now) rfl
  | pend i _ _ _ _ whole => exact law.keeps rfl rfl (fun h => h.moved rfl rfl rfl (by simp) fun _ => .inr whole) rfl
  | again i _ _ _ _ locating part =>
    have empty := (entry i).2.slots_of_partial (by simp [locating wait]) part
    exact law.keeps rfl rfl (fun _ => Entry.holdsSlots_of_slots_nil rfl rfl) (by rw [empty]; rfl)
  | relocate =>
    refine law.mapped rfl rfl (fun e h => ?_) fun e => ?_
    · unfold Entry.relocated
      split
      · next was => exact h.moved rfl rfl rfl (by simp) fun now => by simp [was] at now
      · exact h
    · unfold Entry.relocated; split <;> rfl
  | claim i slot _ pending =>
    exact law.keeps (f := fun e => { e with state := .claimed, claimSlot := some slot }) rfl rfl
      (fun h => h.moved rfl rfl rfl (by simp) fun now => by simp [pending] at now) rfl
  | unclaim i target claimed presented =>
    exact law.keeps (i := i) (by simp [State.modEntry, State.setEntry]) (s.emptySlot_frame i .free (by decide))
      (f := fun e => { e with state := target, claimSlot := none })
      (fun h => h.moved rfl rfl rfl (by rcases presented with rfl | rfl <;> simp) fun now => by simp [claimed] at now) rfl
  | restart =>
    refine law.mapped rfl rfl (fun e h => ?_) fun e => ?_
    · unfold Entry.unclaimed
      split
      · next was => exact h.moved rfl rfl rfl (by simp) fun now => by simp [was] at now
      · exact h
    · unfold Entry.unclaimed; split <;> rfl
  | leave => exact law
  | join => exact law

theorem Move.slotsWith {g : Granted} {p q : List Nat × State} (h : Move g p q) (wait : g.wait) (owner : g.owner)
    (law : p.2.SlotsWith p.1) : q.2.SlotsWith q.1 := by
  have entry := State.entry_holdsSlots law
  cases h with
  | aside h => exact by simpa only [State.SlotsWith, h.table, h.free] using law
  | turn h => exact h.slotsWith wait owner law
  | @clear hand s i =>
    refine State.SlotsWith.modEntry law (f := fun e => { e with map := emptyMap, offer := none }) rfl
      (fun _ => Entry.holdsSlots_of_slots_nil rfl rfl) ?_ fun out => ?_
    · simp [Entry.slots_of_emptyMap]
    · simp [s.entry_of_length_le out, Entry.slots_of_emptyMap, Entry.freed]
  | @pop hand rest s slot head =>
    obtain ⟨length, entries, perm⟩ := law
    refine ⟨length, entries, List.Perm.trans ?_ perm⟩
    simp only [head, State.withFree_free, State.withFree_table, List.append_assoc, List.cons_append]
    exact List.perm_middle.symm
  | @put hand s slot =>
    obtain ⟨length, entries, perm⟩ := law
    refine ⟨length, entries, List.Perm.trans ?_ perm⟩
    change (hand ++ (s.free ++ [slot]) ++ _).Perm ((slot :: (hand ++ s.free)) ++ _)
    rw [← List.append_assoc]
    exact (List.perm_append_singleton slot (hand ++ s.free)).append_right _
  | @take hand s slot i f source uptime assemblyEnd assembling position vacant =>
    have empty : (s.entry i).map.getD f.index none = none := by
      cases provisional : (s.entry i).provisional with
      | false => exact vacant provisional
      | true => exact Entry.getD_of_slots_nil ((entry i).2.2 provisional) _
    have taken := Entry.slots_set_perm slot ((entry i).1.symm ▸ position) empty
    refine State.SlotsWith.modEntry law (f := fun e => e.taking f source slot uptime assemblyEnd) rfl (fun h => ?_) ?_
      fun out => absurd (State.inTable_of_state assembling (by decide)) (Nat.not_lt.mpr out)
    · exact ⟨by simpa [Entry.taking] using h.1, fun now => absurd assembling now, fun now => by cases now⟩
    · change (hand ++ s.free ++ ((s.entry i).map.set f.index (some slot)).filterMap id).Perm _
      refine (taken.append_left _).trans ?_
      simp only [List.cons_append]
      exact List.perm_middle

/-! ### Sizes and ranges -/

/-- The size and range of one entry. -/
def Entry.sized (e : Entry) : Prop := e.map.length = 16 ∧ e.precedence.getD 0 ≤ 7

theorem Settings.configured_le {c : Settings} (range : ∀ p ∈ c.precedences, p ≤ 6) (k : Category) :
    c.configured k ≤ 7 := by
  have place : ∀ n, c.precedences.getD n 0 ≤ 7 := fun n => by
    rw [List.getD_eq_getElem?_getD]
    cases h : c.precedences[n]? with
    | none => simp
    | some p => exact Nat.le_succ_of_le (range p (List.mem_of_getElem? h))
  cases k with
  | national => exact Nat.le_refl 7
  | _ => exact place _

theorem bump_le {n : Nat} (h : n ≤ 65535) : bump n ≤ 65535 := by
  unfold bump
  split
  · next below => exact below
  · exact h

theorem Counters.advance_le {c : Counters} (h : ∀ n ∈ c.inOrder, n ≤ 65535) (k : Counter) :
    ∀ n ∈ (c.advance k).inOrder, n ≤ 65535 := by
  simp only [Counters.inOrder, List.forall_mem_cons] at h
  cases k <;> simp [Counters.advance, Counters.inOrder, h, bump_le]

theorem Settings.load_precedences {c : Settings} (range : ∀ p ∈ c.precedences, p ≤ 6) {zone n v : Nat}
    (accepted : c.accepts zone n v = true) : ∀ p ∈ (c.load n v).precedences, p ≤ 6 := by
  have inRange : settingInRange n v = true := ((Settings.accepts_iff c zone n v).mp accepted).2.1
  by_cases table : 48 ≤ n ∧ n ≤ 54
  · have load : (c.load n v).precedences = c.precedences.set (n - 48) v := by
      obtain ⟨low, high⟩ := table
      interval_cases n <;> rfl
    have low : v ≤ 6 := by
      obtain ⟨low, high⟩ := table
      have bound : within 1 6 v = true := by interval_cases n <;> exact inRange
      simp only [within, Bool.and_eq_true, decide_eq_true_eq] at bound
      exact bound.2
    rw [load]
    intro p mem
    obtain old | rfl := List.mem_or_eq_of_mem_set mem
    · exact range p old
    · exact low
  · have load : (c.load n v).precedences = c.precedences := by
      unfold Settings.load
      split
      case h_27 =>
        rw [if_neg table]
        split
        · rfl
        · split <;> rfl
      all_goals rfl
    rw [load]
    exact range

/-- The parts that sizes and ranges read. -/
theorem State.onlyChanges.sized {s t : State} {ps : List Part} (only : s.onlyChanges ps t)
    (apart : ∀ p ∈ [Part.settings, .table, .store, .ar, .ru, .pu, .counters], p ∉ ps) (law : s.Sized) : t.Sized := by
  have table : t.table = s.table := only .table (apart _ (by decide))
  have store : t.store = s.store := only .store (apart _ (by decide))
  have ar : t.ar = s.ar := only .ar (apart _ (by decide))
  have ru : t.ru = s.ru := only .ru (apart _ (by decide))
  have pu : t.pu = s.pu := only .pu (apart _ (by decide))
  have counters : t.counters = s.counters := only .counters (apart _ (by decide))
  have settings : t.settings = s.settings := only .settings (apart _ (by decide))
  obtain ⟨shape, range⟩ := law
  constructor
  · simpa only [State.Shape, table, store, ar, ru, pu] using shape
  · simpa only [State.InRange, table, ar, ru, pu, counters, settings] using range

section Sized

variable {g : Granted} {s t : State}

theorem Aside.sized (h : Aside g s t) (granted : g.range) (law : s.Sized) : t.Sized := by
  obtain ⟨⟨length, maps, store, cache, tallies, slots⟩,
    ⟨threshold, optout, notices, quality, counters, settings, precedences, deferred⟩⟩ := id law
  cases h with
  | quiet only => exact only.sized (by decide) law
  | radio only => exact only.sized (by decide) law
  | clock x => exact (s.withTb_frame x).sized (by decide) law
  | loader x => exact (s.withSl_frame x).sized (by decide) law
  | ready => exact s.ready_frame.sized (by decide) law
  | link a => exact (s.withAl_frame a).sized (by decide) law
  | load _ accepted =>
    exact ⟨law.shape, threshold, optout, notices, quality, counters, Settings.load_precedences settings accepted,
      precedences, deferred⟩
  | count c =>
    exact ⟨law.shape, threshold, optout, notices, quality, Counters.advance_le counters c, settings, precedences, deferred⟩
  | present x same range =>
    obtain ⟨threshold, optout, notices⟩ := range ⟨threshold, optout, notices⟩
    exact ⟨⟨length, maps, store, cache, tallies, same ▸ slots⟩,
      threshold, optout, notices, quality, counters, settings, precedences, deferred⟩
  | locate x _ sameCache range =>
    exact ⟨⟨length, maps, store, sameCache cache, tallies, slots⟩,
      threshold, optout, notices, range quality, counters, settings, precedences, deferred⟩
  | report x sameTallies range =>
    exact ⟨⟨length, maps, store, cache, sameTallies.trans tallies, slots⟩,
      threshold, optout, notices, quality, counters, settings, precedences, range granted deferred⟩

/-- The sizes and ranges of the entries. -/
def State.entriesSized (s : State) : Prop := s.table.length = 32 ∧ ∀ e ∈ s.table, e.sized

theorem State.entriesSized.modEntry {i : Nat} {f : Entry → Entry} (law : s.entriesSized)
    (table : t.table = (s.modEntry i f).table) (good : (s.entry i).sized → (f (s.entry i)).sized) : t.entriesSized :=
  ⟨by rw [table]; simpa [State.modEntry, State.setEntry] using law.1,
    by rw [table]; exact State.forall_modEntry law.2 fun _ => good⟩

theorem State.entriesSized.mapped {f : Entry → Entry} (law : s.entriesSized) (table : t.table = s.table.map f)
    (good : ∀ e : Entry, e.sized → (f e).sized) : t.entriesSized := by
  refine ⟨by rw [table, List.length_map, law.1], fun e mem => ?_⟩
  rw [table] at mem
  obtain ⟨old, before, rfl⟩ := List.mem_map.mp mem
  exact good old (law.2 old before)

theorem Turn.entriesSized (h : Turn g s t) (granted : g.range) (law : s.entriesSized) : t.entriesSized := by
  cases h with
  | edit x core =>
    refine ⟨by simpa using (congrArg List.length core).trans ((List.length_map _).trans law.1), fun e mem => ?_⟩
    obtain ⟨old, before, same⟩ := List.mem_map.mp (core ▸ List.mem_map_of_mem (f := Entry.core) mem)
    rw [Entry.sized, ← Entry.map_of_core same, ← Entry.precedence_of_core same]
    exact law.2 old before
  | close i reason =>
    exact law.modEntry (i := i) (f := fun e => e.close reason s.uptime)
      (by simp [State.closeEntry, State.leaveWaiting, State.modEntry, State.setEntry, State.entry])
      fun h => ⟨h.1, Nat.zero_le _⟩
  | dissolve i =>
    exact law.modEntry (i := i) (f := fun e => Entry.freed e.generation)
      (by simp [State.leaveWaiting, State.modEntry, State.setEntry, State.entry]) fun _ => ⟨rfl, Nat.zero_le _⟩
  | use => exact law.modEntry rfl fun _ => ⟨rfl, Nat.zero_le _⟩
  | retarget => exact law.modEntry rfl fun h => ⟨h.1, h.2⟩
  | locating => exact law.modEntry rfl fun h => ⟨h.1, h.2⟩
  | outside => exact law.modEntry rfl fun h => ⟨h.1, h.2⟩
  | pend _ _ _ _ _ _ range => exact law.modEntry rfl fun h => ⟨h.1, range granted⟩
  | again => exact law.modEntry rfl fun h => ⟨rfl, h.2⟩
  | relocate =>
    refine law.mapped rfl fun e h => ?_
    unfold Entry.relocated
    split <;> exact h
  | claim i slot =>
    exact law.modEntry (f := fun e => { e with state := .claimed, claimSlot := some slot }) rfl fun h => ⟨h.1, h.2⟩
  | unclaim i target =>
    exact law.modEntry (i := i) (f := fun e => { e with state := target, claimSlot := none })
      (by simp [State.modEntry, State.setEntry]) fun h => ⟨h.1, h.2⟩
  | restart =>
    refine law.mapped rfl fun e h => ?_
    unfold Entry.unclaimed
    split <;> exact h
  | leave => exact law
  | join => exact law

/-- What a move of an entry leaves of AR's and PU's parts. -/
theorem Turn.beside (h : Turn g s t) : t.ar.cache = s.ar.cache ∧ t.ar.quality = s.ar.quality
    ∧ (s.pu.inRange → t.pu.inRange) ∧ (s.pu.slots.length = 4 → t.pu.slots.length = 4) := by
  have emptied : ∀ i, (s.pu.inRange → (s.emptySlot i).pu.inRange)
      ∧ (s.pu.slots.length = 4 → (s.emptySlot i).pu.slots.length = 4) := fun i => by
    unfold State.emptySlot
    split
    · exact ⟨id, fun h => by simpa using h⟩
    · exact ⟨id, id⟩
  cases h with
  | close i => exact ⟨by simp [State.closeEntry, State.leaveWaiting, State.modEntry, State.setEntry],
      by simp [State.closeEntry, State.leaveWaiting, State.modEntry, State.setEntry], emptied i⟩
  | dissolve i => exact ⟨by simp [State.leaveWaiting, State.modEntry, State.setEntry],
      by simp [State.leaveWaiting, State.modEntry, State.setEntry], emptied i⟩
  | unclaim i => exact ⟨by simp [State.modEntry, State.setEntry], by simp [State.modEntry, State.setEntry], emptied i⟩
  | claim => exact ⟨rfl, rfl, id, fun h => by simpa [State.modEntry, State.setEntry] using h⟩
  | restart => exact ⟨rfl, rfl, fun h => ⟨h.1, h.2.1, Nat.zero_le _⟩, fun _ => rfl⟩
  | _ => exact ⟨rfl, rfl, id, id⟩

theorem Turn.sized (h : Turn g s t) (granted : g.range) (law : s.Sized) : t.Sized := by
  obtain ⟨⟨length, maps, store, cache, tallies, slots⟩,
    ⟨threshold, optout, notices, quality, counters, settings, precedences, deferred⟩⟩ := law
  obtain ⟨sameCache, sameQuality, range, sameSlots⟩ := h.beside
  obtain ⟨threshold, optout, notices⟩ := range ⟨threshold, optout, notices⟩
  obtain ⟨length, entries⟩ := h.entriesSized granted ⟨length, fun e mem => ⟨maps e mem, precedences e mem⟩⟩
  have ru : t.ru = s.ru := h.frame .ru (by decide)
  have storeSame : t.store = s.store := h.frame .store (by decide)
  have count : t.counters = s.counters := h.frame .counters (by decide)
  have set : t.settings = s.settings := h.frame .settings (by decide)
  exact ⟨⟨length, fun e mem => (entries e mem).1, storeSame ▸ store, sameCache ▸ cache, ru ▸ tallies, sameSlots slots⟩,
    threshold, optout, notices, sameQuality ▸ quality, count ▸ counters, set ▸ settings,
    fun e mem => (entries e mem).2, ru ▸ deferred⟩

theorem State.Sized.modEntry (law : s.Sized) {i : Nat} {f : Entry → Entry}
    (good : (s.entry i).sized → (f (s.entry i)).sized) : (s.modEntry i f).Sized := by
  obtain ⟨⟨length, maps, store, cache, tallies, slots⟩,
    ⟨threshold, optout, notices, quality, counters, settings, precedences, deferred⟩⟩ := law
  obtain ⟨length, entries⟩ := State.entriesSized.modEntry (s := s) (t := s.modEntry i f)
    ⟨length, fun e mem => ⟨maps e mem, precedences e mem⟩⟩ rfl good
  exact ⟨⟨length, fun e mem => (entries e mem).1, store, cache, tallies, slots⟩,
    threshold, optout, notices, quality, counters, settings, fun e mem => (entries e mem).2, deferred⟩

end Sized

theorem Move.sized {g : Granted} {p q : List Nat × State} (h : Move g p q) (granted : g.range) (law : p.2.Sized) :
    q.2.Sized := by
  cases h with
  | aside h => exact h.sized granted law
  | turn h => exact h.sized granted law
  | clear i =>
    have cleared := State.Sized.modEntry law (i := i) (f := fun e => { e with map := emptyMap, offer := none })
      fun h => ⟨rfl, h.2⟩
    exact ((State.withFree_frame _ _).sized (by decide) cleared)
  | pop => exact ((State.withFree_frame _ _).sized (by decide) law)
  | put => exact ((State.withFree_frame _ _).sized (by decide) law)
  | @take hand s slot i f source uptime assemblyEnd =>
    obtain ⟨⟨length, maps, store, rest⟩, range⟩ := law
    exact State.Sized.modEntry (s := s.withStore (s.store.write slot f.payload))
      ⟨⟨length, maps, Memory.write_wf _ _ _ store, rest⟩, range⟩
      (f := fun e => e.taking f source slot uptime assemblyEnd) fun h => ⟨by simpa [Entry.taking] using h.1, h.2⟩

/-! ### The relay channel (04) and the requests that ended in start-up (09 R182) -/

theorem State.PortLaw.congr {s t : State} (cs : t.cs = s.cs) (law : s.PortLaw) : t.PortLaw := by
  simpa only [State.PortLaw, State.ArbiterRests, cs] using law

theorem State.TagLaw.congr {s t : State} (cs : t.cs = s.cs) (started : t.started = s.started) (law : s.TagLaw) :
    t.TagLaw := by
  simpa only [State.TagLaw, cs, started] using law

theorem State.EarlyLaw.congr {s t : State} (al : t.al = s.al) (started : t.started = s.started) (law : s.EarlyLaw) :
    t.EarlyLaw := by
  simpa only [State.EarlyLaw, al, started] using law

/-- The parts that the laws of the channel read. -/
theorem State.onlyChanges.channelled {s t : State} {ps : List Part} (only : s.onlyChanges ps t)
    (apart : .sl ∉ ps ∧ .cs ∉ ps) (law : s.Channelled) : t.Channelled := by
  have sl : t.sl = s.sl := only .sl apart.1
  have cs : t.cs = s.cs := only .cs apart.2
  exact ⟨law.port.congr cs, law.tag.congr cs (by rw [State.started, State.started, sl])⟩

theorem State.onlyChanges.earlyLaw {s t : State} {ps : List Part} (only : s.onlyChanges ps t)
    (apart : .sl ∉ ps ∧ .al ∉ ps) (law : s.EarlyLaw) : t.EarlyLaw := by
  have sl : t.sl = s.sl := only .sl apart.1
  exact law.congr (only .al apart.2) (by rw [State.started, State.started, sl])

theorem tagGood_iff (t : Word32) : tagGood t = true ↔ t.toNat ≠ 0 ∧ t.toNat ≠ 4294967295 := by
  simp only [tagGood, Bool.and_eq_true, bne_iff_ne, ne_eq, ← BitVec.toNat_inj, BitVec.toNat_ofNat]

/-- The tags that the draw may keep are station tags, other than the old one (04 R73, R75). -/
theorem nthTag_allowed {old : Word32} {i : Nat} (below : i < allowedTags old) : tagAllowed old (nthTag old i) = true := by
  have small : ∀ n, n < 4294967296 → (BitVec.ofNat 32 n).toNat = n := fun n h => by
    rw [BitVec.toNat_ofNat]; exact Nat.mod_eq_of_lt h
  have apart : ∀ n, n < 4294967296 → old.toNat ≠ n → (BitVec.ofNat 32 n != old) = true := fun n h ne => by
    rw [bne_iff_ne]
    rintro rfl
    exact ne (small n h)
  simp only [tagAllowed, Bool.and_eq_true, tagGood_iff]
  unfold nthTag
  unfold allowedTags at below
  by_cases good : tagGood old = true
  · rw [if_pos good] at below
    by_cases later : old.toNat ≤ i + 1
    · rw [if_pos ⟨good, later⟩, small _ (by omega)]
      exact ⟨by omega, apart _ (by omega) (by omega)⟩
    · rw [if_neg (fun h => later h.2), small _ (by omega)]
      exact ⟨by omega, apart _ (by omega) (by omega)⟩
  · rw [if_neg good] at below
    rw [if_neg (fun h => good h.1), small _ (by omega)]
    rw [tagGood_iff] at good
    exact ⟨by omega, apart _ (by omega) (by omega)⟩

theorem State.draw_lt (s : State) {n : Nat} (positive : 0 < n) : s.draw n < n := Nat.mod_lt _ positive

theorem State.newTag_allowed (s : State) : tagAllowed s.cs.tag s.newTag = true := by
  unfold State.newTag
  dsimp only
  split
  · next allowed => exact allowed
  · exact nthTag_allowed (State.draw_lt _ (by unfold allowedTags; split <;> decide))

theorem State.newTag_good (s : State) : tagGood s.newTag = true := (Bool.and_eq_true_iff.mp s.newTag_allowed).1

theorem State.afterTagDraw_cs (s : State) : s.afterTagDraw.cs = s.cs := s.afterTagDraw_frame .cs (by decide)

theorem State.drawTag_cs (s : State) : s.drawTag.cs = { s.cs with tag := s.newTag, tagMarked := false } := by
  simp only [State.drawTag, State.withCs_cs, State.afterTagDraw_cs]

/-- The tag is of no account to the port. -/
theorem State.PortLaw.withTag {s t : State} {tag : Word32} {marked : Bool} (law : s.PortLaw)
    (cs : t.cs = { s.cs with tag := tag, tagMarked := marked }) : t.PortLaw := by
  unfold State.PortLaw State.ArbiterRests at law ⊢
  rw [cs]
  exact law

theorem Aside.channelled {g : Granted} {s t : State} (h : Aside g s t) (granted : g.channel) (law : s.Channelled) :
    t.Channelled := by
  cases h with
  | quiet only => exact only.channelled (by decide) law
  | radio only kept => exact kept granted law
  | clock x => exact (s.withTb_frame x).channelled (by decide) law
  | loader x phase =>
    refine ⟨law.port.congr rfl, State.TagLaw.congr (s := s) rfl ?_ law.tag⟩
    rw [Bool.eq_iff_iff]
    simpa [State.started] using phase
  | ready =>
    have cs := s.loaded.drawTag_cs
    have started : s.loaded.drawTag.started = true := congrArg (·.phase == .finished) (s.loaded.drawTag_frame .sl (by decide))
    exact ⟨law.port.withTag (s := s) cs, fun not => absurd (started.symm.trans not) (by decide),
      fun _ => by rw [cs]; exact s.loaded.newTag_good⟩
  | load => exact (s.withSettings_frame _).channelled (by decide) law
  | count c => exact (s.count_frame c).channelled (by decide) law
  | link a => exact (s.withAl_frame a).channelled (by decide) law
  | present x => exact (s.withPu_frame x).channelled (by decide) law
  | locate x => exact (s.withAr_frame x).channelled (by decide) law
  | report x => exact (s.withRu_frame x).channelled (by decide) law

theorem Aside.earlyLaw {g : Granted} {s t : State} (h : Aside g s t) (law : s.EarlyLaw) : t.EarlyLaw := by
  cases h with
  | quiet only => exact only.earlyLaw (by decide) law
  | radio only => exact only.earlyLaw (by decide) law
  | clock x => exact (s.withTb_frame x).earlyLaw (by decide) law
  | loader x phase =>
    refine State.EarlyLaw.congr (s := s) rfl ?_ law
    rw [Bool.eq_iff_iff]
    simpa [State.started] using phase
  | ready =>
    have started : s.loaded.drawTag.started = true := congrArg (·.phase == .finished) (s.loaded.drawTag_frame .sl (by decide))
    exact fun not => absurd (started.symm.trans not) (by decide)
  | load => exact (s.withSettings_frame _).earlyLaw (by decide) law
  | count c => exact (s.count_frame c).earlyLaw (by decide) law
  | link a early => exact early law
  | present x => exact (s.withPu_frame x).earlyLaw (by decide) law
  | locate x => exact (s.withAr_frame x).earlyLaw (by decide) law
  | report x => exact (s.withRu_frame x).earlyLaw (by decide) law

/-- The moves of entries and slots leave the channel and the links alone. -/
theorem Move.frame {g : Granted} {p q : List Nat × State} (h : Move g p q) :
    Aside g p.2 q.2 ∨ p.2.onlyChanges [.table, .store, .free, .ar, .pu] q.2 := by
  cases h with
  | aside h => exact .inl h
  | turn h => exact .inr (h.frame.mono (by decide))
  | _ => exact .inr (by simp)

theorem Move.channelled {g : Granted} {p q : List Nat × State} (h : Move g p q) (granted : g.channel)
    (law : p.2.Channelled) : q.2.Channelled := by
  obtain aside | only := h.frame
  · exact aside.channelled granted law
  · exact only.channelled (by decide) law

theorem Move.earlyLaw {g : Granted} {p q : List Nat × State} (h : Move g p q) (law : p.2.EarlyLaw) : q.2.EarlyLaw := by
  obtain aside | only := h.frame
  · exact aside.earlyLaw law
  · exact only.earlyLaw (by decide) law

/-! ### The laws along a row of moves -/

section Moves

variable {g : Granted} {p q : List Nat × State} (h : Moves g p q)
include h

/-- What every elementary move keeps, every row of moves keeps. -/
theorem Moves.induction {P : List Nat × State → Prop} (move : ∀ p q, Move g p q → P p → P q) (start : P p) : P q := by
  induction h with
  | refl => exact start
  | tail _ last ih => exact move _ _ last ih

theorem Moves.obeys (law : p.2.Obeys g) : q.2.Obeys g where
  wait := fun granted => h.induction (P := fun p => p.2.WaitLaw) (fun _ _ m => m.waitLaw granted) (law.wait granted)
  range := fun granted => h.induction (P := fun p => p.2.Sized) (fun _ _ m => m.sized granted) (law.range granted)
  channel := fun granted =>
    h.induction (P := fun p => p.2.Channelled) (fun _ _ m => m.channelled granted) (law.channel granted)

end Moves

theorem State.moves.obeys {g : Granted} {s t : State} (h : s.moves g t) (law : s.Obeys g) : t.Obeys g := (h []).obeys law

end Sys2Proof.Machine

/-! The relay channel's own operations keep its laws (04 R67 to R71, R78 to R86). -/

namespace Sys2Proof.Machine

/-! ### The port's law, with the arbiter apart -/

/-- The port's law but for the arbiter, which may still have to choose. -/
structure Station.Open (c : Station) : Prop where
  idle : c.port ≠ .up → c.contender = none ∧ c.inFlight = none
  down : c.port = .down → c.control = [] ∧ c.bulk = [] ∧ c.echo = []
  room : ∀ q, (c.waiting q).length ≤ c.room q
  head : ∀ k, c.contender = some k → c.waiting k.queue ≠ [] ∧ c.inFlight = none
  echo : c.echo.length ≤ 4
  run : c.controlRun ≤ 4
  timeouts : c.port ≠ .faulted → c.timeoutRun ≤ 2
  kinds : ∀ q, ∀ p ∈ c.waiting q, p.queue = q

theorem State.portLaw_iff (s : State) : s.PortLaw ↔ s.cs.Open ∧ s.ArbiterRests := by
  constructor
  · rintro ⟨idle, down, control, bulk, head, echo, run, timeouts, kinds, rests⟩
    refine ⟨⟨idle, down, fun q => ?_, head, echo, run, timeouts, kinds⟩, rests⟩
    cases q
    · exact control
    · exact bulk
  · rintro ⟨⟨idle, down, room, head, echo, run, timeouts, kinds⟩, rests⟩
    exact ⟨idle, down, room .control, room .bulk, head, echo, run, timeouts, kinds, rests⟩

theorem State.portLaw_of_open {s : State} (law : s.cs.Open) (busy : s.cs.contender ≠ none ∨ s.cs.inFlight ≠ none) :
    s.PortLaw :=
  s.portLaw_iff.mpr ⟨law, fun _ flight contender => busy.elim (absurd contender) (absurd flight)⟩

theorem Station.room_of_idle {c : Station} (flight : c.inFlight = none) (q : Queue) : c.room q = q.capacity := by
  simp [Station.room, flight]

theorem Station.waiting_ne_nil_of_choice {c : Station} {q : Queue} (h : c.choice = some q) : c.waiting q ≠ [] := by
  unfold Station.choice at h
  split at h
  · next bulk => cases h; exact bulk.2
  · split at h
    · cases h; assumption
    · split at h
      · cases h; assumption
      · cases h

theorem Station.empty_of_choice_none {c : Station} (h : c.choice = none) : c.control = [] ∧ c.bulk = [] := by
  unfold Station.choice at h
  split at h
  · cases h
  · split at h
    · cases h
    · split at h
      · cases h
      · next control bulk => exact ⟨not_not.mp control, not_not.mp bulk⟩

theorem pushEcho_length {l : List EchoItem} (h : l.length ≤ 4) (e : EchoItem) : (pushEcho l e).length ≤ 4 := by
  unfold pushEcho
  split <;> simp <;> omega

theorem nextRun_le {run : Nat} (q : Queue) : nextRun run q ≤ 4 := by
  cases q <;> simp only [nextRun]
  · split <;> omega
  · omega

/-! ### The hand-over and the arbiter -/

theorem State.handOver_portLaw {s : State} (law : s.cs.Open) {q : Queue} (up : s.cs.port = .up)
    (flight : s.cs.inFlight = none) (waits : s.cs.waiting q ≠ []) : (s.handOver q).PortLaw := by
  obtain ⟨p, rest, head⟩ := List.exists_cons_of_ne_nil waits
  have kind : p.queue = q := law.kinds q p (by rw [head]; exact List.mem_cons_self)
  have kinds : ∀ r ∈ rest, r.queue = q := fun r mem => law.kinds q r (by rw [head]; exact List.mem_cons_of_mem p mem)
  have bound : rest.length + 1 ≤ q.capacity := by
    have := law.room q
    rwa [Station.room_of_idle flight, head, List.length_cons] at this
  have other : ∀ q', (s.cs.waiting q').length ≤ q'.capacity := fun q' => by
    rw [← Station.room_of_idle flight q']; exact law.room q'
  have c : (s.handOver q).cs = { s.cs.setWaiting q rest with
      contender := none
      inFlight := some { payload := p, withdrawn := false, timerEnd := s.now + s.settings.portTimeout
                         wire := frameBytes p.kind s.cs.tag p.body }
      echo := pushEcho s.cs.echo ⟨s.cs.tag, p.kind, frameCheck p.kind s.cs.tag p.body⟩
      controlRun := nextRun s.cs.controlRun q } := by
    simp only [State.handOver, head, State.withCs_cs]
  have waiting : ∀ q', (s.handOver q).cs.waiting q' = if q' = q then rest else s.cs.waiting q' := by
    rw [c]
    intro q'
    cases q <;> cases q' <;> rfl
  refine State.portLaw_of_open ⟨fun not => ?_, fun not => ?_, fun q' => ?_, fun k none => ?_, ?_, ?_, fun not => ?_,
    fun q' r mem => ?_⟩ (.inr (by rw [c]; simp))
  · rw [c] at not; exact absurd (by simpa using up) not
  · rw [c] at not; exact absurd (by simpa using not) (by simp [up])
  · have room : (s.handOver q).cs.room q' = if q = q' then q'.capacity - 1 else q'.capacity := by
      rw [c]; simp [Station.room, kind]
    rw [waiting, room]
    by_cases same : q' = q
    · subst same; simp only [if_true]; omega
    · rw [if_neg same, if_neg (Ne.symm same)]; exact other q'
  · rw [c] at none; cases none
  · rw [c]; exact pushEcho_length law.echo _
  · rw [c]; exact nextRun_le q
  · rw [c]; cases q <;> exact law.timeouts (by simp [up])
  · rw [waiting] at mem
    by_cases same : q' = q
    · rw [if_pos same] at mem; rw [same]; exact kinds r mem
    · rw [if_neg same] at mem; exact law.kinds q' r mem

theorem State.PortLaw.open {s : State} (law : s.PortLaw) : s.cs.Open := (s.portLaw_iff.mp law).1

theorem State.PortLaw.tryHandOver {s : State} (law : s.PortLaw) : s.tryHandOver.PortLaw := by
  unfold State.tryHandOver
  split
  · next may =>
    split
    · next k contender =>
      obtain ⟨waits, flight⟩ := law.open.head k contender
      have up : s.cs.port = .up := by
        simp only [Station.mayGo, contender, Bool.and_eq_true, beq_iff_eq] at may
        exact may.1.1.1.1
      exact State.handOver_portLaw law.open up flight waits
    · exact law
  · exact law

theorem Station.Open.withContender {c : Station} (law : c.Open) (up : c.port = .up) {k : Contender}
    (waits : c.waiting k.queue ≠ []) (flight : c.inFlight = none) : ({ c with contender := some k } : Station).Open :=
  ⟨fun not => absurd up not, law.down, fun q => by simpa [Station.room] using law.room q,
    fun k' same => by cases same; exact ⟨by simpa using waits, flight⟩, law.echo, law.run, law.timeouts,
    fun q p mem => law.kinds q p (by simpa using mem)⟩

theorem State.contend_portLaw {s : State} (law : s.cs.Open) {q : Queue} (up : s.cs.port = .up)
    (flight : s.cs.inFlight = none) (waits : s.cs.waiting q ≠ []) : (s.contend q).PortLaw :=
  State.PortLaw.tryHandOver (State.portLaw_of_open (law.withContender up (k := ⟨q, _, _⟩) waits flight) (.inl (by simp)))

/-- The arbiter has chosen. -/
theorem State.arbitrate_portLaw {s : State} (law : s.cs.Open) : s.arbitrate.PortLaw := by
  unfold State.arbitrate
  split
  · next ready =>
    obtain ⟨up, flight, -⟩ := ready
    split
    · next q choice => exact State.contend_portLaw law up flight (Station.waiting_ne_nil_of_choice choice)
    · next none => exact s.portLaw_iff.mpr ⟨law, fun _ _ _ => Station.empty_of_choice_none none⟩
  · next busy => exact s.portLaw_iff.mpr ⟨law, fun up flight contender => absurd ⟨up, flight, contender⟩ busy⟩

/-! ### Requests and removals (04 R78 to R81) -/

theorem Payload.queue_of_sameIdentity {w p : Payload} (same : w.sameIdentity p = true) : w.queue = p.queue := by
  unfold Payload.sameIdentity at same
  split at same
  · rfl
  · rfl
  · rfl
  · rfl
  · rfl
  · rfl
  · rfl
  · cases same

theorem Payload.merge_queue {w p : Payload} (same : w.sameIdentity p = true) : (w.merge p).queue = p.queue := by
  have own := Payload.queue_of_sameIdentity same
  unfold Payload.merge
  split
  · rfl
  · exact own
  · rfl

/-- A queue's frames are replaced by as many of its kind. -/
theorem Station.Open.setWaiting {c : Station} (law : c.Open) {q : Queue} {l : List Payload}
    (length : l.length ≤ c.room q) (kinds : ∀ p ∈ l, p.queue = q) (empty : c.port = .down → l = [])
    (waits : c.waiting q ≠ [] → l ≠ []) : (c.setWaiting q l).Open := by
  have room : ∀ q', (c.setWaiting q l).room q' = c.room q' := fun q' => by simp [Station.room]
  have waiting : ∀ q', (c.setWaiting q l).waiting q' = if q' = q then l else c.waiting q' := by
    intro q'; cases q <;> cases q' <;> rfl
  refine ⟨by simpa using law.idle, fun down => ?_, fun q' => ?_, fun k contender => ?_, ?_, ?_, ?_, fun q' p mem => ?_⟩
  · rw [Station.setWaiting_port] at down
    obtain ⟨control, bulk, echo⟩ := law.down down
    cases q
    · exact ⟨empty down, bulk, echo⟩
    · exact ⟨control, empty down, echo⟩
  · rw [waiting, room]
    split
    · next same => rw [same]; exact length
    · exact law.room q'
  · rw [Station.setWaiting_contender] at contender
    obtain ⟨stands, flight⟩ := law.head k contender
    refine ⟨?_, by simpa using flight⟩
    rw [waiting]
    split
    · next same => exact waits (same ▸ stands)
    · exact stands
  · cases q <;> exact law.echo
  · cases q <;> exact law.run
  · cases q <;> exact law.timeouts
  · rw [waiting] at mem
    split at mem
    · next same => rw [same]; exact kinds p mem
    · exact law.kinds q' p mem

theorem State.PortLaw.request {s : State} (law : s.PortLaw) (p : Payload) : (s.request p).PortLaw := by
  unfold State.request
  cases answer : s.answerTo p with
  | unavailable => exact law
  | full => exact law.congr rfl
  | merged =>
    have up : s.cs.port = .up := by
      by_contra not
      simp [State.answerTo, not] at answer
    obtain ⟨law, rests⟩ := s.portLaw_iff.mp law
    refine (State.portLaw_iff _).mpr ⟨law.setWaiting (by simpa using law.room p.queue) (fun r mem => ?_)
      (fun down => by rw [up] at down; cases down) (by simp), fun up flight contender => ?_⟩
    · obtain ⟨w, waits, rfl⟩ := List.mem_map.mp mem
      split
      · next same => exact Payload.merge_queue same
      · exact law.kinds _ w waits
    · simp only [State.withCs_cs, Station.setWaiting_port, Station.setWaiting_inFlight, Station.setWaiting_contender]
        at up flight contender
      obtain ⟨control, bulk⟩ := rests up flight contender
      cases q : p.queue <;> simp [Station.setWaiting, Station.waiting, control, bulk]
  | queued =>
    have up : s.cs.port = .up := by
      by_contra not
      simp [State.answerTo, not] at answer
    have below : (s.cs.waiting p.queue).length < s.cs.room p.queue := by
      by_contra not
      simp only [State.answerTo, up, ne_eq, not_true_eq_false, if_false, Nat.le_of_not_lt not, if_true] at answer
      split at answer <;> cases answer
    refine State.arbitrate_portLaw (law.open.setWaiting (by simp; omega) (fun r mem => ?_)
      (fun down => by rw [up] at down; cases down) (by simp))
    obtain old | new := List.mem_append.mp mem
    · exact law.open.kinds _ r old
    · rw [List.mem_singleton.mp new]

theorem State.PortLaw.removePieces {s : State} (law : s.PortLaw) (i : Issue) (index : Option Nat) :
    (s.removePieces i index).PortLaw := by
  have law := law.open
  refine State.arbitrate_portLaw ⟨fun not => ?_, fun down => ?_, fun q => ?_, fun k contender => ?_, law.echo, law.run,
    law.timeouts, fun q p mem => ?_⟩
  · obtain ⟨contender, flight⟩ := law.idle not
    simp [contender, flight]
  · obtain ⟨control, bulk, echo⟩ := law.down down
    exact ⟨control, by simp [bulk], echo⟩
  · have room := law.room q
    have same : Station.room { s.cs with
        bulk := s.cs.bulk.filter fun p => !p.isPieceOf i index
        inFlight := s.cs.inFlight.map fun f =>
          if f.payload.isPieceOf i index then { f with withdrawn := true } else f
        contender := if s.cs.contenderNamed i index then none else s.cs.contender } q = s.cs.room q := by
      cases flight : s.cs.inFlight with
      | none => simp [Station.room, flight]
      | some f => simp only [Station.room, flight, Option.map_some]; split <;> rfl
    rw [State.withCs_cs, same]
    cases q
    · exact room
    · exact (List.length_filter_le _ _).trans room
  · simp only [State.withCs_cs] at contender
    split at contender
    · cases contender
    · next unnamed =>
      obtain ⟨waits, flight⟩ := law.head k contender
      refine ⟨?_, by simp [flight]⟩
      obtain ⟨queue, count, slotEnd⟩ := k
      cases queue with
      | control => exact waits
      | bulk =>
        obtain ⟨p, rest, head⟩ := List.exists_cons_of_ne_nil waits
        have bulk : s.cs.bulk = p :: rest := head
        simp only [Station.contenderNamed, contender, bulk, beq_self_eq_true, Bool.true_and, Bool.not_eq_true] at unnamed
        simp [Station.waiting, bulk, unnamed]
  · cases q
    · exact law.kinds .control p mem
    · exact law.kinds .bulk p (List.mem_of_mem_filter mem)

/-! ### The laws beside the port -/

/-- A move that keeps the port's state and the tag, and leaves the part that says whether start-up is over. -/
theorem State.Channelled.sameLine {s t : State} (law : s.Channelled) (line : s.cs.SameLine t.cs) (sl : t.sl = s.sl)
    (port : t.PortLaw) : t.Channelled := by
  refine ⟨port, ?_⟩
  have started : t.started = s.started := by rw [State.started, State.started, sl]
  obtain ⟨before, after⟩ := law.tag
  exact ⟨fun not => line.port.trans (before (started ▸ not)), fun now => by rw [line.tag]; exact after (started ▸ now)⟩

/-- What the station's own moves leave to be shown is the port's law. -/
theorem Aside.ofPortLaw {g : Granted} {s t : State} (only : s.onlyChanges [.tb, .cs] t) (line : s.cs.SameLine t.cs)
    (port : s.PortLaw → t.PortLaw) (now : t.now = s.now) : Aside g s t :=
  .radio only (fun _ law => law.sameLine line (only .sl (by decide)) (port law.port)) now.ge

theorem Station.setWaiting_sameLine (c : Station) (q : Queue) (l : List Payload) : c.SameLine (c.setWaiting q l) := by
  cases q <;> exact ⟨rfl, rfl, rfl, rfl, rfl, rfl, rfl, rfl⟩

theorem State.request_moves (g : Granted) (s : State) (p : Payload) : s.moves g (s.request p) := by
  have port := fun law : s.PortLaw => law.request p
  cases answer : s.answerTo p with
  | unavailable => simpa only [State.request, answer] using State.moves.refl s
  | full => simpa only [State.request, answer] using (Aside.count (g := g) (s := s) .queueFull).moves
  | merged =>
    simp only [State.request, answer] at port ⊢
    exact (Aside.ofPortLaw ((s.withCs_frame _).mono (by decide)) (Station.setWaiting_sameLine ..) port rfl).moves
  | queued =>
    simp only [State.request, answer] at port ⊢
    exact (Aside.ofPortLaw (by simp)
      ((Station.setWaiting_sameLine ..).trans (State.arbitrate_sameLine (s.withCs _))) port (State.arbitrate_now _)).moves

theorem State.removePieces_sameLine (s : State) (i : Issue) (index : Option Nat) :
    s.cs.SameLine (s.removePieces i index).cs := by
  unfold State.removePieces
  refine Station.SameLine.trans ?_ (State.arbitrate_sameLine _)
  exact ⟨rfl, rfl, rfl, rfl, rfl, rfl, rfl, rfl⟩

theorem State.removePieces_moves (g : Granted) (s : State) (i : Issue) (index : Option Nat) :
    s.moves g (s.removePieces i index) :=
  (Aside.ofPortLaw (s.removePieces_frame i index) (s.removePieces_sameLine i index)
    (fun law => law.removePieces i index) (State.arbitrate_now _)).moves

end Sys2Proof.Machine

/-! The operations of the Alert Table, the Report Unit and the Presentation Unit as rows of elementary moves. -/

namespace Sys2Proof.Machine

/-! ### One update -/

theorem State.onlyChanges.moves {g : Granted} {s t : State} {ps : List Part} (only : s.onlyChanges ps t)
    (quiet : ∀ p ∈ ps, p ∈ [Part.au, .ml, .flags]) : s.moves g t :=
  (Aside.quiet (only.mono quiet)).moves

theorem map_set_of_eq {α β : Type} (f : α → β) {l : List α} {i : Nat} {x y : α} (place : l[i]? = some x)
    (same : f y = f x) : (l.set i y).map f = l.map f := by
  refine List.ext_getElem? fun j => ?_
  simp only [List.map_set, same, List.getElem?_set, List.getElem?_map, List.length_map]
  split
  · next here =>
    subst here
    obtain ⟨inList, -⟩ := List.getElem?_eq_some_iff.mp place
    rw [if_pos inList, place, Option.map_some]
  · rfl

theorem State.modEntry_moves (g : Granted) (s : State) {i : Nat} {f : Entry → Entry}
    (core : (f (s.entry i)).core = (s.entry i).core) : s.moves g (s.modEntry i f) := by
  refine (Turn.edit _ ?_).moves
  by_cases inTable : i < s.table.length
  · exact map_set_of_eq Entry.core (by simp [State.entry, inTable]) core
  · rw [List.set_eq_of_length_le (Nat.le_of_not_lt inTable)]

theorem State.count_moves (g : Granted) (s : State) (c : Counter) : s.moves g (s.count c) := (Aside.count c).moves

theorem State.flag_moves (g : Granted) (s : State) (f : Flag) : s.moves g (s.flag f) :=
  (s.flag_frame f).moves (by decide)

theorem State.withTb_moves (g : Granted) (s : State) (x : TimeBase) (later : s.now ≤ x.ms) : s.moves g (s.withTb x) :=
  (Aside.clock x later).moves

theorem State.drew_moves (g : Granted) (s : State) : s.moves g s.drew := s.withTb_moves g _ (Nat.le_refl _)

theorem State.runTo_moves (g : Granted) (s : State) (t : Nat) : s.moves g (s.runTo t) :=
  s.withTb_moves g _ (s.now_le_runTo t)

/-- A timer's end is a row of moves where what its block does is one. -/
theorem State.runsOut_moves {g : Granted} {s : State} {t : Nat} {act : State → State}
    (acts : (s.runTo t).moves g (act (s.runTo t))) : s.moves g (s.runsOut t act) := by
  unfold State.runsOut
  split
  · exact (s.runTo_moves g t).trans acts
  · exact .refl s

section

variable (g : Granted) (s : State)

omit s in
theorem if_moves {s t u : State} {c : Prop} [Decidable c] (yes : s.moves g t) (no : s.moves g u) :
    s.moves g (if c then t else u) := by split <;> assumption

theorem State.withRu_moves (x : Report) (tallies : x.tallies.length = s.ru.tallies.length)
    (deferred : g.range → (∀ d ∈ s.ru.deferred, d.precedence ≤ 7) → ∀ d ∈ x.deferred, d.precedence ≤ 7) :
    s.moves g (s.withRu x) := (Aside.report x tallies deferred).moves

theorem State.withPu_moves (x : Presentation) (slots : x.slots = s.pu.slots) (range : s.pu.inRange → x.inRange) :
    s.moves g (s.withPu x) := (Aside.present x slots range).moves

/-! ### Offer and want records (05), notices (07), attention (08) -/

theorem State.beginInterval_moves (i interval : Nat) : s.moves g (s.beginInterval i interval) :=
  (s.drew_moves g).trans (State.modEntry_moves g _ rfl)

theorem State.startOffer_moves (i : Nat) : s.moves g (s.startOffer i) := s.beginInterval_moves g i _

theorem State.resetOffer_moves (i : Nat) : s.moves g (s.resetOffer i) := by
  unfold State.resetOffer
  split
  · exact s.startOffer_moves g i
  · exact .refl s

theorem State.heardOffer_moves (i : Nat) : s.moves g (s.heardOffer i) := s.modEntry_moves g rfl

theorem State.restartGap_moves (i : Nat) : s.moves g (s.restartGap i) := s.modEntry_moves g rfl

theorem State.startWant_moves (i : Nat) : s.moves g (s.startWant i) := s.modEntry_moves g rfl

theorem State.requestWant_moves (i : Nat) : s.moves g (s.requestWant i) := by
  unfold State.requestWant
  split
  · exact s.request_moves g _
  · exact .refl s

theorem State.requestOffer_moves (i : Nat) : s.moves g (s.requestOffer i) := by
  unfold State.requestOffer
  split
  · exact s.request_moves g _
  · exact .refl s

theorem State.askForAll_moves (i : Nat) : s.moves g (s.askForAll i) :=
  (s.requestWant_moves g i).trans (State.startWant_moves g _ i)

theorem State.relayAvailable_moves : s.moves g s.relayAvailable :=
  (State.moves.foldl (State.resetOffer_moves g) _ s).trans
    (State.moves.foldl (fun s i => (s.requestWant_moves g i).trans (State.restartGap_moves g _ i)) _ _)

theorem State.post_moves (n : Notice) : s.moves g (s.post n) := by
  unfold State.post
  split
  · next room =>
    refine s.withPu_moves g _ rfl fun range => ⟨range.1, range.2.1, ?_⟩
    simpa using room
  · exact s.flag_moves g _

theorem State.postIfHeld_moves (i : Nat) (kind : NoticeKind) (successor : Option Nat) :
    s.moves g (s.postIfHeld i kind successor) := by
  unfold State.postIfHeld
  split
  · exact s.post_moves g _
  · exact .refl s

theorem State.becomeOwner_moves (i : Nat) : s.moves g (s.becomeOwner i) := (s.becomeOwner_frame i).moves (by decide)

theorem State.setSounded_moves (i : Nat) : s.moves g (s.setSounded i) := s.modEntry_moves g rfl

theorem State.reevaluate_moves (n : Nat) : s.moves g (State.reevaluate n s) := by
  have silent : ∀ s : State, s.moves g (s.withAu { s.au with owner := none, cadence := none }) := fun s =>
    (s.withAu_frame _).moves (by decide)
  induction n generalizing s with
  | zero => exact silent s
  | succ n ih =>
    obtain gone | ⟨i, -, ⟨-, kept⟩ | begun | next⟩ := State.reevaluate_cases n s
    · rw [gone]; exact silent s
    · rw [kept]; exact .refl s
    · rw [begun]; exact s.becomeOwner_moves g i
    · rw [next]; exact ((s.becomeOwner_moves g i).trans (State.setSounded_moves g _ i)).trans (ih _)

theorem State.attend_moves : s.moves g s.attend := s.reevaluate_moves g _

/-! ### Tallies (06) -/

theorem State.setTally_moves (t : Nat) (y : Option Tally) : s.moves g (s.setTally t y) :=
  s.withRu_moves g _ (by simp) fun _ range => range

theorem State.modTally_moves (t : Nat) (f : Tally → Tally) : s.moves g (s.modTally t f) := by
  unfold State.modTally
  split
  · exact s.setTally_moves g t _
  · exact .refl s

theorem State.enterWaiting_moves (t : Nat) : s.moves g (s.enterWaiting t) := by
  unfold State.enterWaiting
  split
  · exact (s.drew_moves g).trans (State.setTally_moves g _ t _)
  · exact .refl s

theorem State.takeTally_moves (t : Nat) (i : Issue) (level : Level) : s.moves g (s.takeTally t i level) :=
  (s.setTally_moves g t _).trans (State.enterWaiting_moves g _ t)

theorem State.serveDeferred_moves (t : Nat) : s.moves g (s.serveDeferred t) := by
  unfold State.serveDeferred
  split
  · split
    · exact (s.withRu_moves g { s.ru with deferred := s.ru.deferred.eraseIdx _ } rfl fun _ range d mem => range d (List.mem_of_mem_eraseIdx mem)).trans
        (State.takeTally_moves g _ t _ _)
    · exact .refl s
  · exact .refl s

theorem State.freeTally_moves (t : Nat) : s.moves g (s.freeTally t) :=
  (s.withRu_moves g
    { s.ru with tallies := s.ru.tallies.set t none, uplinkQueue := s.ru.uplinkQueue.filter fun n => n != t }
    (by simp) fun _ range => range).trans (State.serveDeferred_moves g _ t)

theorem State.settle_moves (t : Nat) : s.moves g (s.settle t) := by
  unfold State.settle
  split
  · split
    · exact s.freeTally_moves g t
    · exact s.setTally_moves g t _
  · exact .refl s

theorem State.takeOrDefer_moves (i : Issue) {precedence : Nat} (small : g.range → precedence ≤ 7) (level : Level) :
    s.moves g (s.takeOrDefer i precedence level) := by
  unfold State.takeOrDefer
  split
  · exact s.takeTally_moves g _ i level
  · refine s.withRu_moves g _ rfl fun granted range d mem => ?_
    obtain old | new := List.mem_append.mp mem
    · exact range d old
    · rw [List.mem_singleton.mp new]; exact small granted

theorem State.receiptEvent_moves (i : Issue) {precedence : Nat} (small : g.range → precedence ≤ 7) :
    s.moves g (s.receiptEvent i precedence) := by
  unfold State.receiptEvent
  split
  · exact s.modTally_moves g _ _
  · split
    · exact .refl s
    · exact s.takeOrDefer_moves g i small _

theorem mem_insertReceipt {r x : Receipt} {rs : List Receipt} (mem : x ∈ insertReceipt r rs) : x = r ∨ x ∈ rs := by
  induction rs with
  | nil => exact .inl (List.mem_singleton.mp mem)
  | cons y ys ih =>
    unfold insertReceipt at mem
    split at mem
    · exact List.mem_cons.mp mem
    · obtain rfl | later := List.mem_cons.mp mem
      · exact .inr List.mem_cons_self
      · exact (ih later).imp_right (List.mem_cons_of_mem y)

theorem mem_of_mem_foldr_insertReceipt {x : Receipt} {rs : List Receipt} (mem : x ∈ rs.foldr insertReceipt []) : x ∈ rs := by
  induction rs with
  | nil => exact mem
  | cons r rs ih =>
    obtain rfl | later := mem_insertReceipt mem
    · exact List.mem_cons_self
    · exact List.mem_cons_of_mem r (ih later)

theorem State.receiptEvents_moves {rs : List Receipt} (small : g.range → ∀ r ∈ rs, r.2.1 ≤ 7) :
    s.moves g (s.receiptEvents rs) :=
  List.foldlRecOn (motive := fun t => s.moves g t) _ _ (.refl s) fun t ht r mem =>
    ht.trans (t.receiptEvent_moves g r.1 fun granted => small granted r (mem_of_mem_foldr_insertReceipt mem))

theorem State.requestTally_moves (t : Nat) : s.moves g (s.requestTally t) := by
  unfold State.requestTally
  split
  · exact s.request_moves g _
  · exact .refl s

theorem State.ackEvent_moves (i : Issue) {precedence : Nat} (small : g.range → precedence ≤ 7) :
    s.moves g (s.ackEvent i precedence) := by
  unfold State.ackEvent
  split
  · next t _ =>
    split
    · split
      · exact .refl s
      · dsimp only
        split
        · split
          · exact (s.setTally_moves g t _).trans (State.enterWaiting_moves g _ t)
          · exact s.setTally_moves g t _
        · exact (s.setTally_moves g t _).trans (State.requestTally_moves g _ t)
        all_goals exact s.setTally_moves g t _
    · exact .refl s
  · split
    · refine s.withRu_moves g _ rfl fun _ range d mem => ?_
      obtain ⟨old, before, rfl⟩ := List.mem_map.mp mem
      split <;> exact range old before
    · exact s.takeOrDefer_moves g i small _

theorem State.leaveUplink_moves (t : Nat) : s.moves g (s.leaveUplink t) := by
  unfold State.leaveUplink
  split
  · split
    · exact s.freeTally_moves g t
    · split
      · exact s.settle_moves g t
      · exact s.enterWaiting_moves g t
  · exact .refl s

theorem State.uplinkAccepted_moves (t : Nat) (items : List Item) : s.moves g (s.uplinkAccepted t items) := by
  unfold State.uplinkAccepted
  split
  · exact ((s.setTally_moves g t _).trans (State.moves.foldl (State.request_moves g) _ _)).trans
      (State.leaveUplink_moves g _ t)
  · exact .refl s

theorem State.uplinkFailed_moves (t : Nat) : s.moves g (s.uplinkFailed t) := by
  unfold State.uplinkFailed
  split
  · next y _ =>
    have failed := fun z => (s.request_moves g (.yield y.issue)).trans (State.setTally_moves g _ t z)
    dsimp only
    split
    · exact (failed _).trans (State.freeTally_moves g _ t)
    · exact (failed _).trans (State.leaveUplink_moves g _ t)
  · exact .refl s

theorem State.sendDigest_moves (t : Nat) : s.moves g (s.sendDigest t) := by
  unfold State.sendDigest
  split
  · split
    · exact s.uplinkFailed_moves g t
    · split
      · exact s.uplinkAccepted_moves g t []
      · exact (s.setTally_moves g t _).trans ((State.sendUplink_frame _ _ _ _).moves (by decide))
  · exact .refl s

theorem State.withUplinkQueue_moves (queue : List Nat) : s.moves g (s.withRu { s.ru with uplinkQueue := queue }) :=
  s.withRu_moves g _ rfl fun _ range => range

theorem State.serveUplinks_moves (n : Nat) : s.moves g (State.serveUplinks n s) := by
  induction n generalizing s with
  | zero => exact .refl s
  | succ n ih =>
    unfold State.serveUplinks
    split
    · exact ((s.withUplinkQueue_moves g _).trans (State.sendDigest_moves g _ _)).trans (ih _)
    · exact .refl s

theorem State.nextUplink_moves : s.moves g s.nextUplink := s.serveUplinks_moves g _

theorem State.joinUplink_moves (t : Nat) : s.moves g (s.joinUplink t) :=
  ((s.modTally_moves g t _).trans (State.withUplinkQueue_moves g _ _)).trans (State.nextUplink_moves g _)

theorem State.endUplink_moves (accepted : Bool) : s.moves g (s.endUplink accepted) := by
  have cleared : s.moves g s.clearUplink := s.clearUplink_frame.moves (by decide)
  unfold State.endUplink
  split
  · dsimp only
    split
    · split
      · refine (cleared.trans ?_).trans (State.nextUplink_moves g _)
        split
        · exact State.uplinkAccepted_moves g _ _ _
        · exact State.uplinkFailed_moves g _ _
      · exact cleared.trans (State.nextUplink_moves g _)
    · exact cleared.trans (State.nextUplink_moves g _)
  · exact .refl s

theorem State.heardStand_moves (sender : Word32) (i : Issue) (bid size : Nat) :
    s.moves g (s.heardStand sender i bid size) := by
  unfold State.heardStand
  split
  · next t _ =>
    split
    · split
      · dsimp only
        split
        · exact s.setTally_moves g t _
        · exact (s.setTally_moves g t _).trans (State.requestTally_moves g _ t)
      · exact .refl s
    · exact .refl s
  · exact .refl s

theorem State.heardTally_moves (i : Issue) (items : List Item) : s.moves g (s.heardTally i items) := by
  unfold State.heardTally
  split
  · next t _ =>
    split
    · dsimp only
      split
      · exact (s.setTally_moves g t _).trans (State.joinUplink_moves g _ t)
      · exact s.setTally_moves g t _
    · exact .refl s
  · exact .refl s

theorem State.heardCovered_moves (i : Issue) (level : Level) (tags : List Word32) :
    s.moves g (s.heardCovered i level tags) := by
  unfold State.heardCovered
  split
  · next t _ =>
    split
    · dsimp only
      exact if_moves g ((s.setTally_moves g t _).trans (State.settle_moves g _ t)) (s.setTally_moves g t _)
    · exact .refl s
  · exact .refl s

theorem State.heardYield_moves (sender : Word32) (i : Issue) : s.moves g (s.heardYield sender i) := by
  unfold State.heardYield
  split
  · split
    · split
      · exact s.enterWaiting_moves g _
      · exact .refl s
    · exact .refl s
  · exact .refl s

theorem State.entryEnds_moves (i : Issue) (superseded : Bool) : s.moves g (s.entryEnds i superseded) := by
  have left : s.moves g (s.withRu { s.ru with deferred := s.ru.deferred.filter fun d => d.issue != i }) :=
    s.withRu_moves g _ rfl fun _ range d mem => range d (List.mem_of_mem_filter mem)
  unfold State.entryEnds
  dsimp only
  split
  · next t _ =>
    split
    · split
      · split
        · exact left.trans (State.freeTally_moves g _ t)
        · exact left.trans (State.setTally_moves g _ t _)
      · split
        · exact left.trans (State.setTally_moves g _ t _)
        · exact left.trans (State.freeTally_moves g _ t)
    · exact left
  · exact left

theorem State.tellEnded_moves (issue : Option Issue) (superseded : Bool) : s.moves g (s.tellEnded issue superseded) := by
  unfold State.tellEnded
  split
  · exact s.entryEnds_moves g _ _
  · exact .refl s

end

/-! ### Bodies and departures (01 R7, R16; 02 R43) -/

/-- An entry once its body is released. -/
def Entry.released (e : Entry) : Entry := if e.slots = [] then e else { e with map := emptyMap, offer := none }

theorem Entry.released_slots (e : Entry) : e.released.slots = [] := by
  unfold Entry.released
  split
  · assumption
  · exact Entry.slots_of_emptyMap rfl

theorem Entry.released_state (e : Entry) : e.released.state = e.state := by unfold Entry.released; split <;> rfl

theorem Entry.released_issue (e : Entry) : e.released.issue = e.issue := by unfold Entry.released; split <;> rfl

theorem Entry.released_ofKey (e : Entry) (k : Key) : e.released.ofKey k = e.ofKey k := by
  rw [Entry.ofKey, Entry.ofKey, Entry.released_issue, Entry.released_state]

theorem State.releaseBody_of_nil {s : State} {i : Nat} (empty : (s.entry i).slots = []) : s.releaseBody i = s := by
  simp [State.releaseBody, empty]

theorem State.releaseBody_table (s : State) (i : Nat) :
    (s.releaseBody i).table = s.table.set i (s.entry i).released := by
  unfold State.releaseBody Entry.released
  dsimp only
  split
  · by_cases inTable : i < s.table.length
    · simp [State.entry, inTable]
    · rw [List.set_eq_of_length_le (Nat.le_of_not_lt inTable)]
  · split
    · exact State.removePieces_frame _ _ _ .table (by decide)
    · rfl

theorem State.entry_of_table_set {s t : State} {i : Nat} {e : Entry} (table : t.table = s.table.set i e) (j : Nat) :
    t.entry j = (s.setEntry i e).entry j := State.entry_congr (s := s.setEntry i e) table j

theorem State.releaseBody_entry_self (s : State) (i : Nat) : (s.releaseBody i).entry i = (s.entry i).released := by
  rw [State.entry_of_table_set (s.releaseBody_table i)]
  by_cases inTable : i < s.table.length
  · exact State.entry_setEntry inTable _
  · have none : s.entry i = Entry.freed 0 := s.entry_of_length_le (Nat.le_of_not_lt inTable)
    rw [none, State.setEntry, List.set_eq_of_length_le (Nat.le_of_not_lt inTable)]
    exact none

theorem State.releaseBody_entry_ne (s : State) {i j : Nat} (other : j ≠ i) : (s.releaseBody i).entry j = s.entry j := by
  rw [State.entry_of_table_set (s.releaseBody_table i)]
  exact s.entry_setEntry_ne other _

theorem State.freeEntry_table (s : State) (i : Nat) (superseded : Bool) :
    (s.freeEntry i superseded).table = s.table.set i (Entry.freed (s.entry i).generation) := by
  have table : (((s.releaseBody i).emptySlot i).leaveWaiting i).table = (s.releaseBody i).table :=
    State.emptySlot_frame _ i .table (by decide)
  have generation : ((((s.releaseBody i).emptySlot i).leaveWaiting i).entry i).generation = (s.entry i).generation := by
    rw [State.entry_congr table, State.releaseBody_entry_self, Entry.released]; split <;> rfl
  refine (State.tellEnded_frame _ _ _ .table (by decide)).trans ?_
  rw [State.modEntry, State.setEntry, State.withTable_table, table, State.releaseBody_table, List.set_set, generation]

theorem State.freeEntry_entry_self (s : State) (i : Nat) (superseded : Bool) :
    (s.freeEntry i superseded).entry i = Entry.freed (s.entry i).generation := by
  rw [State.entry_of_table_set (s.freeEntry_table i superseded)]
  by_cases inTable : i < s.table.length
  · exact State.entry_setEntry inTable _
  · have none : s.entry i = Entry.freed 0 := s.entry_of_length_le (Nat.le_of_not_lt inTable)
    rw [State.setEntry, List.set_eq_of_length_le (Nat.le_of_not_lt inTable)]
    exact none.trans (by rw [none]; rfl)

theorem State.freeEntry_entry_ne (s : State) {i j : Nat} (other : j ≠ i) (superseded : Bool) :
    (s.freeEntry i superseded).entry j = s.entry j := by
  rw [State.entry_of_table_set (s.freeEntry_table i superseded)]
  exact s.entry_setEntry_ne other _

theorem State.closeEntry_entry_ne (s : State) {i j : Nat} (other : j ≠ i) (reason : Reason) :
    (s.closeEntry i reason).entry j = s.entry j :=
  (State.entry_setEntry_ne _ other _).trans (by simp)

section

variable (g : Granted) (s : State)

theorem State.releaseBody_moves (i : Nat) : s.moves g (s.releaseBody i) := by
  have cleared : s.moves g ((s.modEntry i fun e => { e with map := emptyMap, offer := none }).withFree
      (s.free ++ (s.entry i).slots)) := fun _ => .single (.clear i)
  unfold State.releaseBody
  dsimp only
  split
  · exact .refl s
  · split
    · exact cleared.trans (State.removePieces_moves g _ _ _)
    · exact cleared

theorem State.leaveWaiting_moves (i : Nat) : s.moves g (s.leaveWaiting i) :=
  (Turn.leave _ List.filter_sublist).moves

theorem State.freeEntry_moves (i : Nat) (superseded : Bool) : s.moves g (s.freeEntry i superseded) :=
  ((s.releaseBody_moves g i).trans
    (Turn.dissolve i (by rw [State.releaseBody_entry_self, Entry.released_slots])).moves).trans
      (State.tellEnded_moves g _ _ superseded)

theorem State.closeEntry_moves {i : Nat} (reason : Reason)
    (whole : g.owner → (s.entry i).state = .assembling → (s.entry i).slots = [] ∨ (s.entry i).bodyHeld = true) :
    s.moves g (s.closeEntry i reason) := (Turn.close i reason whole).moves

/-- An entry closes that has given up its slots. -/
theorem State.closeReleased_moves (i : Nat) (reason : Reason) (empty : (s.entry i).slots = []) :
    s.moves g (s.closeEntry i reason) := s.closeEntry_moves g reason fun _ _ => .inl empty

end

/-! ### Entries and slots taken into use (01 R9, R29; 02 R41) -/

/-- No ASSEMBLING entry is of the key. -/
def State.noneAssembles (s : State) (key : Key) : Prop :=
  ∀ j, (s.entry j).state = .assembling → (s.entry j).ofKey key = false

theorem State.noneAssembles_of_find {s : State} {key : Key} (h : s.assemblingOf key = none) : s.noneAssembles key := by
  refine (State.forall_entry (P := fun e => e.state = .assembling → e.ofKey key = false) fun h => ?_).mpr fun e mem now => ?_
  · simp [Entry.freed] at h
  · simpa [now] using List.findIdx?_eq_none_iff.mp h e mem

theorem State.noneAssembles.kept {s t : State} {key : Key} (h : s.noneAssembles key)
    (kept : ∀ j, (t.entry j).state = .assembling → t.entry j = s.entry j) : t.noneAssembles key := fun j now => by
  have same := kept j now
  rw [same] at now ⊢
  exact h j now

theorem State.findEntry_inTable {s : State} {p : Entry → Bool} {i : Nat} (h : s.findEntry p = some i) :
    i < s.table.length := (List.findIdx?_eq_some_iff_getElem.mp h).1

theorem State.reclaimChoice_inTable {s : State} {key : Key} {cat : Category} {forOffer : Bool} {i : Nat}
    (h : s.reclaimChoice key cat forOffer = some i) : i < s.table.length := by
  unfold State.reclaimChoice at h
  split at h
  · next least => cases h; exact (State.leastEntry_some least).1
  · split at h
    · cases h
    · split at h
      · next least => cases h; exact (State.leastEntry_some least).1
      · split at h
        · next least => cases h; exact (State.leastEntry_some least).1
        · exact (State.leastEntry_some h).1

/-- A FREE entry as it is taken into use (01 R9). -/
def State.usedEntry (s : State) (generation : Byte) (issue : Issue) (total : Nat) (cat : Category) (provisional : Bool) :
    Entry :=
  { Entry.freed (generation + 1) with
    state := .assembling, issue := some issue, category := some cat, total := total, provisional := provisional
    takenAt := some s.uptime, assemblyTimer := some s.assemblyEnd, want := some ⟨s.gapEnd, none⟩ }

theorem State.useEntry_entry_self {s : State} {i : Nat} (inTable : i < s.table.length) (issue : Issue) (total : Nat)
    (cat : Category) (provisional : Bool) : (s.useEntry i issue total cat provisional).entry i
      = s.usedEntry (s.entry i).generation issue total cat provisional := State.entry_setEntry inTable _

theorem State.takeEntry_moves (g : Granted) {s t : State} {issue : Issue} {total : Nat} {cat : Category}
    {forOffer : Bool} {i : Nat} (fresh : s.noneAssembles issue.key)
    (h : s.takeEntry issue total cat forOffer = some (i, t)) :
    s.moves g t ∧ ∃ (u : State) (generation : Byte), t.entry i = u.usedEntry generation issue total cat forOffer := by
  unfold State.takeEntry at h
  split at h
  · next free =>
    cases h
    have state : (s.entry i).state = .free := by simpa using State.findEntry_some free
    exact ⟨(Turn.use i issue total cat forOffer state fresh).moves, s, _,
      State.useEntry_entry_self (State.findEntry_inTable free) _ _ _ _⟩
  · split at h
    · next reclaimed =>
      cases h
      have state : ((s.freeEntry i false).entry i).state = .free := by rw [State.freeEntry_entry_self]; rfl
      have fresh : (s.freeEntry i false).noneAssembles issue.key := fresh.kept fun j now => by
        by_cases same : j = i
        · subst same; rw [state] at now; cases now
        · exact s.freeEntry_entry_ne same false
      refine ⟨(s.freeEntry_moves g i false).trans (Turn.use i issue total cat forOffer state fresh).moves, _, _,
        State.useEntry_entry_self ?_ _ _ _ _⟩
      rw [State.freeEntry_table, List.length_set]
      exact State.reclaimChoice_inTable reclaimed
    · cases h

/-- Room in the store is made at the cost of entries that do not assemble, or of an ASSEMBLING one of another key. -/
theorem State.makeRoom_entry {s t : State} {key : Key} {cat : Category} (h : s.makeRoom key cat = some t) (j : Nat) :
    ((t.entry j).state = .assembling → t.entry j = s.entry j)
      ∧ ((s.entry j).state = .assembling → (s.entry j).ofKey key = true → t.entry j = s.entry j) := by
  have release : ∀ i, (s.entry i).state ≠ .assembling →
      (((s.releaseBody i).entry j).state = .assembling → (s.releaseBody i).entry j = s.entry j)
        ∧ ((s.entry j).state = .assembling → (s.entry j).ofKey key = true → (s.releaseBody i).entry j = s.entry j) := by
    intro i not
    by_cases same : j = i
    · subst same
      rw [State.releaseBody_entry_self, Entry.released_state]
      exact ⟨fun now => absurd now not, fun now => absurd now not⟩
    · rw [s.releaseBody_entry_ne same]
      exact ⟨fun _ => rfl, fun _ _ => rfl⟩
  have ranked : ∀ {rank : Entry → Option (Nat × Nat)} {i : Nat}, s.leastEntry rank = some i →
      (∀ e : Entry, e.state = .assembling → rank e = none) → (s.entry i).state ≠ .assembling := by
    intro rank i least unranked now
    obtain ⟨-, k, has, -⟩ := State.leastEntry_some least
    rw [unranked _ now] at has
    cases has
  unfold State.makeRoom at h
  split at h
  · next least => cases h; exact release _ (ranked least fun e now => by simp [Entry.pressureRank1, now])
  · split at h
    · next least => cases h; exact release _ (ranked least fun e now => by simp [Entry.pressureRank2, now])
    · split at h
      · next least =>
        cases h
        exact release _ (ranked least fun e now => by simp [Entry.pressureRank3, Entry.isTombstone, now])
      · split at h
        · next i least =>
          cases h
          obtain ⟨-, k, has, -⟩ := State.leastEntry_some least
          have other : (s.entry i).ofKey key = false := by
            by_contra own
            unfold Entry.pressureRank4 at has
            split at has <;> simp [own] at has
          by_cases same : j = i
          · subst same
            rw [State.freeEntry_entry_self]
            refine ⟨nofun, fun _ own => ?_⟩
            rw [other] at own
            cases own
          · rw [s.freeEntry_entry_ne same]
            exact ⟨fun _ => rfl, fun _ _ => rfl⟩
        · cases h

theorem State.makeRoom_moves (g : Granted) {s t : State} {key : Key} {cat : Category} (h : s.makeRoom key cat = some t) :
    s.moves g t := by
  unfold State.makeRoom at h
  split at h
  · cases h; exact s.releaseBody_moves g _
  · split at h
    · cases h; exact s.releaseBody_moves g _
    · split at h
      · cases h; exact s.releaseBody_moves g _
      · split at h
        · cases h; exact s.freeEntry_moves g _ false
        · cases h

theorem State.popSlot_moves (g : Granted) {s t : State} {slot : Nat} (h : s.popSlot = some (slot, t)) (hand : List Nat) :
    Moves g (hand, s) (slot :: hand, t) := by
  unfold State.popSlot at h
  split at h
  · next head => cases h; exact .single (.pop head)
  · cases h

theorem State.popSlot_entry {s t : State} {slot : Nat} (h : s.popSlot = some (slot, t)) (j : Nat) :
    t.entry j = s.entry j := State.entry_congr (s.popSlot_frame h .table (by decide)) j

theorem State.findSlot_moves (g : Granted) {s t : State} {key : Key} {cat : Category} {slot : Nat}
    (h : s.findSlot key cat = some (slot, t)) (hand : List Nat) : Moves g (hand, s) (slot :: hand, t) := by
  unfold State.findSlot at h
  split at h
  · next popped => cases h; exact State.popSlot_moves g popped hand
  · split at h
    · next room => exact (State.makeRoom_moves g room hand).trans (State.popSlot_moves g h hand)
    · cases h

theorem State.findSlot_entry {s t : State} {key : Key} {cat : Category} {slot : Nat}
    (h : s.findSlot key cat = some (slot, t)) (j : Nat) :
    ((t.entry j).state = .assembling → t.entry j = s.entry j)
      ∧ ((s.entry j).state = .assembling → (s.entry j).ofKey key = true → t.entry j = s.entry j) := by
  unfold State.findSlot at h
  split at h
  · next popped => cases h; rw [State.popSlot_entry popped]; exact ⟨fun _ => rfl, fun _ _ => rfl⟩
  · split at h
    · next room => rw [State.popSlot_entry h]; exact State.makeRoom_entry room j
    · cases h

theorem State.retarget_eq (s : State) (i : Nat) (issue : Issue) (total : Nat) (cat : Category) (provisional : Bool) :
    s.retarget i issue total cat provisional
      = (s.releaseBody i).modEntry i (Entry.retargeted issue total cat provisional s.assemblyEnd s.gapEnd) := rfl

theorem State.retarget_moves (g : Granted) {s : State} {i : Nat} (issue : Issue) (total : Nat) (cat : Category)
    (provisional : Bool) (assembling : (s.entry i).state = .assembling) (own : (s.entry i).ofKey issue.key = true) :
    s.moves g (s.retarget i issue total cat provisional) :=
  (s.releaseBody_moves g i).trans (Turn.retarget i issue total cat provisional _ _
    (by rw [State.releaseBody_entry_self, Entry.released_slots])
    (by rw [State.releaseBody_entry_self, Entry.released_state, assembling])
    (by rw [State.releaseBody_entry_self, Entry.released_ofKey, own])).moves

theorem State.retarget_entry_self {s : State} {i : Nat} (inTable : i < s.table.length) (issue : Issue) (total : Nat)
    (cat : Category) (provisional : Bool) : (s.retarget i issue total cat provisional).entry i
      = (s.entry i).released.retargeted issue total cat provisional s.assemblyEnd s.gapEnd := by
  rw [State.retarget_eq, ← State.releaseBody_entry_self]
  exact State.entry_setEntry (by rw [State.releaseBody_table, List.length_set]; exact inTable) _

end Sys2Proof.Machine

/-! Completion, Fragment Intake, the verdicts and the ends of entries as rows of elementary moves. -/

namespace Sys2Proof.Machine

/-! ### The end of a collection (01 R13, R14, R24 to R26) -/

theorem State.core_modEntry {s : State} {i : Nat} {f : Entry → Entry} (core : ∀ e, (f e).core = e.core) (j : Nat) :
    ((s.modEntry i f).entry j).core = (s.entry j).core := by
  obtain kept | ⟨rfl, changed⟩ := s.entry_modEntry_cases i f j
  · rw [kept]
  · rw [changed, core]

theorem State.restartGap_core (s : State) (i j : Nat) : ((s.restartGap i).entry j).core = (s.entry j).core :=
  State.core_modEntry (by intro; rfl) j

/-- The entry is ASSEMBLING, and its body is held: its completion check comes (01 R10). -/
def State.assembled (s : State) (i : Nat) : Prop := (s.entry i).state = .assembling ∧ (s.entry i).bodyHeld = true

theorem State.assembled.modEntry {s : State} {i : Nat} (h : s.assembled i) {j : Nat} {f : Entry → Entry}
    (core : ∀ e, (f e).core = e.core) : (s.modEntry j f).assembled i := by
  have same : ((s.modEntry j f).entry i).core = (s.entry i).core := State.core_modEntry core i
  exact ⟨(Entry.state_of_core same).trans h.1, (Entry.bodyHeld_of_core same).trans h.2⟩

section

variable (g : Granted) (s : State)

theorem State.releaseAndClose_moves (i : Nat) (reason : Reason) :
    s.moves g ((s.releaseBody i).closeEntry i reason) :=
  (s.releaseBody_moves g i).trans (State.closeReleased_moves g _ i reason
    (by rw [State.releaseBody_entry_self, Entry.released_slots]))

theorem State.malformedBody_moves (i : Nat) : s.moves g (s.malformedBody i) :=
  (s.count_moves g _).trans (State.releaseAndClose_moves g _ i _)

theorem State.checkFailed_moves (i : Nat) : s.moves g (s.checkFailed i) := by
  have collected : s.moves g (((s.releaseBody i).count .checkFail).modEntry i fun e =>
      { e with areas := [], bodyCheck := none, checkFailures := e.checkFailures + 1 }) :=
    ((s.releaseBody_moves g i).trans (State.count_moves g _ _)).trans (State.modEntry_moves g _ rfl)
  unfold State.checkFailed
  dsimp only
  split
  · refine collected.trans (State.closeReleased_moves g _ i _ ?_)
    refine (Entry.slots_of_core (State.core_modEntry (fun _ => by rfl) i)).trans ?_
    exact (congrArg Entry.slots (s.releaseBody_entry_self i)).trans (Entry.released_slots _)
  · exact (collected.trans (State.modEntry_moves g _ rfl)).trans (State.restartGap_moves g _ i)

theorem State.supersede_moves (i : Nat) (key : Key) (kind : NoticeKind) (successor : Option Nat) :
    s.moves g (s.supersede i key kind successor) :=
  State.moves.foldl (fun s j => (s.postIfHeld_moves g j kind successor).trans (State.freeEntry_moves g _ j true)) _ s

theorem State.cancelOthers_moves (i : Nat) (key : Key) : s.moves g (s.cancelOthers i key) := by
  refine State.moves.foldl (fun s j => State.moves.trans ?_ (State.freeEntry_moves g _ j false)) _ s
  split
  · exact s.post_moves g _
  · exact .refl s

variable {g s} {i : Nat} (h : s.assembled i)
include h

theorem State.assembled.close_moves (reason : Reason) : s.moves g (s.closeEntry i reason) :=
  s.closeEntry_moves g reason fun _ _ => .inr h.2

theorem State.assembled.completeCancel_moves (issue : Issue) (life : Nat) : s.moves g (s.completeCancel i issue life) := by
  refine State.moves.trans ?_ (State.attend_moves g _)
  have ended := ((h.close_moves (g := g) .cancelled).trans (State.cancelOthers_moves g _ i issue.key)).trans
    (State.entryEnds_moves g _ issue false)
  split
  · exact ended.trans (State.releaseBody_moves g _ i)
  · exact ended.trans (State.startOffer_moves g _ i)

theorem State.assembled.completeLive_moves (issue : Issue) : s.moves g (s.completeLive i issue) :=
  (((Turn.locating i (s.replacesFor i issue.key) (s.followsFor i issue.key) h.1 h.2).moves.trans
    (State.supersede_moves g _ i issue.key .superseded (some i))).trans (State.startOffer_moves g _ i)).trans
      (State.attend_moves g _)

theorem State.assembled.completeExpired_moves (issue : Issue) : s.moves g (s.completeExpired i issue) := by
  have followed : s.moves g (s.modEntry i fun e => { e with
      replaces := s.replacesFor i issue.key, followsAcknowledged := s.followsFor i issue.key }) :=
    s.modEntry_moves g rfl
  have still := h.modEntry (j := i) (f := fun e => { e with
      replaces := s.replacesFor i issue.key, followsAcknowledged := s.followsFor i issue.key }) fun _ => rfl
  exact (((((followed.trans (still.close_moves .expired)).trans
    (State.supersede_moves g _ i issue.key .expired none)).trans (State.releaseBody_moves g _ i)).trans
      (State.entryEnds_moves g _ issue false)).trans (State.attend_moves g _))

theorem State.assembled.completeEntry_moves (length : Nat) : s.moves g (s.completeEntry i length) := by
  have expanded : s.moves g (s.modEntry i fun e => { e with
      expandedLength := some length, deadline := some (s.uptime + s.lifeOf (s.entry i)), want := none
      assemblyTimer := none }) := s.modEntry_moves g rfl
  have still := h.modEntry (j := i) (f := fun e => { e with
      expandedLength := some length, deadline := some (s.uptime + s.lifeOf (s.entry i)), want := none
      assemblyTimer := none }) fun _ => rfl
  unfold State.completeEntry
  dsimp only
  split
  · split
    · exact expanded.trans (still.completeCancel_moves _ _)
    · split
      · exact expanded.trans (still.completeLive_moves _)
      · exact expanded.trans (still.completeExpired_moves _)
  · exact expanded

theorem State.assembled.checkBody_moves : s.moves g (s.checkBody i) := by
  unfold State.checkBody
  dsimp only
  split
  · split
    · exact h.completeEntry_moves _
    · exact s.malformedBody_moves g i
    · exact s.malformedBody_moves g i
  · exact s.checkFailed_moves g i

end

/-! ### Fragment Intake (02 R31 to R38) -/

theorem parseFragment_index {bs : List Byte} {f : Fragment} (h : parseFragment bs = some f) : f.index < 16 := by
  unfold parseFragment at h
  split at h
  · dsimp only at h
    split at h
    · split at h
      · cases h
        exact BitVec.isLt _
      · cases h
    · cases h
  · cases h

/-- An ASSEMBLING entry takes the fragment: the position that the fragment is of is empty, or its total is provisional
(02 R36). -/
structure State.mayTake (s : State) (i : Nat) (f : Fragment) : Prop where
  assembling : (s.entry i).state = .assembling
  position : f.index < 16
  vacant : (s.entry i).provisional = false → (s.entry i).map.getD f.index none = none

theorem State.mayTake.takeInto_moves {g : Granted} {s : State} {i : Nat} {f : Fragment} (h : s.mayTake i f)
    (source : Source) (slot : Nat) (hand : List Nat) : Moves g (slot :: hand, s) (hand, s.takeInto source f slot i) := by
  have taken : Moves g (slot :: hand, s) (hand, (s.withStore (s.store.write slot f.payload)).modEntry i fun e =>
      e.taking f source slot s.uptime s.assemblyEnd) :=
    .single (.take slot i f source s.uptime s.assemblyEnd h.assembling h.position h.vacant)
  have counted := taken.trans (((State.restartGap_moves g _ i).trans (State.count_moves g _ .fragmentsTaken)) hand)
  have assembling : ∀ s1 : State, s1 = ((((s.withStore (s.store.write slot f.payload)).modEntry i fun e =>
      e.taking f source slot s.uptime s.assemblyEnd).restartGap i).count .fragmentsTaken) →
      (s1.entry i).state = .assembling := by
    rintro _ rfl
    refine (Entry.state_of_core (State.restartGap_core _ i i)).trans ?_
    obtain kept | ⟨-, changed⟩ := (s.withStore (s.store.write slot f.payload)).entry_modEntry_cases i
      (fun e => e.taking f source slot s.uptime s.assemblyEnd) i
    · exact (congrArg Entry.state kept).trans h.assembling
    · exact (congrArg Entry.state changed).trans h.assembling
  unfold State.takeInto
  dsimp only
  split
  · next whole =>
    have full : State.assembled _ i := ⟨assembling _ rfl, whole⟩
    exact counted.trans ((State.modEntry_moves g _ rfl).trans (full.modEntry fun _ => by rfl).checkBody_moves hand)
  · exact counted

theorem State.intakeAssembling_moves (g : Granted) {s : State} (source : Source) {f : Fragment} (position : f.index < 16)
    {i : Nat} (mine : s.assemblingOf f.issue.key = some i) : s.moves g (s.intakeAssembling source f i) := by
  have found := State.findEntry_some mine
  simp only [Bool.and_eq_true, beq_iff_eq] at found
  obtain ⟨assembling, own⟩ := found
  have kept : ∀ {t slot}, s.findSlot f.issue.key f.category = some (slot, t) → t.entry i = s.entry i := fun h =>
    (State.findSlot_entry h i).2 assembling own
  unfold State.intakeAssembling
  dsimp only
  split
  · exact s.count_moves g _
  · split
    · split
      · next slot t room =>
        have inTable : i < t.table.length := by
          refine State.inTable_of_state (x := .assembling) ?_ (by decide)
          rw [kept room, assembling]
        have own' : (t.entry i).state = .assembling ∧ (t.entry i).ofKey f.issue.key = true := by
          rw [kept room]; exact ⟨assembling, own⟩
        have entry := State.retarget_entry_self inTable f.issue f.total f.category false
        have may : (t.retarget i f.issue f.total f.category false).mayTake i f := by
          refine ⟨?_, position, fun _ => Entry.getD_of_slots_nil ?_ _⟩
          · rw [entry]; exact (Entry.released_state _).trans own'.1
          · rw [entry]; exact Entry.released_slots _
        exact fun hand => ((State.findSlot_moves g room hand).trans
          (State.retarget_moves g f.issue f.total f.category false own'.1 own'.2 _)).trans
            (may.takeInto_moves source slot hand)
      · exact s.flag_moves g _
    · split
      · exact s.count_moves g _
      · split
        · exact s.count_moves g _
        · next free =>
          split
          · next slot t room =>
            have vacant : (s.entry i).provisional = false → (s.entry i).map.getD f.index none = none := fun fixed => by
              simpa [fixed] using free
            have may : t.mayTake i f :=
              ⟨(kept room).symm ▸ assembling, position, (kept room).symm ▸ vacant⟩
            exact fun hand => (State.findSlot_moves g room hand).trans (may.takeInto_moves source slot hand)
          · exact s.flag_moves g _

theorem State.intakeNew_moves (g : Granted) {s : State} (source : Source) {f : Fragment} (position : f.index < 16)
    (none' : s.assemblingOf f.issue.key = none) : s.moves g (s.intakeNew source f) := by
  have fresh := State.noneAssembles_of_find none'
  unfold State.intakeNew
  split
  · next slot t room =>
    have fresh : t.noneAssembles f.issue.key := fresh.kept fun j => (State.findSlot_entry room j).1
    split
    · next i u taken =>
      obtain ⟨moves, v, generation, entry⟩ := State.takeEntry_moves g fresh taken
      have may : u.mayTake i f :=
        ⟨by rw [entry]; rfl, position, fun _ => Entry.getD_of_slots_nil (by rw [entry]; rfl) _⟩
      exact fun hand => ((State.findSlot_moves g room hand).trans (moves _)).trans (may.takeInto_moves source slot hand)
    · exact fun hand => ((State.findSlot_moves g room hand).trans (.single (.put slot))).trans
        (State.flag_moves g _ _ hand)
  · exact s.flag_moves g _

theorem State.intake_moves (g : Granted) (s : State) (source : Source) (record : List Byte) :
    s.moves g (s.intake source record) := by
  unfold State.intake
  split
  · exact s.count_moves g _
  · next f parsed =>
    have position := parseFragment_index parsed
    split
    · exact s.count_moves g _
    · split
      · exact s.count_moves g _
      · split
        · exact s.count_moves g _
        · split
          · next mine => exact State.intakeAssembling_moves g source position mine
          · next none' => exact State.intakeNew_moves g source position none'

/-! ### Acknowledgement and expiry (01 R17, R22) -/

theorem State.acknowledge_moves {g : Granted} {s : State} {i : Nat} (range : g.range → s.Sized)
    (other : g.owner → (s.entry i).state ≠ .assembling) : s.moves g (s.acknowledge i) := by
  have small : g.range → (s.entry i).precedence.getD 0 ≤ 7 := fun granted => by
    obtain ⟨-, -, -, -, -, -, entries, -⟩ := (range granted).range
    exact (State.forall_entry (P := fun e => e.precedence.getD 0 ≤ 7) (by decide)).mpr entries i
  have closed := (s.closeEntry_moves g (i := i) .acknowledged fun granted now => absurd now (other granted)).trans
    (State.modEntry_moves g _ (i := i) (f := fun e => { e with heldWhenAcknowledged := (s.entry i).isHeld }) rfl)
  unfold State.acknowledge
  dsimp only
  split
  · exact closed.trans (State.ackEvent_moves g _ _ small)
  · exact closed

theorem State.expire_moves (g : Granted) (s : State) (i : Nat) : s.moves g (s.expire i) := by
  have expired : s.moves g (((((s.postIfHeld i .expired none).releaseBody i).closeEntry i .expired).tellEnded
      (s.entry i).issue false).attend) :=
    (((s.postIfHeld_moves g i .expired none).trans (State.releaseAndClose_moves g _ i .expired)).trans
      (State.tellEnded_moves g _ _ _)).trans (State.attend_moves g _)
  unfold State.expire
  split
  · exact .refl s
  · exact .refl s
  · exact s.releaseBody_moves g i
  all_goals exact expired

end Sys2Proof.Machine

/-! Verdicts, the Area Resolver and the modem link as rows of elementary moves. -/

namespace Sys2Proof.Machine

/-! ### Verdicts (01 R19, R20) -/

theorem State.precedenceFor_le {s : State} (law : s.Sized) (i : Nat) : s.precedenceFor i ≤ 7 := by
  obtain ⟨-, -, -, -, -, precedences, -⟩ := law.range
  unfold State.precedenceFor State.precedenceOf
  split
  · split
    · exact Nat.zero_le 7
    · exact Settings.configured_le precedences _
  · exact Nat.zero_le 7

/-- What a verdict on an entry may rest on: the entry is LOCATING and does not wait. -/
structure Granted.judgeable (g : Granted) (s : State) (i : Nat) : Prop where
  left : i ∉ s.ar.waiting
  locating : g.wait → (s.entry i).state = .locating

section

variable {g : Granted} {s : State} {i : Nat} (h : g.judgeable s i)
include h

theorem State.returnToAssembling_moves (partial' : (s.entry i).bodyHeld = false) :
    s.moves g (s.returnToAssembling i) := by
  unfold State.returnToAssembling
  split
  · next issue own =>
    split
    · exact s.freeEntry_moves g i false
    · next none' =>
      have fresh : s.noneAssembles issue.key := by
        refine State.noneAssembles_of_find (List.findIdx?_eq_none_iff.mpr fun e mem => ?_)
        rw [Bool.not_eq_true, List.any_eq_false] at none'
        simpa using none' e mem
      exact (Turn.again i issue _ _ h.left h.locating partial' own fresh).moves.trans (State.requestWant_moves g _ i)
  · exact .refl s

theorem State.place_moves (v : Verdict) {precedence : Nat} (small : g.range → precedence ≤ 7)
    (whole : (s.entry i).bodyHeld = true) : s.moves g (s.place i v precedence) := by
  have judged : s.moves g (s.modEntry i fun e => { e with verdict := v }) := s.modEntry_moves g rfl
  have same : ((s.modEntry i fun e => { e with verdict := v }).entry i).core = (s.entry i).core :=
    State.core_modEntry (by intro; rfl) i
  have still : ((s.modEntry i fun e => { e with verdict := v }).entry i).bodyHeld = true :=
    (Entry.bodyHeld_of_core same).trans whole
  unfold State.place
  dsimp only
  split
  · exact judged.trans (State.closeEntry_moves g _ .withheld fun _ _ => .inr still)
  · exact judged.trans (Turn.pend (s := s.modEntry i _) i precedence _ h.left (fun wait => (Entry.state_of_core same).trans (h.locating wait))
      still small).moves

end

theorem State.applyVerdict_moves {g : Granted} {s : State} {i : Nat} (v : Verdict)
    (locating : g.wait → (s.entry i).state = .locating) (range : g.range → s.Sized) :
    s.moves g (s.applyVerdict i v) := by
  have h : g.judgeable (s.leaveWaiting i) i := ⟨s.not_mem_leaveWaiting i, locating⟩
  have small : g.range → s.precedenceFor i ≤ 7 := fun granted => State.precedenceFor_le (range granted) i
  have judged : ∀ v : Verdict, s.moves g (if (s.entry i).bodyHeld then
      (s.leaveWaiting i).place i v (s.precedenceFor i) else (s.leaveWaiting i).returnToAssembling i) := fun v => by
    refine (s.leaveWaiting_moves g i).trans ?_
    split
    · next whole => exact State.place_moves h v small whole
    · next part => exact State.returnToAssembling_moves h (by simpa using part)
  cases v with
  | outside => exact (s.leaveWaiting_moves g i).trans (Turn.outside i h.left h.locating).moves
  | inside => exact judged .inside
  | unresolved => exact judged .unresolved
  | undecided => exact s.leaveWaiting_moves g i

theorem State.applyVerdict_entry_ne (s : State) {i j : Nat} (other : j ≠ i) (v : Verdict) :
    (s.applyVerdict i v).entry j = s.entry j := by
  have back : ((s.leaveWaiting i).returnToAssembling i).entry j = s.entry j := by
    unfold State.returnToAssembling
    split
    · split
      · exact State.freeEntry_entry_ne _ other false
      · exact (State.entry_congr (State.requestWant_frame _ i .table (by decide)) j).trans
          (State.entry_setEntry_ne _ other _)
    · rfl
  have placed : ∀ v k, ((s.leaveWaiting i).place i v k).entry j = s.entry j := fun v k => by
    unfold State.place
    dsimp only
    split
    · exact (State.closeEntry_entry_ne _ other _).trans (State.entry_setEntry_ne _ other _)
    · exact (State.entry_setEntry_ne _ other _).trans (State.entry_setEntry_ne _ other _)
  have judged : ∀ v k, (if (s.entry i).bodyHeld then (s.leaveWaiting i).place i v k
      else (s.leaveWaiting i).returnToAssembling i).entry j = s.entry j := fun v k => by
    split
    · exact placed v k
    · exact back
  cases v with
  | outside => exact State.entry_setEntry_ne _ other _
  | inside => exact judged _ _
  | unresolved => exact judged _ _
  | undecided => rfl

/-- Verdicts are given to LOCATING entries, one to each. -/
def State.mayJudge (s : State) (vs : List (Nat × Verdict)) : Prop :=
  (vs.map Prod.fst).Nodup ∧ ∀ p ∈ vs, (s.entry p.1).state = .locating

theorem State.applyVerdicts_moves {g : Granted} (vs : List (Nat × Verdict)) {s : State} (obeys : s.Obeys g)
    (judged : g.wait → s.mayJudge vs) : s.moves g (vs.foldl (fun s p => s.applyVerdict p.1 p.2) s) := by
  induction vs generalizing s with
  | nil => exact .refl s
  | cons p vs ih =>
    have first := State.applyVerdict_moves p.2 (fun wait => (judged wait).2 p List.mem_cons_self) obeys.range
    refine first.trans (ih (first.obeys obeys) fun wait => ?_)
    obtain ⟨nodup, locating⟩ := judged wait
    rw [List.map_cons, List.nodup_cons] at nodup
    refine ⟨nodup.2, fun q mem => ?_⟩
    have other : q.1 ≠ p.1 := fun same => nodup.1 (same ▸ List.mem_map_of_mem mem)
    rw [State.applyVerdict_entry_ne _ other]
    exact locating q (List.mem_cons_of_mem p mem)

theorem State.receiptOf_precedence {s : State} {i : Nat} {v : Verdict} {r : Receipt} (mem : r ∈ s.receiptOf i v) :
    r.2.1 = s.precedenceFor i := by
  unfold State.receiptOf at mem
  split at mem
  · split at mem
    · rw [List.mem_singleton.mp mem]
    · cases mem
  · split at mem
    · rw [List.mem_singleton.mp mem]
    · cases mem
  · cases mem

theorem State.giveVerdicts_moves {g : Granted} {s : State} {vs : List (Nat × Verdict)} (obeys : s.Obeys g)
    (judged : g.wait → s.mayJudge vs) : s.moves g (s.giveVerdicts vs) := by
  refine ((State.applyVerdicts_moves vs obeys judged).trans (State.receiptEvents_moves g _ fun granted r mem => ?_)).trans
    (State.attend_moves g _)
  obtain ⟨p, -, mem⟩ := List.mem_flatMap.mp mem
  rw [State.receiptOf_precedence mem]
  exact State.precedenceFor_le (obeys.range granted) _

/-! ### The cache and the queries (03 R54 to R60) -/

theorem Resolver.touched_length (r : Resolver) (cell : Word32) : (r.touched cell).cache.length = r.cache.length := by
  unfold Resolver.touched
  split
  · next c found =>
    have mem := List.mem_of_find?_eq_some found
    have holds := List.find?_some found
    rw [List.length_cons, List.length_eraseP_of_mem mem holds]
    exact Nat.succ_pred_eq_of_pos (List.length_pos_of_mem mem)
  · rfl

theorem cacheWithout_length (cache : List CacheEntry) : (cacheWithout cache).length = cache.length - 1 := by
  unfold cacheWithout
  split
  · next invalid =>
    obtain ⟨c, mem, holds⟩ := List.any_eq_true.mp invalid
    rw [List.length_reverse, List.length_eraseP_of_mem (List.mem_reverse.mpr mem) holds, List.length_reverse]
  · exact List.length_dropLast

theorem Resolver.filled_length {r : Resolver} (cell code : Word32) (stands : r.cache.length = 8) :
    (r.filled cell code).cache.length = 8 := by
  unfold Resolver.filled
  split
  · next held =>
    obtain ⟨c, mem, holds⟩ := List.any_eq_true.mp held
    rw [List.length_cons, List.length_eraseP_of_mem mem holds, stands]
  · rw [List.length_cons, cacheWithout_length, stands]

theorem Resolver.touched_quality (r : Resolver) (cell : Word32) : (r.touched cell).quality = r.quality := by
  unfold Resolver.touched; split <;> rfl

theorem Resolver.filled_quality (r : Resolver) (cell code : Word32) : (r.filled cell code).quality = r.quality := by
  unfold Resolver.filled; split <;> rfl

section

variable (g : Granted) (s : State)

theorem State.withAr_moves (x : Resolver) (waiting : x.waiting = s.ar.waiting)
    (cache : s.ar.cache.length = 8 → x.cache.length = 8) (quality : s.ar.quality ≤ 3 → x.quality ≤ 3) :
    s.moves g (s.withAr x) := (Aside.locate x waiting cache quality).moves

theorem State.touched_moves (cell : Word32) : s.moves g (s.withAr (s.ar.touched cell)) :=
  s.withAr_moves g _ (Resolver.touched_waiting _ _) (fun stands => (Resolver.touched_length _ _).trans stands)
    fun range => by rwa [Resolver.touched_quality]

theorem State.query_moves : s.moves g s.query :=
  ((s.sendQuery_frame s.ar.cell).moves (by decide)).trans (State.withAr_moves g _ _ rfl id id)

theorem State.queryIfNone_moves : s.moves g s.queryIfNone := by
  unfold State.queryIfNone
  split
  · exact s.query_moves g
  · exact .refl s

theorem State.endQuery_moves : s.moves g s.endQuery :=
  (s.clearQuery_frame.moves (by decide)).trans (State.withAr_moves g _ _ rfl id id)

theorem State.joinWaiting_moves {i : Nat} (ready : g.wait → s.readyToResolve i) : s.moves g (s.joinWaiting i) :=
  (Turn.join i ready).moves.trans (State.queryIfNone_moves g _)

theorem State.lookedUp_moves (i : Nat) : s.moves g (s.lookedUp i) := by
  obtain looked | same := s.lookedUp_cases i
  · rw [looked]; exact s.touched_moves g _
  · rw [same]; exact .refl s

end

/-! ### Entries taken in (03 R50, R58) -/

theorem State.takeIn_moves (g : Granted) (p : State × List (Nat × Verdict)) {i : Nat}
    (ready : g.wait → p.1.readyToResolve i) : p.1.moves g (State.takeIn p i).1 := by
  have looked := p.1.lookedUp_moves g i
  cases verdict : p.1.verdictFor i with
  | some v => rw [State.takeIn_of_verdict verdict]; exact looked
  | none =>
    rw [State.takeIn_of_miss verdict]
    refine looked.trans (State.joinWaiting_moves g _ fun wait => ?_)
    rw [State.readyToResolve, State.entry_congr (p.1.lookedUp_table i), State.lookedUp_waiting]
    exact ready wait

theorem State.takeIn_table (p : State × List (Nat × Verdict)) (i : Nat) : (State.takeIn p i).1.table = p.1.table := by
  cases verdict : p.1.verdictFor i with
  | some v => rw [State.takeIn_of_verdict verdict]; exact p.1.lookedUp_table i
  | none =>
    rw [State.takeIn_of_miss verdict]
    exact (State.joinWaiting_table _ i).trans (p.1.lookedUp_table i)

theorem State.takeIn_ready {p : State × List (Nat × Verdict)} {i j : Nat} (h : p.1.readyToResolve j) (other : j ≠ i) :
    (State.takeIn p i).1.readyToResolve j := by
  obtain ⟨locating, left⟩ := h
  refine ⟨by rwa [State.entry_congr (State.takeIn_table p i)], ?_⟩
  cases verdict : p.1.verdictFor i with
  | some v => rw [State.takeIn_of_verdict verdict]; rwa [State.lookedUp_waiting]
  | none =>
    rw [State.takeIn_of_miss verdict, State.joinWaiting_waiting, State.lookedUp_waiting]
    simp [left, other]

/-- The verdicts that entries are given as they are taken in: each of them one at most, in order. -/
theorem State.takeIn_verdicts (is : List Nat) (p : State × List (Nat × Verdict)) :
    ∃ l, l.Sublist is ∧ (is.foldl State.takeIn p).2.map Prod.fst = p.2.map Prod.fst ++ l := by
  induction is generalizing p with
  | nil => exact ⟨[], .slnil, by simp⟩
  | cons i is ih =>
    obtain ⟨l, sub, same⟩ := ih (State.takeIn p i)
    rw [List.foldl_cons]
    cases verdict : p.1.verdictFor i with
    | some v => exact ⟨i :: l, sub.cons_cons i, by rw [same, State.takeIn_of_verdict verdict]; simp⟩
    | none => exact ⟨l, sub.cons i, by rw [same, State.takeIn_of_miss verdict]⟩

theorem State.takeIns_moves (g : Granted) (is : List Nat) (p : State × List (Nat × Verdict))
    (ready : g.wait → is.Nodup ∧ ∀ i ∈ is, p.1.readyToResolve i) :
    p.1.moves g (is.foldl State.takeIn p).1 ∧ (is.foldl State.takeIn p).1.table = p.1.table := by
  induction is generalizing p with
  | nil => exact ⟨.refl _, rfl⟩
  | cons i is ih =>
    obtain ⟨rest, table⟩ := ih (State.takeIn p i) fun wait => by
      obtain ⟨nodup, ready⟩ := ready wait
      obtain ⟨fresh, nodup⟩ := List.nodup_cons.mp nodup
      exact ⟨nodup, fun j mem => State.takeIn_ready (ready j (List.mem_cons_of_mem i mem)) fun same => fresh (same ▸ mem)⟩
    exact ⟨(State.takeIn_moves g p fun wait => (ready wait).2 i List.mem_cons_self).trans rest,
      table.trans (State.takeIn_table p i)⟩

section

variable {g : Granted} {s : State} (obeys : s.Obeys g)
include obeys

theorem State.resolve_moves {is : List Nat} (ready : g.wait → is.Nodup ∧ ∀ i ∈ is, s.readyToResolve i) :
    s.moves g (s.resolve is) := by
  obtain ⟨taken, table⟩ := State.takeIns_moves g is (s, []) ready
  refine taken.trans (State.giveVerdicts_moves (taken.obeys obeys) fun wait => ?_)
  obtain ⟨l, sub, same⟩ := State.takeIn_verdicts is (s, [])
  obtain ⟨nodup, ready⟩ := ready wait
  rw [List.map_nil, List.nil_append] at same
  refine ⟨same ▸ nodup.sublist sub, fun p mem => ?_⟩
  rw [State.entry_congr table]
  exact (ready p.1 (sub.subset (same ▸ List.mem_map_of_mem mem))).1

theorem State.changeCell_moves : s.moves g s.changeCell := by
  rw [State.changeCell_eq]
  have relocated : s.moves g s.relocated := Turn.relocate.moves
  refine relocated.trans (State.resolve_moves (relocated.obeys obeys) fun _ => ?_)
  refine ⟨List.nodup_range.filter _, fun i mem => ⟨?_, List.not_mem_nil⟩⟩
  simpa using State.mem_indexes mem

/-- The waiting entries get their verdicts, in a state whose waiting set is still the one that the laws speak of. -/
theorem State.judgeWaiting_moves (verdict : List Descriptor → Verdict) : s.moves g (s.judgeWaiting verdict) := by
  have left : s.moves g (s.withAr { s.ar with waiting := [] }) := (Turn.leave [] (List.nil_sublist _)).moves
  refine left.trans (State.giveVerdicts_moves (left.obeys obeys) fun wait => ?_)
  obtain ⟨nodup, locating⟩ := obeys.wait wait
  have fsts : (s.ar.waiting.map fun i => (i, verdict (s.entry i).areas)).map Prod.fst = s.ar.waiting :=
    List.map_map.trans (List.map_id _)
  refine ⟨by rw [fsts]; exact nodup, fun p mem => ?_⟩
  obtain ⟨i, waits, rfl⟩ := List.mem_map.mp mem
  exact locating i waits

theorem State.followUp_moves : s.moves g s.followUp := by
  unfold State.followUp
  split
  · exact .refl s
  · split
    · exact State.judgeWaiting_moves obeys _
    · split
      · have touched := s.touched_moves g s.ar.cell
        exact touched.trans (State.judgeWaiting_moves (touched.obeys obeys) _)
      · exact s.query_moves g

theorem State.queryTimedOut_moves : s.moves g s.queryTimedOut := by
  have ended := (s.endQuery_moves g).trans (State.flag_moves g _ .queryTimeout)
  unfold State.queryTimedOut
  dsimp only
  split
  · split
    · exact ended.trans (State.judgeWaiting_moves (ended.obeys obeys) _)
    · exact ended.trans (State.followUp_moves (ended.obeys obeys))
  · exact .refl s

theorem State.regionAnswer_moves (cell : Word32) (code : Option Word32) : s.moves g (s.regionAnswer cell code) := by
  unfold State.regionAnswer
  extract_lets s1
  have filled : s.moves g s1 := by
    simp only [s1]
    split
    · split
      · exact .refl s
      · exact s.withAr_moves g _ (Resolver.filled_waiting _ _ _) (Resolver.filled_length _ _)
          fun range => by rwa [Resolver.filled_quality]
    · exact .refl s
  have ended := filled.trans (s1.endQuery_moves g)
  split
  · split
    · exact ended.trans (State.judgeWaiting_moves (ended.obeys obeys) _)
    · exact ended.trans (State.followUp_moves (ended.obeys obeys))
  · exact filled

theorem State.cellRecord_moves (cell : Word32) (service quality : Byte) :
    s.moves g (s.cellRecord cell service quality) := by
  unfold State.cellRecord
  split
  · next sv _ =>
    split
    · next small =>
      have located : s.moves g (s.withAr { s.ar with cell := cell, service := sv, quality := quality.toNat }) :=
        s.withAr_moves g _ rfl id fun _ => small
      dsimp only
      split
      · exact located
      · exact located.trans (State.changeCell_moves (located.obeys obeys))
    · exact s.count_moves g _
  · exact s.count_moves g _

/-! ### The modem link (09) -/

theorem State.hello_moves : s.moves g s.hello := by
  have invalidated : s.moves g (s.withAr s.ar.invalidated) :=
    s.withAr_moves g _ rfl (fun stands => (List.length_map _).trans stands) id
  refine ((invalidated.trans (State.queryTimedOut_moves (invalidated.obeys obeys))).trans ?_).trans
    ((State.withMl_frame _ _).moves (by decide))
  unfold State.helloUplink
  split
  · exact (State.flag_moves g _ _).trans (State.endUplink_moves g _ _)
  · exact .refl _

theorem State.takeModem_moves (r : FromModem) : s.moves g (s.takeModem r) := by
  cases r with
  | hello => exact State.hello_moves obeys
  | cell c service quality => exact State.cellRecord_moves obeys c service quality
  | fragment body => exact s.intake_moves g .broadcast body
  | region c code => exact State.regionAnswer_moves obeys c code
  | time seconds => exact s.withTb_moves g _ (Nat.le_refl _)
  | uplinkResult issue accepted =>
    change s.moves g (s.uplinkAnswered issue accepted)
    unfold State.uplinkAnswered
    split
    · exact s.endUplink_moves g accepted
    · exact s.count_moves g _

theorem State.modemEvent_moves (e : FramerEvent) : s.moves g (s.modemEvent e) := by
  cases e with
  | record bytes =>
    simp only [State.modemEvent]
    split
    · exact State.takeModem_moves obeys _
    · exact s.count_moves g _
  | badLength => exact s.count_moves g _
  | truncated => exact s.count_moves g _

theorem State.modemEvents_moves (m : ModemLink) (es : List FramerEvent) :
    s.moves g (es.foldl State.modemEvent (s.withMl m)) :=
  List.foldlRecOn (motive := fun t => s.moves g t) _ _ ((s.withMl_frame m).moves (by decide)) fun _ ht e _ =>
    ht.trans (State.modemEvent_moves (ht.obeys obeys) e)

theorem State.modemBytes_moves (bytes : List Byte) : s.moves g (s.modemBytes bytes) := by
  unfold State.modemBytes
  split
  · exact State.modemEvents_moves obeys _ _
  · exact .refl s

theorem execModemGapTimeout_moves (bytes : List Byte) {t : State} (h : execModemGapTimeout bytes s = .next t) :
    s.moves g t := by
  have first := State.modemBytes_moves obeys bytes
  cases h
  dsimp only
  split
  · exact first
  · refine first.trans (State.runsOut_moves ?_)
    exact State.modemEvents_moves (((State.runTo_moves g _ _).obeys (first.obeys obeys))) _ _

end

end Sys2Proof.Machine

/-! The requests of the host, the cadences and the keys as rows of elementary moves. -/

namespace Sys2Proof.Machine

/-- The granted laws hold, and where the law of attention is granted, it does too. -/
structure State.Grants (g : Granted) (s : State) : Prop where
  obeys : s.Obeys g
  attentive : g.owner → s.Attentive

theorem State.Grants.moved {g : Granted} {s t : State} (h : s.Grants g) (moves : s.moves g t)
    (attentive : s.Attentive → t.Attentive) : t.Grants g :=
  ⟨moves.obeys h.obeys, fun granted => attentive (h.attentive granted)⟩

/-- A timer's end under the granted laws. -/
theorem State.Grants.runsOut_moves {g : Granted} {s : State} (h : s.Grants g) {t : Nat} {act : State → State}
    (acts : (s.runTo t).Grants g → (s.runTo t).moves g (act (s.runTo t))) : s.moves g (s.runsOut t act) :=
  State.runsOut_moves (acts (h.moved (s.runTo_moves g t) fun law => law.runTo t))

theorem Entry.state_of_held {e : Entry} (held : e.isHeld = true) : e.state ≠ .assembling := fun now => by
  simp [Entry.isHeld, now] at held

theorem Entry.state_of_presented {e : Entry} (shown : e.presented = true) : e.state ≠ .assembling := fun now => by
  simp [Entry.presented, Entry.isHeld, now] at shown

/-! ### The requests (07 R141 to R150) -/

section

variable (g : Granted) (s : State)

theorem State.claim_moves : s.moves g s.claim.state := by
  unfold State.claim
  split
  · exact .refl s
  · next slot empty =>
    split
    · exact .refl s
    · next i first =>
      obtain ⟨inTable, k, ranked, -⟩ := State.leastEntry_some first
      have claimable : (s.entry i).claimable s.pu.threshold = true := by by_contra not; simp [not] at ranked
      have pending : (s.entry i).state = .pending := by
        simp only [Entry.claimable, Bool.and_eq_true, beq_iff_eq] at claimable
        exact claimable.1
      obtain ⟨place, isNone, -⟩ := List.findIdx?_eq_some_iff_getElem.mp empty
      have vacant : s.pu.slots[slot]? = some none := by
        rw [List.getElem?_eq_getElem place, Option.isNone_iff_eq_none.mp isNone]
      exact (Turn.claim i slot inTable pending vacant).moves.trans (State.attend_moves g _)

theorem State.claimEnds_moves {i : Nat} (claimed : (s.entry i).state = .claimed) {target : EntryState}
    (presented : target = .shown ∨ target = .pending) :
    s.moves g (((s.emptySlot i).modEntry i fun e => { e with state := target, claimSlot := none }).attend) :=
  (Turn.unclaim i target claimed presented).moves.trans (State.attend_moves g _)

theorem State.setThreshold_moves {n : Nat} (small : n ≤ 6) : s.moves g (s.setThreshold n).state :=
  (s.withPu_moves g { s.pu with threshold := n } rfl fun range => ⟨small, range.2⟩).trans (State.attend_moves g _)

theorem State.fetchNotice_moves : s.moves g s.fetchNotice.state := by
  unfold State.fetchNotice
  split
  · exact .refl s
  · next n rest queue =>
    refine s.withPu_moves g _ rfl fun range => ⟨range.1, range.2.1, ?_⟩
    have most := range.2.2
    rw [queue, List.length_cons] at most
    exact Nat.le_of_succ_le most

theorem optoutOf_national (mask : Byte) : (optoutOf mask).getLsbD 0 = false := by simp [optoutOf]

theorem State.closeEntry_state (s : State) (i : Nat) (reason : Reason) (j : Nat)
    (now : ((s.closeEntry i reason).entry j).state = .assembling) : (s.entry j).state = .assembling := by
  have table : ((s.emptySlot i).leaveWaiting i).table = s.table := s.emptySlot_frame i .table (by decide)
  obtain kept | ⟨-, changed⟩ := ((s.emptySlot i).leaveWaiting i).entry_modEntry_cases i
    (fun e => e.close reason s.uptime) j
  · rw [← State.entry_congr table, ← kept]; exact now
  · have closed := (congrArg Entry.state changed).symm.trans now
    cases closed

theorem State.closeAll_moves (reason : Reason) (is : List Nat)
    (other : g.owner → ∀ i ∈ is, (s.entry i).state ≠ .assembling) :
    s.moves g (is.foldl (fun s i => s.closeEntry i reason) s) := by
  have closed := List.foldlRecOn
    (motive := fun t : State => s.moves g t ∧ ∀ j, (t.entry j).state = .assembling → (s.entry j).state = .assembling)
    is (fun s i => s.closeEntry i reason) ⟨.refl s, fun _ now => now⟩ fun t ht i mem =>
      ⟨ht.1.trans (t.closeEntry_moves g reason fun granted now => absurd (ht.2 i now) (other granted i mem)),
        fun j now => ht.2 j (t.closeEntry_state i reason j now)⟩
  exact closed.1

theorem State.setOptout_moves (mask : Byte) : s.moves g (s.setOptout mask).state := by
  refine ((s.withPu_moves g { s.pu with optout := optoutOf mask } rfl fun range =>
    ⟨range.1, optoutOf_national mask, range.2.2⟩).trans (State.closeAll_moves g _ .withheld _ fun _ i mem now => ?_)).trans
      (State.attend_moves g _)
  have withheld := State.mem_indexes mem
  simp [Entry.withheldBy, now] at withheld

theorem State.restart_moves : s.moves g s.restart.state := Turn.restart.moves.trans (State.attend_moves g _)

end

section

variable {g : Granted} {s : State} (h : s.Grants g)
include h

/-- A request whose parameters are in range and whose handle fits is carried out. -/
theorem State.carryOut_moves {r : Request} (inRange : r.inRange = true) (fits : s.fits r = true) :
    s.moves g (s.carryOut r).state := by
  cases r with
  | claim => exact s.claim_moves g
  | read handle offset length =>
    simp only [State.carryOut, State.read]
    split <;> exact .refl s
  | complete handle =>
    simp only [State.fits, Bool.and_eq_true, beq_iff_eq] at fits
    exact s.claimEnds_moves g fits.2 (.inl rfl)
  | release handle =>
    simp only [State.fits, Bool.and_eq_true, beq_iff_eq] at fits
    exact s.claimEnds_moves g fits.2 (.inr rfl)
  | ack handle =>
    simp only [State.fits, Bool.and_eq_true] at fits
    exact (State.acknowledge_moves h.obeys.range fun _ => Entry.state_of_held fits.2).trans (State.attend_moves g _)
  | fetchNotice => exact s.fetchNotice_moves g
  | status => exact (s.withFlags_frame _).moves (by decide)
  | restart => exact s.restart_moves g
  | setThreshold n => exact s.setThreshold_moves g (by simpa [Request.inRange] using inRange)
  | setOptout mask => exact s.setOptout_moves g mask

theorem State.replyTo_moves (q : EndedRequest) : s.moves g (s.replyTo q).state := by
  unfold State.replyTo
  split
  · exact .refl s
  · split
    · exact .refl s
    · unfold State.judge
      split
      · exact .refl s
      · next inRange =>
        split
        · exact .refl s
        · next fits => exact State.carryOut_moves h (by simpa using inRange) (by simpa using fits)

omit h

/-! ### The application link (09 R180 to R182) -/

theorem State.withAl_moves (g : Granted) (s : State) (a : AppLink) (early : s.EarlyLaw → (s.withAl a).EarlyLaw) :
    s.moves g (s.withAl a) := (Aside.link a early).moves

theorem State.EarlyLaw.place {s : State} (law : s.EarlyLaw) (r : List Byte) : (s.withAl (s.al.place r)).EarlyLaw := by
  intro starting
  obtain ⟨working, held⟩ := law starting
  rw [State.withAl_al]
  unfold AppLink.place
  split
  · next q waits => exact ⟨fun _ same => by cases same; exact held q waits, nofun⟩
  · exact ⟨nofun, held⟩

theorem State.answerRequest_moves {g : Granted} {s : State} (h : s.Grants g) (q : EndedRequest) :
    s.moves g (s.answerRequest q) :=
  (State.replyTo_moves h q).trans (State.withAl_moves g _ _ fun law => law.place _)

/-- What the host sends has led by moves from `s` to here, where the granted laws hold. -/
def Stretch.reached (g : Granted) (s : State) (w : Stretch) : Prop := s.moves g w.state ∧ w.state.Grants g

theorem Stretch.reached.requestEnds {g : Granted} {s : State} {w : Stretch} (h : w.reached g s) (e : FramerEvent) :
    (w.requestEnds e).reached g s := by
  obtain ⟨moves, grants⟩ := h
  have early : ∀ q : EndedRequest, q.early = !w.state.started → w.state.started = false → q.early = true := by
    rintro q own starting
    rw [own, starting]; rfl
  unfold Stretch.requestEnds
  dsimp only
  split
  · have held := w.state.withAl_moves g { w.state.al with held := some ⟨e.bytes, !w.state.started⟩ } fun law starting =>
      ⟨(law starting).1, fun _ same => by cases same; exact early _ rfl starting⟩
    exact ⟨moves.trans held, grants.moved held fun law => law.withAl _⟩
  · have taken := w.state.withAl_moves g { w.state.al with buffer := .working ⟨e.bytes, !w.state.started⟩ }
      fun law starting => ⟨fun _ same => by cases same; exact early _ rfl starting, (law starting).2⟩
    have grants := grants.moved taken fun law => law.withAl _
    have replied := State.replyTo_moves grants ⟨e.bytes, !w.state.started⟩
    exact ⟨(moves.trans taken).trans replied, grants.moved replied fun law => law.replyTo _⟩

theorem Stretch.reached.framed {g : Granted} {s : State} {w : Stretch} (h : w.reached g s)
    (r : Framer × List FramerEvent) : (w.framed r).reached g s := by
  have framed := w.state.withAl_moves g { w.state.al with framer := r.1 } fun law => law
  exact List.foldlRecOn (motive := fun w : Stretch => w.reached g s) _ _
    ⟨h.1.trans framed, h.2.moved framed fun law => law.withAl _⟩ fun _ hw e _ => hw.requestEnds e

theorem Stretch.reached.input {g : Granted} {s : State} {w : Stretch} (h : w.reached g s) (x : HostInput) :
    (w.input x).reached g s := by
  obtain ⟨moves, grants⟩ := h
  cases x with
  | bytes bs =>
    simp only [Stretch.input, Stretch.bytesCome]
    split
    · exact ⟨moves, grants⟩
    · have timed := w.state.withAl_moves g { w.state.al with lastByte := w.state.now } fun law => law
      exact Stretch.reached.framed (w := { w with state := _ })
        ⟨moves.trans timed, grants.moved timed fun law => law.withAl _⟩ _
  | gap =>
    simp only [Stretch.input, Stretch.gapPasses]
    split
    · exact ⟨moves, grants⟩
    · have later := w.state.runTo_moves g (w.state.al.lastByte + 6)
      exact Stretch.reached.framed (w := { w with state := _ })
        ⟨moves.trans later, grants.moved later fun law => law.runTo _⟩ _

theorem State.fromHost_moves {g : Granted} {s : State} (h : s.Grants g) (inputs : List HostInput) :
    s.moves g (s.fromHost inputs) := by
  have taken : (inputs.foldl Stretch.input ⟨s, none⟩).reached g s :=
    List.foldlRecOn (motive := fun w : Stretch => w.reached g s) _ _ ⟨.refl s, h⟩ fun _ hw x _ => hw.input x
  unfold State.fromHost Stretch.placed
  split
  · exact taken.1.trans (State.withAl_moves g _ _ fun law => law.place _)
  · exact taken.1

end

/-! ### Cadences and keys (08) -/

section

variable (g : Granted) (s : State)

theorem State.completeCadence_moves : s.moves g s.completeCadence := by
  unfold State.completeCadence
  split
  · exact (s.setSounded_moves g _).trans (State.attend_moves g _)
  · exact .refl s

theorem State.phaseEnds_moves (o : Output) (c : Cadence) : s.moves g (s.phaseEnds o c) := by
  have phase := fun c1 : Cadence =>
    (s.withAu_frame { s.au with cadence := some c1 }).moves (g := g) (by decide)
  unfold State.phaseEnds
  dsimp only
  split
  · exact (phase _).trans (State.completeCadence_moves g _)
  · exact phase _

theorem State.setKey_moves (k : KeyName) (x : KeyState) : s.moves g (s.setKey k x) :=
  (s.setKey_frame k x).moves (by decide)

theorem State.afterLevel_moves (k : KeyName) (d : Drive) : s.moves g (s.afterLevel k d) := by
  unfold State.afterLevel
  split
  · exact s.withTb_moves g _ (Nat.le_refl _)
  · exact .refl s

theorem State.silencePress_moves : s.moves g s.silencePress := by
  have silenced : s.moves g s.silenceAll := by
    refine (Turn.edit _ ?_).moves
    rw [List.map_map]
    refine List.map_congr_left fun e _ => ?_
    rw [Function.comp_apply]
    split <;> rfl
  unfold State.silencePress
  split
  · exact (silenced.trans (State.postIfHeld_moves g _ _ _ _)).trans (State.attend_moves g _)
  · exact .refl s

end

section

variable {g : Granted} {s : State} (h : s.Grants g)
include h

/-- The owner is presented, so that no ASSEMBLING entry closes by a key. -/
theorem State.ackPress_moves : s.moves g s.ackPress := by
  unfold State.ackPress
  split
  · next o owner =>
    have acked : s.moves g (s.acknowledge o.index) := State.acknowledge_moves h.obeys.range fun granted =>
      Entry.state_of_presented (Entry.presented_of_eligible ((h.attentive granted).owner_eligible owner).2)
    refine State.moves.trans ?_ (State.attend_moves g _)
    split
    · exact acked.trans (State.post_moves g _ _)
    · exact acked
  · exact s.count_moves g _

theorem State.press_moves (k : KeyName) : s.moves g (s.press k) := by
  cases k with
  | ack => exact State.ackPress_moves h
  | silence => exact s.silencePress_moves g

theorem State.debounced_moves (k : KeyName) : s.moves g (s.debounced k) := by
  have settled := s.setKey_moves g k { s.au.key k with accepted := s.keyActive k, timer := none }
  unfold State.debounced
  dsimp only
  split
  · exact settled.trans (State.press_moves (h.moved settled fun law => law.calm (s.setKey_calm k _)) k)
  · exact settled

end

end Sys2Proof.Machine

/-! What is heard on the relay channel, the port's commands and start-up as rows of elementary moves. -/

namespace Sys2Proof.Machine

/-! ### OFFER, WANT and PIECE heard (05 R94 to R102) -/

section

variable (g : Granted) (s : State)

theorem State.offerNew_moves (issue : Issue) (total : Nat) (cat : Category) (none' : s.assemblingOf issue.key = none) :
    s.moves g (s.offerNew issue total cat) := by
  unfold State.offerNew
  split
  · next taken =>
    exact (State.takeEntry_moves g (State.noneAssembles_of_find none') taken).1.trans (State.askForAll_moves g _ _)
  · exact .refl s

theorem State.offerAssembling_moves {i : Nat} (issue : Issue) (total : Nat) (cat : Category)
    (mine : s.assemblingOf issue.key = some i) : s.moves g (s.offerAssembling i issue total cat) := by
  have found := State.findEntry_some mine
  simp only [Bool.and_eq_true, beq_iff_eq] at found
  unfold State.offerAssembling
  split
  · exact .refl s
  · split
    · split
      · exact .refl s
      · exact s.requestWant_moves g i
    · exact (State.retarget_moves g issue total cat true found.1 found.2).trans (State.askForAll_moves g _ i)

theorem State.offerBeyond_moves (issue : Issue) (total : Nat) (cat : Category) :
    s.moves g (s.offerBeyond issue total cat) := by
  unfold State.offerBeyond
  split
  · next mine => exact s.offerAssembling_moves g issue total cat mine
  · next none' => exact s.offerNew_moves g issue total cat none'

theorem State.settleOffer_moves (issue : Issue) (total : Nat) (cat : Category) :
    s.moves g (s.settleOffer issue total cat) := by
  unfold State.settleOffer
  split
  · split
    · exact s.resetOffer_moves g _
    · split
      · exact s.heardOffer_moves g _
      · exact .refl s
  · split
    · split
      · exact s.resetOffer_moves g _
      · split
        · exact s.heardOffer_moves g _
        · exact s.offerBeyond_moves g issue total cat
    · exact s.offerBeyond_moves g issue total cat

theorem State.supplyIndex_moves (i : Nat) (issue : Issue) (index : Nat) : s.moves g (s.supplyIndex i issue index) := by
  unfold State.supplyIndex
  split
  · exact s.request_moves g _
  · exact .refl s

theorem State.settleWant_moves (issue : Issue) (wanted : Word16) : s.moves g (s.settleWant issue wanted) := by
  unfold State.settleWant
  extract_lets s1
  have reset : s.moves g s1 := by
    simp only [s1]
    split
    · exact s.resetOffer_moves g _
    · exact .refl s
  split
  · exact reset.trans (State.moves.foldl (fun s k => s.supplyIndex_moves g _ issue k) _ _)
  · exact reset

theorem State.hearPiece_moves (body : List Byte) : s.moves g (s.hearPiece body) := by
  unfold State.hearPiece
  dsimp only
  split
  · exact (s.intake_moves g .relay body).trans (State.removePieces_moves g _ _ _)
  · exact s.intake_moves g .relay body

/-! ### Deliveries (04 R77) -/

theorem State.deliver_moves (kind : FrameKind) (sender : Word32) (body : List Byte) :
    s.moves g (s.deliver kind sender body) := by
  cases kind with
  | offer =>
    simp only [State.deliver, State.hearOffer]
    split
    · exact s.settleOffer_moves g _ _ _
    · exact s.count_moves g _
  | want =>
    simp only [State.deliver, State.hearWant]
    split
    · exact s.settleWant_moves g _ _
    · exact s.count_moves g _
  | piece => exact s.hearPiece_moves g body
  | tally =>
    simp only [State.deliver, State.hearTally]
    split
    · exact s.heardTally_moves g _ _
    · exact s.count_moves g _
  | stand =>
    simp only [State.deliver, State.hearStand]
    split
    · exact s.heardStand_moves g sender _ _ _
    · exact s.count_moves g _
  | covered =>
    simp only [State.deliver, State.hearCovered]
    split
    · exact s.heardCovered_moves g _ _ _
    · exact s.count_moves g _
  | yield =>
    simp only [State.deliver, State.hearYield]
    split
    · exact s.heardYield_moves g sender _
    · exact s.count_moves g _

/-! ### The station's own moves (04) -/

/-- A move of the station keeps the channel's laws, where it keeps the port's law and the tag and leaves a DOWN port
DOWN. -/
theorem State.radio_moves {s t : State} (only : s.onlyChanges [.tb, .cs] t) (port : s.PortLaw → t.PortLaw)
    (tag : t.cs.tag = s.cs.tag) (down : s.cs.port = .down → t.cs.port = .down) (now : t.now = s.now) : s.moves g t := by
  refine (Aside.radio only (fun _ law => ⟨port law.port, ?_⟩) now.ge).moves
  have started : t.started = s.started := congrArg (·.phase == .finished) (only .sl (by decide))
  obtain ⟨before, after⟩ := law.tag
  exact ⟨fun not => down (before (started ▸ not)), fun now => by rw [tag]; exact after (started ▸ now)⟩

theorem State.drawTag_now : s.drawTag.now = s.now := by
  unfold State.drawTag State.afterTagDraw
  split <;> rfl

theorem State.drawTag_moves : s.moves g s.drawTag := by
  refine (Aside.radio s.drawTag_frame (fun _ law => ⟨law.port.withTag s.drawTag_cs, ?_⟩) s.drawTag_now.ge).moves
  have started : s.drawTag.started = s.started := congrArg (·.phase == .finished) (s.drawTag_frame .sl (by decide))
  rw [State.TagLaw, s.drawTag_cs, started]
  exact ⟨law.tag.1, fun _ => s.newTag_good⟩

theorem State.clash_moves : s.moves g s.clash := by
  have marked : s.moves g ((s.flag .tagClash).withCs { s.cs with tagMarked := true }) :=
    (s.flag_moves g _).trans (State.radio_moves g (State.onlyChanges.mono (State.withCs_frame _ _) (by decide))
      (fun law => law.withTag (s := s.flag .tagClash) rfl) rfl id rfl)
  unfold State.clash
  dsimp only
  split
  · exact marked
  · exact marked.trans (State.drawTag_moves g _)

theorem State.receive_moves (bytes : List Byte) : s.moves g (s.receive bytes) := by
  unfold State.receive
  split
  · exact .refl s
  · split
    · unfold State.takeFrame
      split
      · exact .refl s
      · split
        · exact (s.clash_moves g).trans (State.deliver_moves g _ _ _ _)
        · exact s.deliver_moves g _ _ _
    · exact s.count_moves g _

theorem State.arbitrate_moves : s.moves g s.arbitrate :=
  (Aside.ofPortLaw (s.arbitrate_frame) s.arbitrate_sameLine
    (fun law => State.arbitrate_portLaw law.open) s.arbitrate_now).moves

theorem State.tryHandOver_now : s.tryHandOver.now = s.now :=
  congrArg TimeBase.ms (s.tryHandOver_frame .tb (by decide))

theorem State.tryHandOver_moves : s.moves g s.tryHandOver :=
  (Aside.ofPortLaw (s.tryHandOver_frame.mono (by decide)) s.tryHandOver_sameLine
    (fun law => law.tryHandOver) s.tryHandOver_now).moves

end

/-! ### READY (04 R68, R69) -/

/-- Two stations agree in all that the port's law speaks of. -/
structure Station.SamePort (c d : Station) : Prop where
  port : d.port = c.port
  control : d.control = c.control
  bulk : d.bulk = c.bulk
  contender : d.contender = c.contender
  inFlight : d.inFlight = c.inFlight
  echo : d.echo = c.echo
  controlRun : d.controlRun = c.controlRun
  timeoutRun : d.timeoutRun = c.timeoutRun

theorem State.PortLaw.samePort {s t : State} (law : s.PortLaw) (same : s.cs.SamePort t.cs) : t.PortLaw := by
  obtain ⟨port, control, bulk, contender, inFlight, echo, run, timeouts⟩ := same
  have waiting : t.cs.waiting = s.cs.waiting := funext fun q => by cases q <;> assumption
  have room : t.cs.room = s.cs.room := funext fun q => by simp only [Station.room, inFlight]
  simpa only [State.PortLaw, State.ArbiterRests, port, control, bulk, contender, inFlight, echo, run, timeouts, waiting,
    room] using law

/-- A move of the station outside what the port's law and the tag's speak of. -/
theorem State.withCs_moves (g : Granted) (s : State) (x : Station) (same : s.cs.SamePort x) (tag : x.tag = s.cs.tag) :
    s.moves g (s.withCs x) :=
  State.radio_moves g ((s.withCs_frame x).mono (by decide)) (fun law => law.samePort same) tag
    (fun down => same.port.trans down) rfl

theorem State.PortLaw.raised {s : State} (law : s.PortLaw) (down : s.cs.port = .down) :
    (s.withCs { s.cs with port := .up }).PortLaw := by
  obtain ⟨control, bulk, echo⟩ := law.open.down down
  obtain ⟨contender, flight⟩ := law.open.idle (by rw [down]; decide)
  have timeouts := law.open.timeouts (by rw [down]; decide)
  refine (State.portLaw_iff _).mpr ⟨⟨fun not => absurd rfl not, nofun, fun q => ?_, fun k stands => ?_, law.open.echo,
    law.open.run, fun _ => timeouts, fun q p mem => law.open.kinds q p (by cases q <;> exact mem)⟩,
      fun _ _ _ => ⟨control, bulk⟩⟩
  · have room := law.open.room q
    cases q <;> exact room
  · rw [State.withCs_cs, contender] at stands
    cases stands

theorem State.portUp_moves {g : Granted} {s : State} (down : g.channel → s.cs.port = .down)
    (started : g.channel → s.started = true) : s.moves g s.portUp := by
  have raised : s.moves g (s.withCs { s.cs with port := .up }) :=
    (Aside.radio ((s.withCs_frame _).mono (by decide)) (fun granted law =>
      ⟨law.port.raised (down granted),
        fun not => absurd ((started granted).symm.trans not) (by decide), law.tag.2⟩) (Nat.le_refl _)).moves
  exact (raised.trans (State.relayAvailable_moves g _)).trans (State.arbitrate_moves g _)

theorem State.fallen_portLaw {s : State} (cwMin guard : Nat) : (s.withCs (s.cs.fallen cwMin guard)).PortLaw := by
  refine (State.portLaw_iff _).mpr ⟨⟨fun _ => ⟨rfl, rfl⟩, fun _ => ⟨rfl, rfl, rfl⟩, fun q => ?_, nofun, ?_, ?_, fun _ => ?_,
    fun q p mem => ?_⟩, fun _ _ _ => ⟨rfl, rfl⟩⟩
  · cases q <;> exact Nat.zero_le _
  · exact Nat.zero_le 4
  · exact Nat.zero_le 4
  · exact Nat.zero_le 2
  · cases q <;> cases mem

theorem State.portDown_moves (g : Granted) (s : State) : s.moves g s.portDown := by
  have fallen : ∀ s : State, s.moves g (s.withCs (s.cs.fallen s.settings.cwMin (s.now + s.settings.portTimeout))) :=
    fun s => State.radio_moves g ((s.withCs_frame _).mono (by decide)) (fun _ => State.fallen_portLaw _ _) rfl
      (fun _ => rfl) rfl
  unfold State.portDown
  dsimp only
  split
  · exact (s.count_moves g _).trans (fallen _)
  · exact fallen s

/-! ### Backoff (04 R83) -/

/-- The contender is replaced by one of its queue, with its count and slot as they come to be. -/
theorem State.PortLaw.recount {s t : State} (law : s.PortLaw) {k k' : Contender} (stands : s.cs.contender = some k)
    (queue : k'.queue = k.queue) (same : ({ s.cs with contender := some k' } : Station).SamePort t.cs) : t.PortLaw := by
  obtain ⟨waits, flight⟩ := law.open.head k stands
  have up : s.cs.port = .up := by
    by_contra not
    rw [(law.open.idle not).1] at stands
    cases stands
  have open' : ({ s.cs with contender := some k' } : Station).Open :=
    law.open.withContender up (queue ▸ waits) flight
  exact State.PortLaw.samePort (s := s.withCs { s.cs with contender := some k' })
    (State.portLaw_of_open open' (.inl (by simp))) same

theorem State.recount_moves (g : Granted) {s : State} (x : Station) {k k' : Contender} (stands : s.cs.contender = some k)
    (queue : k'.queue = k.queue) (same : ({ s.cs with contender := some k' } : Station).SamePort x)
    (tag : x.tag = s.cs.tag) : s.moves g (s.withCs x) :=
  State.radio_moves g ((s.withCs_frame x).mono (by decide)) (fun law => law.recount stands queue same) tag
    (fun down => same.port.trans down) rfl

theorem State.countOn_moves (g : Granted) {s : State} {k k' : Contender} (stands : s.cs.contender = some k)
    (queue : k'.queue = k.queue) : s.moves g (s.countOn k') := by
  unfold State.countOn
  split
  · exact (State.recount_moves g _ stands (k' := { k' with slotEnd := none }) queue
      ⟨rfl, rfl, rfl, rfl, rfl, rfl, rfl, rfl⟩ rfl).trans (State.tryHandOver_moves g _)
  · exact State.recount_moves g _ stands (k' := { k' with slotEnd := some (s.now + s.settings.slotTime) }) queue
      ⟨rfl, rfl, rfl, rfl, rfl, rfl, rfl, rfl⟩ rfl

theorem State.slotEnds_moves (g : Granted) {s : State} {k : Contender} (stands : s.cs.contender = some k) (rises : Bool) :
    s.moves g (s.slotEnds k rises) := by
  unfold State.slotEnds
  dsimp only
  split
  · exact State.recount_moves g _ stands (k' := { k with count := k.count - 1, slotEnd := none }) rfl
      ⟨rfl, rfl, rfl, rfl, rfl, rfl, rfl, rfl⟩ rfl
  · exact State.countOn_moves g stands rfl

/-! ### Answers and lost frames (04 R84, R85) -/

theorem requeued_length (l : List Payload) (p : Payload) : (requeued l p).length ≤ l.length + 1 := by
  unfold requeued
  split
  · next w found =>
    have same : p.sameIdentity w = true := List.find?_some found
    have fewer : (l.filter fun v => !p.sameIdentity v).length < l.length :=
      List.length_filter_lt_length_iff_exists.mpr ⟨w, List.mem_of_find?_eq_some found, by simp [same]⟩
    exact Nat.succ_le_succ (Nat.le_of_lt fewer)
  · exact Nat.le_refl _

theorem requeued_ne_nil (l : List Payload) (p : Payload) : requeued l p ≠ [] := by
  unfold requeued
  split <;> exact List.cons_ne_nil _ _

theorem Payload.mergeLost_queue {lost w : Payload} (same : lost.sameIdentity w = true) :
    (lost.mergeLost w).queue = lost.queue := by
  have own := Payload.queue_of_sameIdentity same
  unfold Payload.mergeLost
  split
  · rfl
  · exact own.symm

theorem requeued_kinds {l : List Payload} {p : Payload} (kinds : ∀ w ∈ l, w.queue = p.queue) :
    ∀ w ∈ requeued l p, w.queue = p.queue := by
  intro w mem
  unfold requeued at mem
  split at mem
  · next v found =>
    obtain rfl | rest := List.mem_cons.mp mem
    · exact Payload.mergeLost_queue (List.find?_some found)
    · exact kinds w (List.mem_of_mem_filter rest)
  · obtain rfl | rest := List.mem_cons.mp mem
    · rfl
    · exact kinds w rest

theorem Station.Open.up_of_flight {c : Station} (law : c.Open) {f : InFlight} (flight : c.inFlight = some f) :
    c.port = .up ∧ c.contender = none := by
  constructor
  · by_contra not
    rw [(law.idle not).2] at flight
    cases flight
  · cases stands : c.contender with
    | none => rfl
    | some k => rw [(law.head k stands).2] at flight; cases flight

/-- The frame in flight is answered, and is no more. -/
theorem Station.Open.landed {c : Station} (law : c.Open) {f : InFlight} (flight : c.inFlight = some f) :
    ({ c with inFlight := none } : Station).Open := by
  obtain ⟨up, contender⟩ := law.up_of_flight flight
  refine ⟨fun not => absurd up not, law.down, fun q => ?_, fun k stands => ?_, law.echo, law.run, law.timeouts,
    fun q p mem => law.kinds q p (by cases q <;> exact mem)⟩
  · have room := law.room q
    rw [Station.room_of_idle rfl]
    rw [Station.room, flight] at room
    cases q
    · exact room.trans (by dsimp only; split <;> simp)
    · exact room.trans (by dsimp only; split <;> simp)
  · rw [contender] at stands; cases stands

theorem State.putBack_open {s : State} (law : s.cs.Open) {f : InFlight} (flight : s.cs.inFlight = some f) :
    (s.putBack f).cs.Open := by
  have landed := law.landed flight
  obtain ⟨up, contender⟩ := law.up_of_flight flight
  unfold State.putBack
  dsimp only
  split
  · exact landed
  · refine landed.setWaiting ?_ (requeued_kinds (landed.kinds _)) (fun down => ?_) fun _ => requeued_ne_nil _ _
    · have room := law.room f.payload.queue
      rw [Station.room, flight] at room
      dsimp only at room
      rw [if_pos rfl] at room
      rw [Station.room_of_idle rfl]
      have waiting : ({ s.cs with inFlight := none } : Station).waiting f.payload.queue = s.cs.waiting f.payload.queue := by
        cases f.payload.queue <;> rfl
      have most := requeued_length (s.cs.waiting f.payload.queue) f.payload
      rw [waiting]
      have positive : 0 < f.payload.queue.capacity := by cases f.payload.queue <;> decide
      omega
    · exact absurd (up.symm.trans down) (by decide)

/-- What a frame put back leaves as it was, with a station that differs in the timers and counts of the loss alone. -/
theorem State.putBack_cs {s t : State} {f : InFlight} {run cw : Nat} {guard : Option Nat}
    (same : t.cs = { s.cs with timeoutRun := run, cw := cw, guardEnd := guard }) :
    (t.putBack f).cs = { (s.putBack f).cs with timeoutRun := run, cw := cw, guardEnd := guard } := by
  unfold State.putBack
  dsimp only
  rw [same]
  split
  · rfl
  · cases f.payload.queue <;> rfl

theorem State.putBack_line (s : State) (f : InFlight) : (s.putBack f).cs.port = s.cs.port
    ∧ (s.putBack f).cs.tag = s.cs.tag ∧ (s.putBack f).cs.contender = s.cs.contender
    ∧ (s.putBack f).cs.inFlight = none := by
  unfold State.putBack
  dsimp only
  split
  · exact ⟨rfl, rfl, rfl, rfl⟩
  · cases f.payload.queue <;> exact ⟨rfl, rfl, rfl, rfl⟩

theorem State.putBack_waits {s : State} {f : InFlight} (kept : f.withdrawn = false) :
    (s.putBack f).cs.waiting f.payload.queue ≠ [] := by
  have back : (s.putBack f).cs.waiting f.payload.queue = requeued (s.cs.waiting f.payload.queue) f.payload := by
    simp only [State.putBack, kept]
    cases f.payload.queue <;> rfl
  rw [back]
  exact requeued_ne_nil _ _

theorem Station.Open.retimed {c : Station} (law : c.Open) {run : Nat} (few : c.port ≠ .faulted → run ≤ 2) (cw : Nat)
    (guard : Option Nat) : ({ c with timeoutRun := run, cw := cw, guardEnd := guard } : Station).Open :=
  ⟨law.idle, law.down, fun q => by have room := law.room q; cases q <;> exact room,
    fun k stands => by have head := law.head k stands; revert head; cases k.queue <;> exact id,
    law.echo, law.run, few, fun q p mem => law.kinds q p (by cases q <;> exact mem)⟩

theorem State.contendAfterLoss_portLaw {s : State} (law : s.cs.Open) {f : InFlight} (up : s.cs.port = .up)
    (flight : s.cs.inFlight = none) (waits : f.withdrawn = false → s.cs.waiting f.payload.queue ≠ []) :
    (s.contendAfterLoss f).PortLaw := by
  unfold State.contendAfterLoss
  split
  · exact State.arbitrate_portLaw law
  · next kept => exact State.contend_portLaw law up flight (waits (by simpa using kept))

theorem State.contendAfterLoss_sameLine (s : State) (f : InFlight) : s.cs.SameLine (s.contendAfterLoss f).cs := by
  unfold State.contendAfterLoss
  split
  · exact s.arbitrate_sameLine
  · exact s.contend_sameLine _

theorem State.contendAfterLoss_now (s : State) (f : InFlight) : (s.contendAfterLoss f).now = s.now := by
  unfold State.contendAfterLoss
  split
  · exact s.arbitrate_now
  · exact s.contend_now _

theorem State.putBack_now (s : State) (f : InFlight) : (s.putBack f).now = s.now := by
  unfold State.putBack
  dsimp only
  split <;> rfl

/-- A frame in flight is lost, with the port left UP. -/
theorem State.lost_moves (g : Granted) {s : State} {f : InFlight} (flight : s.cs.inFlight = some f) {run : Nat}
    (few : s.PortLaw → run ≤ 2) (cw : Nat) (guard : Option Nat) :
    s.moves g (((s.withCs { s.cs with timeoutRun := run, cw := cw, guardEnd := guard }).putBack f).contendAfterLoss f) := by
  have cs := State.putBack_cs (s := s) (f := f)
    (t := s.withCs { s.cs with timeoutRun := run, cw := cw, guardEnd := guard }) rfl
  obtain ⟨port, tag, -, idle⟩ := s.putBack_line f
  have line := State.contendAfterLoss_sameLine
    ((s.withCs { s.cs with timeoutRun := run, cw := cw, guardEnd := guard }).putBack f) f
  refine State.radio_moves g (by simp) (fun law => ?_) ?_ (fun down => ?_) ?_
  · have up := (law.open.up_of_flight flight).1
    refine State.contendAfterLoss_portLaw ?_ ?_ ?_ fun kept => State.putBack_waits kept
    · rw [cs]; exact (State.putBack_open law.open flight).retimed (fun _ => few law) cw guard
    · rw [cs]; exact port.trans up
    · rw [cs]; exact idle
  · rw [line.tag, cs]; exact tag
  · rw [line.port, cs]; exact port.trans down
  · exact (State.contendAfterLoss_now _ f).trans (State.putBack_now _ f)

/-- A frame in flight is lost at the third timeout in a row, and the port is FAULTED (04 R70, R71). -/
theorem State.faulted_moves (g : Granted) {s : State} {f : InFlight} (flight : s.cs.inFlight = some f) (run cw : Nat)
    (guard : Option Nat) : s.moves g (((s.withCs { s.cs with timeoutRun := run, cw := cw, guardEnd := guard }).putBack f).withCs
      { ((s.withCs { s.cs with timeoutRun := run, cw := cw, guardEnd := guard }).putBack f).cs with port := .faulted }) := by
  have cs := State.putBack_cs (s := s) (f := f)
    (t := s.withCs { s.cs with timeoutRun := run, cw := cw, guardEnd := guard }) rfl
  obtain ⟨port, tag, contender, idle⟩ := s.putBack_line f
  have now := State.putBack_now (s.withCs { s.cs with timeoutRun := run, cw := cw, guardEnd := guard }) f
  refine Aside.moves (.radio (by simp) (fun _ law => ?_) now.ge)
  obtain ⟨up, none'⟩ := law.port.open.up_of_flight flight
  have back := State.putBack_open law.port.open flight
  have started : s.started = true := by
    by_contra not
    exact absurd (up.symm.trans (law.tag.1 (by simpa using not))) (by decide)
  refine ⟨(State.portLaw_iff _).mpr ⟨?_, nofun⟩, ?_⟩
  · rw [State.withCs_cs, cs]
    exact ⟨fun _ => ⟨contender.trans none', idle⟩, nofun,
      fun q => by have room := back.room q; cases q <;> exact room,
      fun k stands => absurd (stands.symm.trans (contender.trans none')) nofun, back.echo, back.run, fun not => absurd rfl not,
      fun q p mem => back.kinds q p (by cases q <;> exact mem)⟩
  · have sl : ((s.withCs { s.cs with timeoutRun := run, cw := cw, guardEnd := guard }).putBack f).sl = s.sl :=
      State.putBack_frame _ f .sl (by decide)
    refine ⟨fun not => ?_, fun _ => ?_⟩
    · have same : s.started = false := by
        rw [← not]; exact congrArg (·.phase == .finished) sl.symm
      exact absurd (started.symm.trans same) (by decide)
    · rw [State.withCs_cs, cs]; exact tag.symm ▸ law.tag.2 started

end Sys2Proof.Machine

/-! Every command but POWER_ON is a row of elementary moves, and so is the tick: the laws that every step keeps. -/

namespace Sys2Proof.Machine

/-! ### Start-up (10) -/

theorem State.readKey_moves (g : Granted) (s : State) (k : KeyName) : s.moves g (s.readKey k) :=
  (s.afterLevel_moves g k _).trans (State.setKey_moves g _ k _)

theorem State.openPort_moves {g : Granted} {s : State} (down : g.channel → s.cs.port = .down)
    (started : g.channel → s.started = true) : s.moves g s.openPort := by
  have window : s.moves g (s.withCs { s.cs with cw := s.settings.cwMin }) :=
    s.withCs_moves g _ ⟨rfl, rfl, rfl, rfl, rfl, rfl, rfl, rfl⟩ rfl
  unfold State.openPort
  dsimp only
  split
  · exact window.trans (State.portUp_moves down started)
  · exact window

theorem State.becomeReady_moves {g : Granted} {s : State} (down : g.channel → s.cs.port = .down) :
    s.moves g s.becomeReady := by
  have drawn : s.moves g s.loaded.drawTag := Aside.ready.moves
  have read : ∀ u : State, u.onlyChanges [.tb, .ml, .au]
      (((u.withMl { u.ml with partReady := true }).readKey .ack).readKey .silence) := fun u => by simp
  refine ((((drawn.trans ((State.withMl_frame _ _).moves (by decide))).trans (State.readKey_moves g _ .ack)).trans
    (State.readKey_moves g _ .silence)).trans (State.openPort_moves (fun granted => ?_) fun _ => ?_))
  · rw [read s.loaded.drawTag .cs (by decide), State.drawTag_cs]
    exact down granted
  · exact (congrArg (·.phase == .finished) (read s.loaded.drawTag .sl (by decide))).trans
      (congrArg (·.phase == .finished) (s.loaded.drawTag_frame .sl (by decide)))

/-- What a command comes to from a state: a row of moves. -/
def endsIn (g : Granted) (s : State) (o : Host.Outcome State Fault Refusal) : Prop := ∀ t, o = .next t → s.moves g t

theorem State.moves.next {g : Granted} {s t : State} (h : s.moves g t) : endsIn g s (.next t) := by
  rintro t ⟨⟩
  exact h

section

variable {g : Granted} {s : State} (h : s.Grants g)
include h

theorem State.Grants.down (starting : s.sl.phase ≠ .finished) (granted : g.channel) : s.cs.port = .down :=
  (h.obeys.channel granted).tag.1 (by simpa [State.started] using starting)

theorem State.defaulted_moves (starting : s.sl.phase ≠ .finished) : s.moves g s.defaulted :=
  (s.flag_moves g _).trans (State.becomeReady_moves (s := s.flag _) (h.down starting))

theorem State.spoiled_moves (starting : s.sl.phase ≠ .finished) : s.moves g s.spoiled :=
  (s.flag_moves g _).trans (State.becomeReady_moves (s := s.flag _) (h.down starting))

omit h in
theorem State.withSl_moves (g : Granted) (s : State) {x : Loader} (starting : s.sl.phase ≠ .finished)
    (phase : x.phase ≠ .finished) : s.moves g (s.withSl x) :=
  (Aside.loader x (iff_of_false phase starting)).moves

omit h in
theorem phaseFor_ne_finished (zones : List Nat) : phaseFor zones ≠ .finished := by
  unfold phaseFor
  split <;> decide

theorem execConfigProbe_moves (answer : Option Word16) : endsIn g s (execConfigProbe answer s) := by
  refine State.moves.next ?_
  split
  · next probing =>
    have starting : s.sl.phase ≠ .finished := by rw [probing]; decide
    split
    · split
      · exact s.withSl_moves g starting (phaseFor_ne_finished _)
      · exact State.defaulted_moves h starting
    · exact State.defaulted_moves h starting
  · exact .refl s

theorem execConfigRecord_moves (first value : Word16) : endsIn g s (execConfigRecord first value s) := by
  refine State.moves.next ?_
  split
  · next reading =>
    have starting : s.sl.phase ≠ .finished := by rw [reading]; decide
    split
    · unfold State.takeRecord
      split
      · next good =>
        have accepted := (Bool.and_eq_true_iff.mp good).2
        exact (Aside.load (by simpa [State.started] using starting) accepted).moves.trans (State.withSl_moves g _ starting (phaseFor_ne_finished _))
      · exact (s.count_moves g _).trans (State.withSl_moves g _ starting (phaseFor_ne_finished _))
    · exact State.spoiled_moves h starting
  · exact .refl s

theorem execConfigCheckWord_moves (word : Word16) : endsIn g s (execConfigCheckWord word s) := by
  refine State.moves.next ?_
  split
  · next checking =>
    have starting : s.sl.phase ≠ .finished := by rw [checking]; decide
    split
    · exact State.becomeReady_moves (h.down starting)
    · exact State.spoiled_moves h starting
  · exact .refl s

theorem execMemorySilent_moves : endsIn g s (execMemorySilent s) := by
  refine State.moves.next ?_
  split
  · next runs =>
    exact State.spoiled_moves h (by obtain reading | checking := runs <;> simp [*])
  · exact .refl s

/-! ### The links (09) -/

omit h in
theorem execModemRecordSent_moves : endsIn g s (execModemRecordSent s) := by
  refine State.moves.next ?_
  split
  · exact (s.withMl_frame _).moves (by decide)
  · exact .refl s

theorem execHeldRequest_moves : endsIn g s (execHeldRequest s) := by
  refine State.moves.next ?_
  split
  · exact State.answerRequest_moves h _
  · exact .refl s

/-! ### The radio port (04) -/

omit h

theorem execReadyRise_moves : endsIn g s (execReadyRise s) := by
  have risen : s.moves g (s.withCs { s.cs with ready := true }) :=
    s.withCs_moves g _ ⟨rfl, rfl, rfl, rfl, rfl, rfl, rfl, rfl⟩ rfl
  refine State.moves.next ?_
  split
  · next ready => exact risen.trans (State.portUp_moves (fun _ => ready.2) fun _ => ready.1)
  · exact risen

theorem execReadyFall_moves : endsIn g s (execReadyFall s) := by
  have fallen : s.moves g (s.withCs { s.cs with ready := false }) :=
    s.withCs_moves g _ ⟨rfl, rfl, rfl, rfl, rfl, rfl, rfl, rfl⟩ rfl
  refine State.moves.next ?_
  split
  · exact fallen
  · exact fallen.trans (State.portDown_moves g _)

theorem execBusyRise_moves : endsIn g s (execBusyRise s) := by
  refine State.moves.next ?_
  cases stands : s.cs.contender with
  | none => exact s.withCs_moves g _ ⟨rfl, rfl, rfl, stands.symm, rfl, rfl, rfl, rfl⟩ rfl
  | some k =>
    exact State.recount_moves g _ stands (k' := { k with slotEnd := none }) rfl
      ⟨rfl, rfl, rfl, rfl, rfl, rfl, rfl, rfl⟩ rfl

theorem execBusyFall_moves : endsIn g s (execBusyFall s) := by
  have fallen : s.moves g (s.withCs { s.cs with busy := false }) :=
    s.withCs_moves g _ ⟨rfl, rfl, rfl, rfl, rfl, rfl, rfl, rfl⟩ rfl
  refine State.moves.next ?_
  split
  · split
    · next stands => exact fallen.trans (State.countOn_moves g stands rfl)
    · exact fallen
  · exact fallen

theorem execBackoffSlotEnd_moves (busyRises : Bool) : endsIn g s (execBackoffSlotEnd busyRises s) := by
  refine State.moves.next ?_
  split
  · next stands =>
    split
    · next t _ => exact State.runsOut_moves (State.slotEnds_moves g (s := s.runTo t) stands busyRises)
    · exact .refl s
  · exact .refl s

theorem Station.inFlight_of_answered {c : Station} {f : InFlight} (h : c.answered = some f) : c.inFlight = some f := by
  unfold Station.answered at h
  split at h
  · cases h
  · exact h

/-- What RS notes at a WANT sent may as well be noted once the arbiter has chosen. -/
theorem State.tellSent_arbitrate_moves (g : Granted) (s : State) (p : Payload) :
    s.arbitrate.moves g ((s.tellSent p).arbitrate) := by
  cases p with
  | want issue wanted =>
    simp only [State.tellSent]
    unfold State.wantSent
    split
    · next i _ =>
      simp only [State.modEntry, State.setEntry, State.arbitrate_withTable]
      have table : s.arbitrate.table = s.table := s.arbitrate_frame .table (by decide)
      rw [← table]
      exact s.arbitrate.modEntry_moves g (i := i)
        (f := fun _ => { s.entry i with want := (s.entry i).want.map fun _ => ⟨s.gapEnd, some s.now⟩ })
        (by rw [State.entry_congr table]; rfl)
    · exact .refl _
  | _ => exact .refl _

theorem execSent_moves : endsIn g s (execSent s) := by
  refine State.moves.next ?_
  split
  · next f answered =>
    have flight := Station.inFlight_of_answered answered
    refine ((s.count_moves g .framesSent).trans ?_).trans (State.tellSent_arbitrate_moves g _ f.payload)
    have line := State.arbitrate_sameLine ((s.count .framesSent).withCs
      { s.cs with inFlight := none, timeoutRun := 0, cw := s.settings.cwMin })
    refine State.radio_moves g (by simp) (fun law => State.arbitrate_portLaw ?_) line.tag
      (fun down => line.port.trans down) (State.arbitrate_now _)
    exact (law.open.landed flight).retimed (fun _ => Nat.zero_le 2) s.settings.cwMin s.cs.guardEnd
  · exact .refl s

theorem execLost_moves : endsIn g s (execLost s) := by
  refine State.moves.next ?_
  split
  · next f answered =>
    exact (s.count_moves g .framesLost).trans (State.lost_moves g (s := s.count .framesLost)
      (Station.inFlight_of_answered answered) (fun _ => Nat.zero_le 2) _ s.cs.guardEnd)
  · exact .refl s

theorem State.portTimesOut_moves (g : Granted) {s : State} {f : InFlight} (flight : s.cs.inFlight = some f) :
    s.moves g (s.portTimesOut f) := by
  have counted := (s.count_moves g .framesLost).trans (State.flag_moves g _ .radioFault)
  have run := congrArg Station.timeoutRun (State.putBack_cs (s := (s.count .framesLost).flag .radioFault) (f := f)
    (t := ((s.count .framesLost).flag .radioFault).withCs { s.cs with
      timeoutRun := s.cs.timeoutRun + 1, cw := doubledWindow s.cs.cw s.settings.cwMax
      guardEnd := some (s.now + s.settings.portTimeout) }) rfl)
  dsimp only at run
  unfold State.portTimesOut
  dsimp only
  split
  · exact counted.trans (State.faulted_moves g (s := (s.count .framesLost).flag .radioFault) flight _ _ _)
  · next below =>
    refine counted.trans (State.lost_moves g (s := (s.count .framesLost).flag .radioFault) flight (fun _ => ?_) _ _)
    rw [run] at below
    exact Nat.le_of_lt_succ (Nat.lt_of_not_le below)

theorem execPortTimeout_moves : endsIn g s (execPortTimeout s) := by
  refine State.moves.next ?_
  split
  · next f flight => exact State.runsOut_moves (State.portTimesOut_moves g (s := s.runTo f.timerEnd) flight)
  · exact .refl s

theorem execLateAnswerGuardEnd_moves : endsIn g s (execLateAnswerGuardEnd s) := by
  refine State.moves.next ?_
  split
  · next t _ =>
    exact State.runsOut_moves ((State.withCs_moves g _ { (s.runTo t).cs with guardEnd := none }
      ⟨rfl, rfl, rfl, rfl, rfl, rfl, rfl, rfl⟩ rfl).trans (State.tryHandOver_moves g _))
  · exact .refl s

theorem execTagRedraw_moves : endsIn g s (execTagRedraw s) := by
  refine State.moves.next ?_
  split
  · exact s.drawTag_moves g
  · exact .refl s

/-! ### Timers of the Alert Table, the Area Resolver and the Relay Scheduler (01, 03, 05) -/

theorem execAssemblyTimeout_moves (i : Nat) : endsIn g s (execAssemblyTimeout i s) := by
  refine State.moves.next ?_
  split
  · exact State.runsOut_moves (State.freeEntry_moves g _ i false)
  · exact .refl s

theorem execExpiryDeadline_moves (i : Nat) : endsIn g s (execExpiryDeadline i s) := by
  refine State.moves.next ?_
  split
  · split
    · exact State.runsOut_moves (State.expire_moves g _ i)
    · exact .refl s
  · exact .refl s

theorem execHuskHoldEnd_moves (i : Nat) : endsIn g s (execHuskHoldEnd i s) := by
  refine State.moves.next ?_
  split
  · exact State.runsOut_moves (State.freeEntry_moves g _ i false)
  · exact .refl s

theorem execVerdictProcedure_moves (h : s.Grants g) (i : Nat) : endsIn g s (execVerdictProcedure i s) := by
  refine State.moves.next ?_
  split
  · next ready =>
    refine State.resolve_moves h.obeys fun _ => ⟨List.nodup_singleton i, fun j mem => ?_⟩
    rw [List.mem_singleton.mp mem]
    exact ready
  · exact .refl s

theorem execQueryTimerEnd_moves (h : s.Grants g) : endsIn g s (execQueryTimerEnd s) := by
  refine State.moves.next ?_
  split
  · exact h.runsOut_moves fun later => State.queryTimedOut_moves later.obeys
  · exact .refl s

theorem execOfferPoint_moves (i : Nat) : endsIn g s (execOfferPoint i s) := by
  refine State.moves.next ?_
  split
  · next r _ =>
    split
    · exact .refl s
    · refine State.runsOut_moves ?_
      have passed := fun u : State => u.modEntry_moves g (i := i)
        (f := fun e => { e with offer := some { r with pointPassed := true } }) rfl
      unfold State.reachPoint
      dsimp only
      split
      · exact (passed _).trans (State.requestOffer_moves g _ i)
      · exact passed _
  · exact .refl s

theorem execOfferIntervalEnd_moves (i : Nat) : endsIn g s (execOfferIntervalEnd i s) := by
  refine State.moves.next ?_
  split
  · exact State.runsOut_moves (State.beginInterval_moves g _ i _)
  · exact .refl s

theorem execGapFillTimerEnd_moves (i : Nat) : endsIn g s (execGapFillTimerEnd i s) := by
  refine State.moves.next ?_
  split
  · exact State.runsOut_moves ((State.requestWant_moves g _ i).trans (State.restartGap_moves g _ i))
  · exact .refl s

/-! ### Timers of the Report Unit (06) -/

theorem State.tallyTimer_moves (g : Granted) (s : State) (k : Nat) (state : AgentState) {act : State → State}
    (acts : ∀ u : State, u.moves g (act u)) : s.moves g (s.tallyTimer k state act) := by
  unfold State.tallyTimer
  split
  · split
    · split
      · exact State.runsOut_moves (acts _)
      · exact .refl s
    · exact .refl s
  · exact .refl s

theorem State.delayEnds_moves (g : Granted) (k : Nat) (s : State) : s.moves g (s.delayEnds k) := by
  unfold State.delayEnds
  split
  · exact s.enterWaiting_moves g k
  · split
    · exact s.joinUplink_moves g k
    · unfold State.stand
      split
      · exact (s.setTally_moves g k _).trans (State.request_moves g _ _)
      · exact .refl s

theorem execUplinkTimeoutEnd_moves : endsIn g s (execUplinkTimeoutEnd s) := by
  refine State.moves.next ?_
  split
  · split
    · exact s.tallyTimer_moves g _ _ fun u => (u.flag_moves g _).trans (State.endUplink_moves g _ _)
    · exact .refl s
  · exact .refl s

/-! ### Attention and keys (08) -/

theorem execCadencePhaseEnd_moves (o : Output) : endsIn g s (execCadencePhaseEnd o s) := by
  refine State.moves.next ?_
  split
  · split
    · exact State.runsOut_moves (State.phaseEnds_moves g _ o _)
    · exact .refl s
  · exact .refl s

theorem execKeyEdge_moves (k : KeyName) (drive : Drive) : endsIn g s (execKeyEdge k drive s) := by
  refine State.moves.next ?_
  dsimp only
  split
  · exact (s.afterLevel_moves g k drive).trans (State.setKey_moves g _ k _)
  · exact s.setKey_moves g k _

theorem execDebounceEnd_moves (h : s.Grants g) (k : KeyName) : endsIn g s (execDebounceEnd k s) := by
  refine State.moves.next ?_
  split
  · exact h.runsOut_moves fun later => State.debounced_moves later k
  · exact .refl s

/-! ### Every command -/

theorem exec_moves (h : s.Grants g) {c : Instr} (other : c ≠ .powerOn) : endsIn g s (exec c s) := by
  cases c with
  | powerOn => exact absurd rfl other
  | configProbe answer => exact execConfigProbe_moves h answer
  | configRecord first value => exact execConfigRecord_moves h first value
  | configCheckWord word => exact execConfigCheckWord_moves h word
  | memorySilent => exact execMemorySilent_moves h
  | hello => exact (State.modemBytes_moves h.obeys _).next
  | cell => exact (State.modemBytes_moves h.obeys _).next
  | fragment => exact (State.modemBytes_moves h.obeys _).next
  | region => exact (State.modemBytes_moves h.obeys _).next
  | time => exact (State.modemBytes_moves h.obeys _).next
  | uplinkResult => exact (State.modemBytes_moves h.obeys _).next
  | linkRecordDropped => exact (State.modemBytes_moves h.obeys _).next
  | modemGapTimeout bytes => exact fun _ => execModemGapTimeout_moves h.obeys bytes
  | modemReadyRise => exact ((s.withMl_frame _).moves (by decide)).next
  | modemReadyFall => exact ((s.withMl_frame _).moves (by decide)).next
  | modemRecordSent => exact execModemRecordSent_moves
  | claim => exact (State.fromHost_moves h _).next
  | read => exact (State.fromHost_moves h _).next
  | complete => exact (State.fromHost_moves h _).next
  | release => exact (State.fromHost_moves h _).next
  | ack => exact (State.fromHost_moves h _).next
  | fetchNotice => exact (State.fromHost_moves h _).next
  | status => exact (State.fromHost_moves h _).next
  | restart => exact (State.fromHost_moves h _).next
  | setThreshold => exact (State.fromHost_moves h _).next
  | setOptout => exact (State.fromHost_moves h _).next
  | badRequestRecord => exact (State.fromHost_moves h _).next
  | appGapTimeout => exact (State.fromHost_moves h _).next
  | heldRequest => exact execHeldRequest_moves h
  | readyRise => exact execReadyRise_moves
  | readyFall => exact execReadyFall_moves
  | busyRise => exact execBusyRise_moves
  | busyFall => exact execBusyFall_moves
  | backoffSlotEnd busyRises => exact execBackoffSlotEnd_moves busyRises
  | sent => exact execSent_moves
  | lost => exact execLost_moves
  | portTimeout => exact execPortTimeout_moves
  | lateAnswerGuardEnd => exact execLateAnswerGuardEnd_moves
  | badFrame => exact (s.receive_moves g _).next
  | tagRedraw => exact execTagRedraw_moves
  | offer => exact (s.receive_moves g _).next
  | want => exact (s.receive_moves g _).next
  | piece => exact (s.receive_moves g _).next
  | tally => exact (s.receive_moves g _).next
  | stand => exact (s.receive_moves g _).next
  | covered => exact (s.receive_moves g _).next
  | yield => exact (s.receive_moves g _).next
  | assemblyTimeout i => exact execAssemblyTimeout_moves i
  | expiryDeadline i => exact execExpiryDeadline_moves i
  | huskHoldEnd i => exact execHuskHoldEnd_moves i
  | verdictProcedure i => exact execVerdictProcedure_moves h i
  | queryTimerEnd => exact execQueryTimerEnd_moves h
  | offerPoint i => exact execOfferPoint_moves i
  | offerIntervalEnd i => exact execOfferIntervalEnd_moves i
  | gapFillTimerEnd i => exact execGapFillTimerEnd_moves i
  | reportDelayEnd k => exact (s.tallyTimer_moves g k _ (State.delayEnds_moves g k)).next
  | standHoldEnd k => exact (s.tallyTimer_moves g k _ fun u => u.modTally_moves g k _).next
  | collectionWindowEnd k => exact (s.tallyTimer_moves g k _ fun u => u.joinUplink_moves g k).next
  | contributorGuardEnd k => exact (s.tallyTimer_moves g k _ fun u => u.enterWaiting_moves g k).next
  | uplinkTimeoutEnd => exact execUplinkTimeoutEnd_moves
  | cadencePhaseEnd o => exact execCadencePhaseEnd_moves o
  | keyEdge k drive => exact execKeyEdge_moves k drive
  | debounceEnd k => exact execDebounceEnd_moves h k

/-- No granted law reads the queue of commands. -/
theorem State.Grants.withPending (h : s.Grants g) (rest : List Instr) : (s.withPending rest).Grants g where
  obeys := ⟨h.obeys.wait, fun granted => ⟨(h.obeys.range granted).shape, (h.obeys.range granted).range⟩,
    fun granted => ⟨(h.obeys.channel granted).port, (h.obeys.channel granted).tag⟩⟩
  attentive := fun granted => (h.attentive granted).calm ((s.withPending_frame rest).calm (by decide))

/-- A step is a row of moves on what is left of the queue, or the part is powered on. -/
theorem step_moves (h : s.Grants g) {t : State} (stepped : step s = .next t) :
    (∃ rest, (s.withPending rest).Grants g ∧ (s.withPending rest).moves g t) ∨ ∃ u : State, t = u.poweredOn := by
  unfold step at stepped
  split at stepped
  · cases stepped
    exact .inl ⟨s.pending, h.withPending _, s.runTo_moves g _⟩
  · next c rest _ =>
    by_cases on : c = .powerOn
    · subst on
      cases stepped
      exact .inr ⟨_, rfl⟩
    · exact .inl ⟨rest, h.withPending rest, exec_moves (h.withPending rest) on _ stepped⟩

end

end Sys2Proof.Machine

/-! The laws at power-on, and the laws that every step keeps. -/

namespace Sys2Proof.Machine

/-! ### Power-on (10 R184) -/

/-- At power-on every entry is FREE, with no slot, no claim and generation 0. -/
theorem State.reset_entry (i : Nat) : State.reset.entry i = Entry.freed 0 :=
  (State.forall_entry (s := State.reset) (P := fun e => e = Entry.freed 0) rfl).mpr
    (fun _ mem => (List.mem_replicate.mp mem).2) i

theorem State.reset_sized : State.reset.Sized where
  shape := by unfold State.Shape; decide +kernel
  range := by unfold State.InRange; decide +kernel

theorem State.reset_portLaw : State.reset.PortLaw := by
  refine (State.portLaw_iff _).mpr ⟨⟨fun _ => ⟨rfl, rfl⟩, fun _ => ⟨rfl, rfl, rfl⟩, fun q => ?_, nofun, Nat.zero_le 4,
    Nat.zero_le 4, fun _ => Nat.zero_le 2, fun q p mem => ?_⟩, fun _ _ _ => ⟨rfl, rfl⟩⟩
  · cases q <;> exact Nat.zero_le _
  · cases q <;> cases mem

theorem State.reset_tagLaw : State.reset.TagLaw := ⟨fun _ => rfl, fun now => by cases now⟩

theorem State.reset_earlyLaw : State.reset.EarlyLaw := fun _ => ⟨nofun, nofun⟩

theorem State.reset_slotLaw : State.reset.SlotLaw := by
  have held : State.reset.table.flatMap Entry.slots = [] :=
    List.flatMap_eq_nil_iff.mpr fun e mem => by rw [(List.mem_replicate.mp mem).2]; rfl
  refine ⟨rfl, fun e mem => ?_, by rw [held, List.append_nil]; exact .refl _⟩
  rw [(List.mem_replicate.mp mem).2]
  exact Entry.holdsSlots_of_slots_nil rfl rfl

theorem State.reset_claimLaw : State.reset.ClaimLaw := by
  have vacant : ∀ k h, State.reset.pu.slots[k]? ≠ some (some h) := fun k h taken => by
    have mem := List.mem_of_getElem? taken
    cases (List.mem_replicate.mp mem).2
  refine ⟨rfl, fun i claimed => ?_, fun k h taken => absurd taken (vacant k h), fun i _ => ?_⟩
  · rw [State.reset_entry] at claimed
    cases claimed
  · rw [State.reset_entry]
    rfl

theorem State.reset_oneAssembling : State.reset.OneAssembling := fun i _ _ now _ _ _ => by
  rw [State.reset_entry] at now
  cases now

theorem State.reset_attentive : State.reset.Attentive where
  wait := ⟨List.nodup_nil, nofun⟩
  owner := by unfold State.OwnerLaw; decide +kernel

/-- Settles O54: each law by itself, the laws of the table from its entries, which are all FREE
(`State.reset_entry`). -/
theorem resetObeysLaws : Obligations.ResetObeysLaws := by
  unfold Obligations.ResetObeysLaws
  exact ⟨State.reset_sized.shape, State.reset_sized.range, State.reset_portLaw, State.reset_tagLaw, State.reset_earlyLaw,
    State.reset_slotLaw, State.reset_attentive.wait, State.reset_claimLaw, State.reset_attentive.owner,
    State.reset_oneAssembling⟩

/-! ### Every step -/

/-- Settles O55: each elementary move keeps sizes and ranges (`Move.sized`). -/
theorem stepKeepsSizesAndRanges : Obligations.StepKeepsSizesAndRanges := by
  unfold Obligations.StepKeepsSizesAndRanges
  intro s t shape range stepped
  have granted : s.Grants ⟨False, True, False, False⟩ := ⟨⟨nofun, fun _ => ⟨shape, range⟩, nofun⟩, nofun⟩
  obtain ⟨rest, granted, moves⟩ | ⟨u, rfl⟩ := step_moves granted stepped
  · have law := (moves.obeys granted.obeys).range trivial
    exact ⟨law.shape, law.range⟩
  · exact ⟨State.reset_sized.shape, State.reset_sized.range⟩

/-- Settles O56: each elementary move keeps the laws of the port and the tag (`Move.channelled`), and those of the requests
that ended in start-up (`Move.earlyLaw`). -/
theorem stepKeepsChannelLaws : Obligations.StepKeepsChannelLaws := by
  unfold Obligations.StepKeepsChannelLaws
  intro s t port tag early stepped
  have granted : s.Grants ⟨False, False, False, True⟩ := ⟨⟨nofun, nofun, fun _ => ⟨port, tag⟩⟩, nofun⟩
  obtain ⟨rest, granted, moves⟩ | ⟨u, rfl⟩ := step_moves granted stepped
  · have law := (moves.obeys granted.obeys).channel trivial
    exact ⟨law.port, law.tag, (moves []).induction (P := fun p => p.2.EarlyLaw) (fun _ _ m => m.earlyLaw) early⟩
  · exact ⟨State.reset_portLaw.samePort ⟨rfl, rfl, rfl, rfl, rfl, rfl, rfl, rfl⟩, State.reset_tagLaw, State.reset_earlyLaw⟩

/-- Settles O57: each elementary move keeps the waiting set LOCATING (`Move.waitLaw`), and with it the match of entries and
claim slots (`Move.claimLaw`). -/
theorem stepKeepsClaims : Obligations.StepKeepsClaims := by
  unfold Obligations.StepKeepsClaims
  intro s t wait claim stepped
  have granted : s.Grants ⟨True, False, False, False⟩ := ⟨⟨fun _ => wait, nofun, nofun⟩, nofun⟩
  obtain ⟨rest, granted, moves⟩ | ⟨u, rfl⟩ := step_moves granted stepped
  · exact ⟨(moves.obeys granted.obeys).wait trivial,
      (moves []).induction (P := fun p => p.2.ClaimLaw) (fun _ _ m => m.claimLaw trivial) claim⟩
  · exact ⟨State.reset_attentive.wait, State.reset_claimLaw⟩

/-- Settles O59: the law of slots is carried along the moves with the slots in hand (`Move.slotsWith`), and a step ends
with none in hand. -/
theorem stepKeepsSlots : Obligations.StepKeepsSlots := by
  unfold Obligations.StepKeepsSlots
  intro s t wait owner slots stepped
  have attentive : s.Attentive := ⟨wait, owner⟩
  obtain ⟨waits, owns⟩ := step_attentive attentive t stepped
  refine ⟨waits, owns, ?_⟩
  have granted : s.Grants ⟨True, False, True, False⟩ := ⟨⟨fun _ => wait, nofun, nofun⟩, fun _ => attentive⟩
  obtain ⟨rest, granted, moves⟩ | ⟨u, rfl⟩ := step_moves granted stepped
  · exact (moves []).induction (P := fun p => p.2.SlotsWith p.1) (fun _ _ m => m.slotsWith trivial trivial) slots
  · exact State.reset_slotLaw

/-- Settles O60: an entry begins to assemble for a key only where none does (`Move.oneAssembling`). -/
theorem stepKeepsOneAssembling : Obligations.StepKeepsOneAssembling := by
  unfold Obligations.StepKeepsOneAssembling
  intro s t law stepped
  have granted : s.Grants ⟨False, False, False, False⟩ := ⟨⟨nofun, nofun, nofun⟩, nofun⟩
  obtain ⟨rest, granted, moves⟩ | ⟨u, rfl⟩ := step_moves granted stepped
  · exact (moves []).induction (P := fun p => p.2.OneAssembling) (fun _ _ m => m.oneAssembling) law
  · exact State.reset_oneAssembling

end Sys2Proof.Machine

/-! One step and one command: the queue, the tick, the power-on state, and what no command does. -/

namespace Sys2Proof.Machine

/-! ### What no elementary move does (10 R185, R191; 11) -/

section

variable {g : Granted} {s t : State}

theorem State.started_of_sl (sl : t.sl = s.sl) : t.started = s.started := congrArg (·.phase == .finished) sl

theorem Aside.now_le (h : Aside g s t) : s.now ≤ t.now := by
  cases h with
  | quiet only => exact Nat.le_of_eq (congrArg TimeBase.ms (only .tb (by decide)).symm)
  | clock x later => exact later
  | radio _ _ later => exact later
  | ready => exact s.loaded.drawTag_now.ge
  | _ => exact Nat.le_refl _

theorem Aside.pending (h : Aside g s t) : t.pending = s.pending := by
  cases h with
  | quiet only => exact only .pending (by decide)
  | radio only => exact only .pending (by decide)
  | ready => exact s.ready_frame .pending (by decide)
  | _ => rfl

theorem Aside.ready_stays (h : Aside g s t) (ready : s.started = true) : t.settings = s.settings ∧ t.started = true := by
  cases h with
  | quiet only => exact ⟨only .settings (by decide), (State.started_of_sl (only .sl (by decide))).trans ready⟩
  | radio only => exact ⟨only .settings (by decide), (State.started_of_sl (only .sl (by decide))).trans ready⟩
  | loader x phase => exact ⟨rfl, by simpa [State.started, phase] using ready⟩
  | ready => exact ⟨s.ready_frame .settings (by decide), State.started_of_sl (s.loaded.drawTag_frame .sl (by decide))⟩
  | load starting => exact absurd (starting.symm.trans ready) (by decide)
  | _ => exact ⟨rfl, ready⟩

end

section

variable {g : Granted} {p q : List Nat × State} (h : Move g p q)
include h

theorem Move.now_le : p.2.now ≤ q.2.now := by
  obtain aside | only := h.frame
  · exact aside.now_le
  · exact Nat.le_of_eq (congrArg TimeBase.ms (only .tb (by decide)).symm)

theorem Move.pending : q.2.pending = p.2.pending := by
  obtain aside | only := h.frame
  · exact aside.pending
  · exact only .pending (by decide)

theorem Move.ready_stays (ready : p.2.started = true) : q.2.settings = p.2.settings ∧ q.2.started = true := by
  obtain aside | only := h.frame
  · exact aside.ready_stays ready
  · exact ⟨only .settings (by decide), (State.started_of_sl (only .sl (by decide))).trans ready⟩

end

/-- Settles O3: every command but POWER_ON is a row of elementary moves, and none of these takes time back, touches the
queue, or undoes the ready state. -/
theorem everyCommandAnswersNext : Obligations.EveryCommandAnswersNext := by
  unfold Obligations.EveryCommandAnswersNext
  intro c s
  by_cases on : c = .powerOn
  · subst on
    exact ⟨s.poweredOn, rfl, rfl, fun other => absurd rfl other, fun other => absurd rfl other⟩
  · have granted : s.Grants ⟨False, False, False, False⟩ := ⟨⟨nofun, nofun, nofun⟩, nofun⟩
    have answers : ∃ t, exec c s = .next t := by cases c <;> exact ⟨_, rfl⟩
    obtain ⟨t, answer⟩ := answers
    have moves := exec_moves granted on t answer []
    refine ⟨t, answer, moves.induction (P := fun p => p.2.pending = s.pending) (fun _ _ m same => m.pending.trans same) rfl,
      fun _ => moves.induction (P := fun p => s.now ≤ p.2.now) (fun _ _ m before => before.trans m.now_le) (Nat.le_refl _),
      fun _ ready => ?_⟩
    exact moves.induction (P := fun p => p.2.settings = s.settings ∧ p.2.started = true)
      (fun _ _ m kept => ⟨(m.ready_stays kept.2).1.trans kept.1, (m.ready_stays kept.2).2⟩) ⟨rfl, ready⟩

/-! ### The step (log 1, 25) -/

/-- Settles O1: the queue holds the command and the rest. -/
theorem stepTakesFront : Obligations.StepTakesFront := by
  unfold Obligations.StepTakesFront
  intro c rest s
  rfl

theorem step_of_idle {s : State} (idle : s.pending = []) : step s = .next s.tick := by
  simp only [step, idle]

/-- Settles O2: the tick runs the time on to the next ms, which can be counted but for the last one. -/
theorem idleStepPassesOneMs : Obligations.IdleStepPassesOneMs := by
  unfold Obligations.IdleStepPassesOneMs
  intro s idle milli
  rw [step_of_idle idle]
  refine ⟨fun before => ?_, fun last => ?_⟩
  · have ticked : s.tick = s.withTb { s.tb with
        uptime := (s.now + 1) / 1000, milli := (s.now + 1) % 1000
        alertClock := s.tb.alertClock.map (· + ((s.now + 1) / 1000 - s.tb.uptime)) } :=
      congrArg s.withTb (if_pos ⟨Nat.lt_succ_self _, before⟩)
    have now : s.tick.now = s.now + 1 := by
      rw [State.tick, State.runTo_now s before]
      exact Nat.max_eq_right (Nat.le_succ _)
    refine ⟨s.tick, rfl, State.runTo_frame _ _, now, ?_⟩
    rw [ticked]
    exact ⟨Nat.mod_lt _ (by decide), rfl, rfl, rfl⟩
  · have stays : s.tb.runTo (s.now + 1) = s.tb := if_neg fun runs => by omega
    rw [State.tick, State.runTo, stays]
    rfl

/-! ### Power-on (10 R184) -/

/-- Settles O4. -/
theorem powerOnResets : Obligations.PowerOnResets := by
  unfold Obligations.PowerOnResets
  have reset : State.reset.PowerOnState := by
    unfold State.PowerOnState
    decide +kernel
  refine ⟨reset, rfl, fun s => ⟨s.poweredOn, rfl, reset, rfl, rfl, rfl, rfl, fun k => ?_, rfl⟩⟩
  cases k <;> rfl

end Sys2Proof.Machine

/-! Records of the modem between two records, the transmit hold, the end of start-up, and the region map cache. -/

namespace Sys2Proof.Machine

/-! ### A record that comes between two records (09 R172 to R174) -/

theorem State.fromModem_of_idle {s : State} (idle : s.ModemIdle) (kind : Byte) {body : List Byte}
    (short : body.length ≤ 105) :
    s.fromModem kind body = s.recordIn.modemEvent (.record (linkRecord kind body)) := by
  obtain ⟨ready, framer⟩ := idle
  have nonempty : linkRecord kind body ≠ [] := by simp [linkRecord, num16, bytes16]
  have framed : s.ml.framer.feed modemMost (linkRecord kind body) = (.idle, [.record (linkRecord kind body)]) := by
    rw [framer]; exact feed_linkRecord _ _ _ (by simp only [modemMost]; omega) (by decide)
  unfold State.fromModem State.modemBytes
  rw [if_pos ⟨ready, nonempty⟩, framed]
  rfl

theorem State.fromModem_of_good {s : State} (idle : s.ModemIdle) {kind : Byte} {body : List Byte}
    (short : body.length ≤ 105) {r : FromModem} (good : modemRecord kind body = some r) :
    s.fromModem kind body = s.recordIn.takeModem r := by
  rw [State.fromModem_of_idle idle kind short, State.modemEvent, judgeModem_linkRecord _ _ (by omega), good]

theorem exec_hello {s : State} (idle : s.ModemIdle) : exec .hello s = .next s.recordIn.hello :=
  congrArg Host.Outcome.next (State.fromModem_of_good idle (by decide) (r := .hello) rfl)

theorem exec_cell {s : State} (idle : s.ModemIdle) (cell : Word32) (service quality : Byte) :
    exec (.cell cell service quality) s = .next (s.recordIn.cellRecord cell service quality) :=
  congrArg Host.Outcome.next (State.fromModem_of_good idle (by simp [bytes32]) (r := .cell cell service quality)
    (by simp [modemRecord, bytes32, word32_of_bytes]))

theorem exec_region {s : State} (idle : s.ModemIdle) (cell code : Word32) {answer : Byte} (read : answer = 0 ∨ answer = 1) :
    exec (.region cell answer code) s = .next (s.recordIn.regionAnswer cell (if answer = 1 then some code else none)) := by
  have good : modemRecord 4 (bytes32 cell ++ [answer] ++ bytes32 code)
      = some (.region cell (if answer = 1 then some code else none)) := by
    obtain rfl | rfl := read <;> simp [modemRecord, bytes32, word32_of_bytes]
  exact congrArg Host.Outcome.next (State.fromModem_of_good idle (by simp [bytes32]) good)

theorem exec_time {s : State} (idle : s.ModemIdle) (seconds : Word32) :
    exec (.time seconds) s = .next (s.recordIn.setClock seconds) :=
  congrArg Host.Outcome.next (State.fromModem_of_good idle (by simp [bytes32]) (r := .time seconds)
    (by simp [modemRecord, bytes32, word32_of_bytes]))

/-- Settles O8. -/
theorem timeSetsAlertClock : Obligations.TimeSetsAlertClock := by
  unfold Obligations.TimeSetsAlertClock
  intro s seconds idle
  rw [exec_time idle]
  rfl

/-! ### The transmit hold (09 R177, R179) -/

theorem ModemLink.trySend_of_low {m : ModemLink} (low : m.modemReady = false) : m.trySend = m := by
  unfold ModemLink.trySend
  split
  · rw [low]; rfl
  · rfl

theorem ModemLink.trySend_of_empty {m : ModemLink} (empty : m.hold = []) : m.trySend = m := by
  unfold ModemLink.trySend
  rw [empty]
  split
  · next held => cases held
  · rfl

theorem ModemLink.trySend_of_sending {m : ModemLink} (sending : m.sending ≠ none) : m.trySend = m := by
  unfold ModemLink.trySend
  split
  · next free _ => exact absurd free sending
  · rfl

theorem ModemLink.trySend_of_ready {m : ModemLink} {r : ModemRecord} {rest : List ModemRecord} (ready : m.modemReady = true)
    (free : m.sending = none) (hold : m.hold = r :: rest) : m.trySend = { m with sending := some r, hold := rest } := by
  simp [ModemLink.trySend, ready, free, hold]

theorem ModemLink.owes_iff (m : ModemLink) (r : ModemRecord) : m.owes r = true
    ↔ ((∃ cell, r = .regionQuery cell ∧ m.queryMarker = some cell)
        ∨ (∃ i tag items, r = .uplink i tag items ∧ m.uplinkMarker = some i)) ∧ ∀ x ∈ m.hold, x.isQuery ≠ r.isQuery := by
  cases r <;> simp [ModemLink.owes]

theorem ModemLink.lineFalls_of_owed {m : ModemLink} {now : Nat} {r : ModemRecord} (sending : m.sending = some r)
    (began : m.helloBegan = some now) (owed : m.owes r = true) : m.lineFalls now
      = { m with modemReady := false, sending := none, hold := r :: m.hold, helloBegan := none } := by
  simp [ModemLink.lineFalls, sending, began, owed]

/-- Settles O15. -/
theorem transmitHoldFollowsReadyLine : Obligations.TransmitHoldFollowsReadyLine := by
  unfold Obligations.TransmitHoldFollowsReadyLine
  intro s started
  refine ⟨?_, fun apart => ?_, fun r sending began others owed => ?_, fun r sending => ?_⟩
  · have rises : exec .modemReadyRise s = .next (s.withMl ({ s.ml with modemReady := true } : ModemLink).trySend) := by
      simp only [exec, execModemReadyRise, started, if_true]
    rw [rises]
    split
    · next free hold =>
      exact congrArg (fun m => Host.Outcome.next (s.withMl m)) (ModemLink.trySend_of_ready rfl free hold)
    · next other =>
      refine congrArg (fun m => Host.Outcome.next (s.withMl m)) ?_
      by_cases free : s.ml.sending = none
      · cases hold : s.ml.hold with
        | nil => exact ModemLink.trySend_of_empty hold
        | cons r rest => exact absurd hold (other r rest free)
      · exact ModemLink.trySend_of_sending free
  · have falls : s.ml.lineFalls s.now = { s.ml with modemReady := false } := by
      obtain free | apart := apart
      · simp [ModemLink.lineFalls, free]
      · exact s.ml.lineFalls_of_ne s.now apart
    simp only [exec, execModemReadyFall, falls]
  · have owes := (s.ml.owes_iff r).mpr ⟨owed, others⟩
    simp only [exec, execModemReadyFall, ModemLink.lineFalls_of_owed sending began owes]
  · have ends : exec .modemRecordSent s
        = .next (s.withMl (ModemLink.trySend { s.ml with sending := none, helloBegan := none })) := by
      simp only [exec, execModemRecordSent, sending]
    rw [ends]
    split
    · next ready hold =>
      exact congrArg (fun m => Host.Outcome.next (s.withMl m)) (ModemLink.trySend_of_ready ready rfl hold)
    · next other =>
      refine congrArg (fun m => Host.Outcome.next (s.withMl m)) ?_
      cases ready : s.ml.modemReady with
      | false => exact ModemLink.trySend_of_low ready
      | true =>
        cases hold : s.ml.hold with
        | nil => exact ModemLink.trySend_of_empty hold
        | cons r rest => exact absurd hold (other r rest ready)

/-! ### The end of start-up (10 R185) -/

theorem State.indexes_eq_nil {s : State} {p : Entry → Bool} (none' : ∀ e ∈ s.table, p e = false) : s.indexes p = [] := by
  refine List.filter_eq_nil_iff.mpr fun i mem => ?_
  rw [none' _ (s.mem_table_entry (List.mem_range.mp mem))]
  exact Bool.false_ne_true

/-- With no alert in the table and no frame waiting, the port going UP is all that happens (04 R68). -/
theorem State.portUp_of_empty {s : State} (control : s.cs.control = []) (bulk : s.cs.bulk = [])
    (empty : ∀ e ∈ s.table, e.state = .free ∧ e.offer = none) : s.portUp = s.withCs { s.cs with port := .up } := by
  have offers : (s.withCs { s.cs with port := .up }).indexes (fun e => e.offer.isSome) = [] :=
    State.indexes_eq_nil fun e mem => by rw [(empty e mem).2]; rfl
  have assembling : (s.withCs { s.cs with port := .up }).indexes (fun e => e.state == .assembling) = [] :=
    State.indexes_eq_nil fun e mem => by rw [(empty e mem).1]; rfl
  have quiet : (s.withCs { s.cs with port := .up }).relayAvailable = s.withCs { s.cs with port := .up } := by
    unfold State.relayAvailable
    simp only [offers, List.foldl_nil, assembling]
  rw [State.portUp, quiet]
  exact State.arbitrate_of_rests fun _ _ _ => ⟨control, bulk⟩

theorem State.openPort_of_empty {s : State} (down : s.cs.port = .down) (control : s.cs.control = [])
    (bulk : s.cs.bulk = []) (empty : ∀ e ∈ s.table, e.state = .free ∧ e.offer = none) :
    s.openPort = s.withCs { s.cs with cw := s.settings.cwMin, port := if s.cs.ready then .up else .down } := by
  unfold State.openPort
  dsimp only
  split
  · next ready =>
    have port : (if s.cs.ready then Port.up else Port.down) = .up := if_pos ready
    rw [port]
    exact (State.portUp_of_empty (s := s.withCs { s.cs with cw := s.settings.cwMin }) control bulk empty).trans rfl
  · next low =>
    have port : (if s.cs.ready then Port.up else Port.down) = s.cs.port := (if_neg low).trans down.symm
    rw [port]

theorem State.key_setKey (s : State) (k : KeyName) (x : KeyState) : (s.setKey k x).au.key k = x := by cases k <;> rfl

theorem State.key_setKey_ne (s : State) {k j : KeyName} (other : j ≠ k) (x : KeyState) :
    (s.setKey k x).au.key j = s.au.key j := by
  cases k <;> cases j <;> first | rfl | exact absurd rfl other

theorem State.setKey_owner (s : State) (k : KeyName) (x : KeyState) :
    (s.setKey k x).au.owner = s.au.owner ∧ (s.setKey k x).au.cadence = s.au.cadence := by cases k <;> exact ⟨rfl, rfl⟩

theorem State.afterLevel_keeps_au (s : State) (k : KeyName) (d : Drive) : (s.afterLevel k d).au = s.au :=
  s.afterLevel_frame k d .au (by decide)

/-- The accepted level of a key that has been read is its level, and its timer stands (08 R165). -/
def State.keyRead (s t : State) (k : KeyName) : Prop :=
  (t.au.key k).timer = none ∧ (t.au.key k).accepted = t.keyActive k ∧ (t.au.key k).drive = (s.au.key k).drive

theorem State.readKey_keyRead (s : State) (k : KeyName) : s.keyRead (s.readKey k) k := by
  have settings : (s.readKey k).settings = s.settings := s.readKey_frame k .settings (by decide)
  unfold State.keyRead State.keyActive
  rw [settings]
  simp only [State.readKey, State.key_setKey, and_self]

theorem State.readKey_key_ne (s : State) {k j : KeyName} (other : j ≠ k) : (s.readKey k).au.key j = s.au.key j := by
  rw [State.readKey, State.key_setKey_ne _ other, State.afterLevel_keeps_au]

theorem State.keyRead.kept {s t u : State} {k : KeyName} (h : s.keyRead t k) (key : u.au.key k = t.au.key k)
    (settings : u.settings = t.settings) : s.keyRead u k := by
  unfold State.keyRead State.keyActive at h ⊢
  rw [key, settings]
  exact h

theorem State.readKey_owner (s : State) (k : KeyName) :
    (s.readKey k).au.owner = s.au.owner ∧ (s.readKey k).au.cadence = s.au.cadence := by
  have au := s.afterLevel_keeps_au k (s.au.key k).drive
  obtain ⟨owner, cadence⟩ := State.setKey_owner (s.afterLevel k (s.au.key k).drive) k { s.au.key k with
    levelHigh := s.keyLevel k (s.au.key k).drive
    accepted := s.keyLevel k (s.au.key k).drive == s.settings.activeHigh k, timer := none }
  exact ⟨owner.trans (congrArg Attention.owner au), cadence.trans (congrArg Attention.cadence au)⟩

/-- The state once the tag is drawn, the part ready line is high and the keys are read (10 R185). -/
def State.keysRead (s : State) : State :=
  ((s.loaded.drawTag.withMl { s.loaded.drawTag.ml with partReady := true }).readKey .ack).readKey .silence

theorem State.keysRead_frame (s : State) : s.loaded.drawTag.onlyChanges [.tb, .ml, .au] s.keysRead := by
  simp [State.keysRead]

/-- The ready state is reached from start-up, and nothing beside it changes. -/
theorem State.becomeReady_readyFrom {s : State} (starting : s.Starting) :
    s.ReadyFrom s.becomeReady ∧ s.onlyChanges [.tb, .sl, .cs, .au, .ml] s.becomeReady := by
  obtain ⟨-, down, control, bulk, contender, flight, empty⟩ := starting
  have read := s.keysRead_frame
  have cs : s.keysRead.cs = { s.cs with tag := s.loaded.newTag, tagMarked := false } :=
    (read .cs (by decide)).trans s.loaded.drawTag_cs
  have table : s.keysRead.table = s.table := (read .table (by decide)).trans (s.ready_frame .table (by decide))
  have settings : s.keysRead.settings = s.settings :=
    (read .settings (by decide)).trans (s.ready_frame .settings (by decide))
  have ready : s.becomeReady = s.keysRead.withCs { s.keysRead.cs with
      cw := s.keysRead.settings.cwMin, port := if s.keysRead.cs.ready then .up else .down } :=
    State.openPort_of_empty (s := s.keysRead) (by rw [cs]; exact down) (by rw [cs]; exact control) (by rw [cs]; exact bulk)
      (by rw [table]; exact empty)
  have au : s.loaded.drawTag.au = s.au := s.ready_frame .au (by decide)
  have key : ∀ k, (s.loaded.drawTag.withMl { s.loaded.drawTag.ml with partReady := true }).au.key k = s.au.key k := fun k =>
    congrArg (·.key k) au
  have keys : ∀ k, s.keyRead s.keysRead k := by
    intro k
    cases k with
    | silence =>
      have silence := State.readKey_keyRead
        ((s.loaded.drawTag.withMl { s.loaded.drawTag.ml with partReady := true }).readKey .ack) .silence
      obtain ⟨timer, accepted, drive⟩ := silence
      exact ⟨timer, accepted, drive.trans (congrArg KeyState.drive ((State.readKey_key_ne _ (by decide)).trans (key .silence)))⟩
    | ack =>
      have ack := State.readKey_keyRead (s.loaded.drawTag.withMl { s.loaded.drawTag.ml with partReady := true }) .ack
      have kept := ack.kept (u := s.keysRead) (State.readKey_key_ne _ (by decide)) (State.readKey_frame _ _ .settings (by decide))
      obtain ⟨timer, accepted, drive⟩ := kept
      exact ⟨timer, accepted, drive.trans (congrArg KeyState.drive (key .ack))⟩
  have owner : s.keysRead.au.owner = s.au.owner ∧ s.keysRead.au.cadence = s.au.cadence := by
    obtain ⟨owner, cadence⟩ := State.readKey_owner
      ((s.loaded.drawTag.withMl { s.loaded.drawTag.ml with partReady := true }).readKey .ack) .silence
    obtain ⟨owner', cadence'⟩ := State.readKey_owner
      (s.loaded.drawTag.withMl { s.loaded.drawTag.ml with partReady := true }) .ack
    rw [State.withMl_au, au] at owner' cadence'
    exact ⟨owner.trans owner', cadence.trans cadence'⟩
  have ml : s.keysRead.ml = { s.ml with partReady := true } := by
    have drawn : s.loaded.drawTag.ml = s.ml := s.ready_frame .ml (by decide)
    rw [← drawn]
    exact (State.readKey_frame _ .silence .ml (by decide)).trans (State.readKey_frame _ .ack .ml (by decide))
  have drawn : s.loaded.drawTag.started = true := State.started_of_sl (s.loaded.drawTag_frame .sl (by decide))
  have started : s.keysRead.started = true := (State.started_of_sl (read .sl (by decide))).trans drawn
  rw [ready]
  refine ⟨⟨?_, ?_, ?_, ml, owner.1, owner.2, keys⟩, ?_⟩
  · exact (State.started_of_sl (State.withCs_sl _ _)).trans started
  · rw [State.withCs_cs, cs]
    exact s.loaded.newTag_good
  · rw [State.withCs_cs, cs, settings]
  · exact ((s.ready_frame.mono (qs := [.tb, .sl, .cs]) (ps := [.tb, .sl, .cs, .au, .ml]) (by decide)).step read (by decide)).step
      (State.withCs_frame _ _) (by decide)

theorem State.onlyChanges.flagged {s t : State} {ps : List Part} {f : Flag} (only : (s.flag f).onlyChanges ps t) :
    s.onlyChanges (ps ++ [.flags]) t :=
  ((s.flag_frame f).mono (by simp)).step only fun p mem => List.mem_append_left _ mem

/-- Start-up ends with a fault flag set. -/
theorem State.flagged_readyFrom {s : State} (starting : s.Starting) (f : Flag) :
    s.ReadyFrom (s.flag f).becomeReady ∧ (s.flag f).becomeReady.flags = s.flags.set f
      ∧ s.onlyChanges [.tb, .sl, .cs, .au, .ml, .flags] (s.flag f).becomeReady := by
  obtain ⟨ready, only⟩ := State.becomeReady_readyFrom (s := s.flag f) starting
  exact ⟨ready, only .flags (by decide), only.flagged⟩

theorem headerGood_iff (w : Word16) :
    headerGood w = true ↔ w.extractLsb' 5 11 = 0b10110011101#11 ∧ w.getLsbD 0 = false := by
  have low : w.extractLsb' 0 1 = 0#1 ↔ w.getLsbD 0 = false := by
    rw [BitVec.eq_of_getLsbD_eq_iff]
    simp
  rw [headerGood, Bool.and_eq_true, beq_iff_eq, beq_iff_eq, low]
  rfl

/-- Settles O5. -/
theorem probeJudgesHeader : Obligations.ProbeJudgesHeader := by
  unfold Obligations.ProbeJudgesHeader
  intro s starting probing
  refine ⟨fun w signature zero => ?_, fun answer bad => ?_⟩
  · have good := (headerGood_iff w).mpr ⟨signature, zero⟩
    simp only [exec, execConfigProbe, probing, if_true, good]
    rfl
  · have defaulted : exec (.configProbe answer) s = .next s.defaulted := by
      cases answer with
      | none => simp only [exec, execConfigProbe, probing, if_true]
      | some w =>
        have wrong : headerGood w = false := by
          rw [← Bool.not_eq_true, headerGood_iff]
          intro ⟨signature, zero⟩
          obtain other | low := bad w rfl
          · exact other signature
          · rw [zero] at low; cases low
        simp only [exec, execConfigProbe, probing, if_true, wrong, Bool.false_eq_true, if_false]
    obtain ⟨ready, flags, only⟩ := State.flagged_readyFrom starting .configDefaulted
    exact ⟨_, defaulted, ready, flags, only⟩

/-- Settles O7. -/
theorem imageEndsStartUp : Obligations.ImageEndsStartUp := by
  unfold Obligations.ImageEndsStartUp
  intro s c starting
  refine ⟨?_, fun ends => ?_⟩
  · rintro rfl checking fits
    obtain ⟨ready, only⟩ := State.becomeReady_readyFrom starting
    exact ⟨_, by simp only [exec, execConfigCheckWord, checking, if_true, fits, and_self], ready, only⟩
  · have spoiled : exec c s = .next s.spoiled := by
      obtain ⟨w, rfl, checking, wrong⟩ | ⟨rfl, stops⟩ | ⟨first, value, rfl, reading, past⟩ := ends
      · simp only [exec, execConfigCheckWord, checking, if_true, wrong, false_and, if_false]
      · simp only [exec, execMemorySilent, stops, if_true]
      · simp only [exec, execConfigRecord, reading, if_true, Nat.not_lt.mpr past, if_false]
    obtain ⟨ready, flags, only⟩ := State.flagged_readyFrom starting .configCrc
    exact ⟨_, spoiled, ready, flags, only⟩

end Sys2Proof.Machine

/-! The region map cache (03 R54 to R57). -/

namespace Sys2Proof.Machine

/-- The entry is a valid one of the cell (03 R55). -/
def CacheEntry.isOf (cell : Word32) (c : CacheEntry) : Bool := c.valid && c.cell == cell

theorem CacheEntry.isOf_iff {cell : Word32} {c : CacheEntry} : c.isOf cell = true ↔ c.valid = true ∧ c.cell = cell := by
  simp [CacheEntry.isOf]

theorem CacheEntry.isOf_eq_false_iff {cell : Word32} {c : CacheEntry} :
    c.isOf cell = false ↔ c.valid = false ∨ c.cell ≠ cell := by
  rw [← Bool.not_eq_true, CacheEntry.isOf_iff, not_and_or, Bool.not_eq_true]

theorem eraseP_of_first {α : Type} {p : α → Bool} {a b : List α} {x : α} (holds : p x = true) (before : ∀ y ∈ a, p y = false) :
    (a ++ x :: b).eraseP p = a ++ b := by
  rw [List.eraseP_append_right _ fun y mem => by simp [before y mem], List.eraseP_cons_of_pos holds]

theorem find?_of_first {α : Type} {p : α → Bool} {a b : List α} {x : α} (holds : p x = true) (before : ∀ y ∈ a, p y = false) :
    (a ++ x :: b).find? p = some x :=
  List.find?_eq_some_iff_append.mpr ⟨holds, a, b, rfl, fun y mem => by simp [before y mem]⟩

namespace Resolver

variable {r : Resolver} {cell code : Word32}

theorem cached_eq_none_iff : r.cached cell = none ↔ ∀ y ∈ r.cache, y.isOf cell = false := by
  rw [cached, Option.map_eq_none_iff, List.find?_eq_none]
  exact forall₂_congr fun y _ => Bool.not_eq_true (y.isOf cell) ▸ Iff.rfl

/-- Where the cache holds a code for the cell, the first valid entry of it holds it. -/
theorem first_of_cached {old : Word32} (held : r.cached cell = some old) :
    ∃ a b, r.cache = a ++ ⟨true, cell, old⟩ :: b ∧ ∀ y ∈ a, y.isOf cell = false := by
  obtain ⟨⟨valid, own, _⟩, found, rfl⟩ := Option.map_eq_some_iff.mp held
  obtain ⟨holds, a, b, split, before⟩ := List.find?_eq_some_iff_append.mp found
  obtain ⟨rfl, rfl⟩ : valid = true ∧ own = cell := CacheEntry.isOf_iff.mp holds
  exact ⟨a, b, split, fun y mem => Bool.not_eq_true' _ ▸ before y mem⟩

theorem touched_of_first {a b : List CacheEntry} {x : CacheEntry} (split : r.cache = a ++ x :: b) (own : x.isOf cell = true)
    (before : ∀ y ∈ a, y.isOf cell = false) : r.touched cell = { r with cache := x :: (a ++ b) } := by
  have found : r.cache.find? (CacheEntry.isOf cell) = some x := by rw [split]; exact find?_of_first own before
  have rest : r.cache.eraseP (CacheEntry.isOf cell) = a ++ b := by rw [split]; exact eraseP_of_first own before
  change (match r.cache.find? (CacheEntry.isOf cell) with
    | some c => { r with cache := c :: r.cache.eraseP (CacheEntry.isOf cell) }
    | none => r) = _
  rw [found, rest]

theorem touched_of_none (missed : r.cached cell = none) : r.touched cell = r := by
  have missed : r.cache.find? (fun c => c.valid && c.cell == cell) = none := Option.map_eq_none_iff.mp missed
  simp only [touched, missed]

theorem filled_of_any (held : r.cache.any (CacheEntry.isOf cell) = true) :
    r.filled cell code = { r with cache := ⟨true, cell, code⟩ :: r.cache.eraseP (CacheEntry.isOf cell) } := if_pos held

theorem filled_of_none (missed : r.cached cell = none) :
    r.filled cell code = { r with cache := ⟨true, cell, code⟩ :: cacheWithout r.cache } :=
  if_neg fun held => by
    obtain ⟨y, mem, own⟩ := List.any_eq_true.mp held
    have other := cached_eq_none_iff.mp missed y mem
    exact absurd (own.symm.trans other) (by decide)

theorem filled_front : ∃ rest, (r.filled cell code).cache = ⟨true, cell, code⟩ :: rest := by
  unfold filled
  split
  · exact ⟨_, rfl⟩
  · exact ⟨_, rfl⟩

theorem cached_of_front {x : CacheEntry} {rest : List CacheEntry} (front : r.cache = x :: rest) (own : x.isOf cell = true) :
    r.cached cell = some x.code := by
  have found : r.cache.find? (CacheEntry.isOf cell) = some x := by rw [front, List.find?_cons_of_pos own]
  exact congrArg (Option.map (·.code)) found

/-- A lookup of one cell leaves the code of another as it is. -/
theorem touched_cached_ne {other : Word32} (apart : other ≠ cell) : (r.touched cell).cached other = r.cached other := by
  cases held : r.cached cell with
  | none => rw [touched_of_none held]
  | some old =>
    obtain ⟨a, b, split, before⟩ := first_of_cached held
    have foreign : (⟨true, cell, old⟩ : CacheEntry).isOf other = false := CacheEntry.isOf_eq_false_iff.mpr (.inr apart.symm)
    rw [touched_of_first split (CacheEntry.isOf_iff.mpr ⟨rfl, rfl⟩) before]
    refine congrArg (Option.map (·.code)) (?_ : List.find? (CacheEntry.isOf other) _ = List.find? (CacheEntry.isOf other) _)
    rw [split, List.find?_cons_of_neg (by simp [foreign]), List.find?_append, List.find?_append,
      List.find?_cons_of_neg (by simp [foreign])]

end Resolver

theorem cacheWithout_of_invalid {a b : List CacheEntry} {x : CacheEntry} (invalid : x.valid = false)
    (behind : ∀ y ∈ b, y.valid = true) : cacheWithout (a ++ x :: b) = a ++ b := by
  have some' : (a ++ x :: b).any (fun c => !c.valid) = true := by simp [invalid]
  have turned : (a ++ x :: b).reverse = b.reverse ++ x :: a.reverse := by simp
  rw [cacheWithout, if_pos some', turned, eraseP_of_first (by simp [invalid]) fun y mem => by
    simp [behind y (List.mem_reverse.mp mem)]]
  simp

theorem cacheWithout_of_valid {cache : List CacheEntry} (valid : ∀ y ∈ cache, y.valid = true) :
    cacheWithout cache = cache.dropLast := if_neg (by simpa using valid)

/-- Settles O11: a lookup or a fill acts on the first valid entry of the cell, which splits the cache in two. -/
theorem cacheKeepsUse : Obligations.CacheKeepsUse := by
  unfold Obligations.CacheKeepsUse
  intro r cell code length
  obtain ⟨rest, front⟩ := r.filled_front (cell := cell) (code := code)
  have isOf : ∀ {x : CacheEntry}, x.valid = true → x.cell = cell → x.isOf cell = true := fun valid own =>
    CacheEntry.isOf_iff.mpr ⟨valid, own⟩
  have apart : ∀ {l : List CacheEntry}, (∀ y ∈ l, y.valid = false ∨ y.cell ≠ cell) → ∀ y ∈ l, y.isOf cell = false :=
    fun h y mem => CacheEntry.isOf_eq_false_iff.mpr (h y mem)
  refine ⟨by rw [front]; rfl, Resolver.cached_of_front front (isOf rfl rfl), Resolver.filled_length cell code length,
    fun a x b split valid own before => ?_, fun a x b split missed invalid behind => ?_, fun missed valid => ?_,
    fun a x b split valid own before => ⟨?_, Resolver.touched_of_first split (isOf valid own) (apart before)⟩, ?_,
    fun old held => ?_, Resolver.touched_of_none, fun other ne => Resolver.touched_cached_ne ne⟩
  · have held : r.cache.any (CacheEntry.isOf cell) = true := by rw [split]; simp [isOf valid own]
    rw [Resolver.filled_of_any held, split]
    exact eraseP_of_first (isOf valid own) (apart before)
  · rw [Resolver.filled_of_none missed, split]
    exact cacheWithout_of_invalid invalid behind
  · rw [Resolver.filled_of_none missed]
    exact cacheWithout_of_valid valid
  · have found : r.cache.find? (CacheEntry.isOf cell) = some x := by
      rw [split]; exact find?_of_first (isOf valid own) (apart before)
    exact congrArg (Option.map (·.code)) found
  · rw [Resolver.cached_eq_none_iff]
    exact forall₂_congr fun y _ => CacheEntry.isOf_eq_false_iff
  · obtain ⟨a, b, split, before⟩ := Resolver.first_of_cached held
    rw [Resolver.touched_of_first split (isOf rfl rfl) before, split]
    exact ⟨rfl, List.perm_middle.symm⟩

end Sys2Proof.Machine

/-! Building and reading agree for the bodies of the relay frames, for whole frames, and for the records of the two
wire links (04 R76, 05 R94, 06 R130, 09 R172, R173, R180). -/

namespace Sys2Proof.Machine

/-! ### Bodies of the relay frames (11.3) -/

theorem byte_toNat {n : Nat} (small : n ≤ 255) : (byte n).toNat = n := by
  rw [byte, BitVec.toNat_ofNat]
  exact Nat.mod_eq_of_lt (by omega)

theorem Category.code_lt (c : Category) : c.code < 8 := by cases c <;> decide

theorem Category.ofCode_code (c : Category) : Category.ofCode (BitVec.ofNat 3 c.code) = c := by cases c <;> rfl

theorem Category.ofCode_byte (c : Category) : Category.ofCode ((byte c.code).extractLsb' 0 3) = c := by cases c <;> rfl

theorem Category.byte_upper (c : Category) : (byte c.code).extractLsb' 3 5 = 0#5 := by cases c <;> rfl

@[simp] theorem Issue.bytes_length (issue : Issue) : issue.bytes.length = 6 := rfl

theorem Issue.bytes_drop (issue : Issue) (rest : List Byte) : (issue.bytes ++ rest).drop 6 = rest := rfl

section Bodies
variable {issue : Issue} (origin : issue.key.origin ≠ 0)
include origin

theorem parseOffer_body {total : Nat} (category : Category) (least : 1 ≤ total) (most : total ≤ 16) :
    parseOffer (Payload.offer issue total category).body = some (issue, total, category) := by
  have size : (byte total).toNat = total := byte_toNat (by omega)
  simp [parseOffer, Payload.body, parseIssue_bytes_append origin, Issue.bytes_drop, size, least, most,
    Category.byte_upper, Category.ofCode_byte]

theorem parseWant_body {wanted : Word16} (some' : wanted ≠ 0) :
    parseWant (Payload.want issue wanted).body = some (issue, wanted) := by
  simp only [parseWant, Payload.body, parseIssue_bytes_append origin, Issue.bytes_drop, bytes16, word16_of_bytes]
  exact if_pos some'

theorem parseStand_body {bid size : Nat} (bidMost : bid ≤ 65535) (least : 1 ≤ size) (most : size ≤ 64) :
    parseStand (Payload.stand issue bid size).body = some (issue, bid, size) := by
  have sizeRead : (byte size).toNat = size := byte_toNat (by omega)
  have bidRead : (BitVec.ofNat 16 bid).toNat = bid := word16_ofNat_toNat bid (by omega)
  simp [parseStand, Payload.body, parseIssue_bytes_append origin, List.append_assoc, Issue.bytes_drop, num16, bytes16,
    word16_of_bytes, sizeRead, bidRead, least, most]

theorem parseTally_body {items : List Item} (good : ∀ x ∈ items, tagGood x.tag = true ∧ x.status ≠ .none) :
    parseTally (Payload.tally issue items).body = some (issue, items) := by
  have named : parseItems (items.flatMap Item.bytes) = some items := by
    induction items with
    | nil => rfl
    | cons x items ih =>
      obtain ⟨tag, status⟩ := good x List.mem_cons_self
      have rest := ih fun y held => good y (List.mem_cons_of_mem x held)
      simp only [List.flatMap_cons, Item.bytes, bytes32, List.cons_append, List.nil_append, parseItems,
        Level.ofStatus_code status, rest, word32_of_bytes, tag, if_true]
  have tail : (Payload.tally issue items).body.drop 7 = items.flatMap Item.bytes := rfl
  rw [parseTally, tail, named]
  simp only [Payload.body, List.append_assoc, parseIssue_bytes_append origin]

end Bodies

theorem flatMap_length_of_length {α : Type} {f : α → List Byte} {n : Nat} (each : ∀ x, (f x).length = n) (xs : List α) :
    (xs.flatMap f).length = n * xs.length := by
  rw [List.length_flatMap, List.map_congr_left fun x _ => each x, List.map_const', List.sum_replicate, smul_eq_mul,
    Nat.mul_comm]

theorem bodyGood_tally (issue : Issue) {items : List Item} (least : 1 ≤ items.length) (most : items.length ≤ 16) :
    bodyGood .tally (Payload.tally issue items).body = true := by
  have count : (byte items.length).toNat = items.length := byte_toNat (by omega)
  have read : (Payload.tally issue items).body.getD 6 0 = byte items.length := rfl
  have length := flatMap_length_of_length (f := Item.bytes) (n := 5) (fun _ => rfl) items
  simp only [bodyGood, read, count]
  simp [Payload.body, length, least, most]
  omega

theorem bodyGood_covered (issue : Issue) (level : Level) (part : Nat) {tags : List Word32} (least : 1 ≤ tags.length)
    (most : tags.length ≤ 24) : bodyGood .covered (Payload.covered issue level part tags).body = true := by
  have count : (byte tags.length).toNat = tags.length := byte_toNat (by omega)
  have read : (Payload.covered issue level part tags).body.getD 7 0 = byte tags.length := rfl
  have length := flatMap_length_of_length (f := bytes32) (n := 4) (fun _ => rfl) tags
  simp only [bodyGood, read, count]
  simp [Payload.body, length, least, most]
  omega

theorem frameBytes_length (kind : FrameKind) (sender : Word32) (body : List Byte) :
    (frameBytes kind sender body).length = body.length + 10 := by
  simp [frameBytes, frameHeader]
  omega

/-! ### Records of the wire links (11.4, 11.5) -/

/-- A request whose body is short is judged by its kind and body. -/
theorem judgeRequest_of_short {kind : Byte} {body : List Byte} (short : body.length ≤ 6) :
    judgeRequest (linkRecord kind body) = requestOf kind body :=
  judgeRequest_linkRecord kind body (by simp only [requestMost]; omega)

/-- Settles O53: the bodies one kind at a time, the records by what the framer and the check make of a record. -/
theorem frameAndRecordEncodingsAgree : Obligations.FrameAndRecordEncodingsAgree := by
  unfold Obligations.FrameAndRecordEncodingsAgree
  refine ⟨⟨fun kind sender body good tag => ⟨parseFrame_frameBytes kind sender body good tag,
      frameBytes_length kind sender body⟩, fun issue origin => ?_⟩,
    fun kind body short => ?_, fun kind body short => ?_, fun seq i g a b c w => ?_⟩
  · exact ⟨parseIssue_bytes origin, rfl,
      fun total category least most => ⟨parseOffer_body origin category least most, rfl⟩,
      fun wanted some' => ⟨parseWant_body origin some', rfl⟩,
      fun bid size bidMost least most => ⟨parseStand_body origin bidMost least most, rfl⟩,
      fun items least most good => ⟨parseTally_body origin good, bodyGood_tally issue least most⟩,
      fun level part tags sent least most good =>
        ⟨parseCovered_body part origin sent good, bodyGood_covered issue level part least most⟩⟩
  · exact ⟨feed_linkRecord requestMost kind body (by simp only [requestMost]; omega) (by decide),
      recordCheckGood_linkRecord kind body (by omega), requestKind_linkRecord kind body,
      recordBody_linkRecord kind body (by omega)⟩
  · exact ⟨feed_linkRecord modemMost kind body (by simp only [modemMost]; omega) (by decide),
      judgeModem_linkRecord kind body (by omega)⟩
  · exact ⟨judgeRequest_of_short (by simp), (judgeRequest_of_short (by simp)).trans (requestOf_read seq i g c w),
      judgeRequest_of_short (by simp), judgeRequest_of_short (by simp), judgeRequest_of_short (by simp),
      judgeRequest_of_short (by simp), judgeRequest_of_short (by simp), judgeRequest_of_short (by simp),
      judgeRequest_of_short (by simp), judgeRequest_of_short (by simp)⟩

end Sys2Proof.Machine

/-! Building and reading a fragment record agree (11.2; 02 R32, R47): the fields read from built bytes are those built in,
and the bytes built of what is read are those read. -/

namespace Sys2Proof.Machine

/-! ### Fields of more than one byte -/

theorem bytes16_word16 (a b : Byte) : bytes16 (word16 a b) = [a, b] := by
  have high : (a ++ b).extractLsb' 8 8 = a := BitVec.extractLsb'_append_eq_left
  have low : (a ++ b).extractLsb' 0 8 = b := BitVec.extractLsb'_append_eq_right
  simp only [bytes16, word16, high, low]

theorem extractLsb'_append_above {n : Nat} (x : BitVec n) (b : Byte) (k : Nat) :
    (x ++ b).extractLsb' (8 + k) 8 = x.extractLsb' k 8 := by
  apply BitVec.eq_of_getLsbD_eq
  intro i _
  simp [BitVec.getLsbD_append, Nat.add_assoc]

theorem bytes24_word24 (a b c : Byte) : bytes24 (word24 a b c) = [a, b, c] := by
  have low : (a ++ b ++ c).extractLsb' 0 8 = c := BitVec.extractLsb'_append_eq_right
  have high := extractLsb'_append_above (a ++ b) c
  have first : (a ++ b).extractLsb' 8 8 = a := BitVec.extractLsb'_append_eq_left
  have second : (a ++ b).extractLsb' 0 8 = b := BitVec.extractLsb'_append_eq_right
  simp only [bytes24, word24, low, (high 8).trans first, (high 0).trans second]

theorem bytes32_word32 (a b c d : Byte) : bytes32 (word32 a b c d) = [a, b, c, d] := by
  have low : (a ++ b ++ c ++ d).extractLsb' 0 8 = d := BitVec.extractLsb'_append_eq_right
  have high := extractLsb'_append_above (a ++ b ++ c) d
  obtain ⟨first, second, third⟩ : (a ++ b ++ c).extractLsb' 16 8 = a ∧ (a ++ b ++ c).extractLsb' 8 8 = b
      ∧ (a ++ b ++ c).extractLsb' 0 8 = c := by
    simpa [bytes24, word24] using bytes24_word24 a b c
  simp only [bytes32, word32, low, (high 16).trans first, (high 8).trans second,
    (high 0).trans third]

/-! ### The packed bytes of the record's head -/

theorem nibbles_read (a b : BitVec 4) : (a ++ b).extractLsb' 4 4 = a ∧ (a ++ b).extractLsb' 0 4 = b :=
  ⟨BitVec.extractLsb'_append_eq_left, BitVec.extractLsb'_append_eq_right⟩

theorem totalByte_read (a : BitVec 4) (b : BitVec 2) : (a ++ b ++ 0#2).extractLsb' 4 4 = a
    ∧ (a ++ b ++ 0#2).extractLsb' 2 2 = b ∧ (a ++ b ++ 0#2).extractLsb' 0 2 = 0#2 := by
  revert a b
  decide

theorem categoryByte_read (a : BitVec 3) (b : BitVec 4) : (a ++ b ++ 0#1).extractLsb' 5 3 = a
    ∧ (a ++ b ++ 0#1).extractLsb' 1 4 = b ∧ (a ++ b ++ 0#1).extractLsb' 0 1 = 0#1 := by
  revert a b
  decide

theorem nibbles_built (x : Byte) : x.extractLsb' 4 4 ++ x.extractLsb' 0 4 = x := by
  revert x
  decide

theorem totalByte_built (x : Byte) (zero : x.extractLsb' 0 2 = 0#2) :
    x.extractLsb' 4 4 ++ x.extractLsb' 2 2 ++ 0#2 = x := by
  revert x
  decide

theorem categoryByte_built (x : Byte) (zero : x.extractLsb' 0 1 = 0#1) :
    x.extractLsb' 5 3 ++ x.extractLsb' 1 4 ++ 0#1 = x := by
  revert x
  decide

theorem ofNat4_toNat {n : Nat} (small : n < 16) : (BitVec.ofNat 4 n).toNat = n := by
  rw [BitVec.toNat_ofNat]
  exact Nat.mod_eq_of_lt small

theorem Kind.ofCode_code (k : Kind) : Kind.ofCode k.code = some k := by cases k <;> rfl

theorem Kind.code_of_ofCode {c : BitVec 2} {k : Kind} (read : Kind.ofCode c = some k) : k.code = c := by
  revert c k
  decide

theorem Category.code_ofCode (c : BitVec 3) : BitVec.ofNat 3 (Category.ofCode c).code = c := by
  revert c
  decide

/-! ### The area list -/

theorem parseAreas_bytes (payload : List Byte) {areas : List Descriptor} (good : ∀ d ∈ areas, 1 ≤ d.depth ∧ d.depth ≤ 4) :
    parseAreas areas.length (areas.flatMap Descriptor.bytes ++ payload) = some (areas, payload) := by
  induction areas with
  | nil => rfl
  | cons d areas ih =>
    have rest := ih fun x held => good x (List.mem_cons_of_mem d held)
    have depth : (byte d.depth).toNat = d.depth := byte_toNat (by have := good d List.mem_cons_self; omega)
    simp only [List.flatMap_cons, Descriptor.bytes, bytes32, List.cons_append, List.nil_append, List.length_cons,
      parseAreas, rest, word32_of_bytes, depth]

theorem bytes_of_parseAreas {n : Nat} {bs payload : List Byte} {areas : List Descriptor}
    (read : parseAreas n bs = some (areas, payload)) :
    areas.length = n ∧ areas.flatMap Descriptor.bytes ++ payload = bs := by
  induction n generalizing bs areas with
  | zero =>
    obtain ⟨rfl, rfl⟩ : [] = areas ∧ bs = payload := by simpa [parseAreas] using read
    exact ⟨rfl, rfl⟩
  | succ n ih =>
    match bs, read with
    | a :: b :: c :: d :: e :: rest, read =>
      rw [parseAreas] at read
      split at read
      · next ds rest' inner =>
        obtain ⟨rfl, rfl⟩ : ⟨word32 a b c d, e.toNat⟩ :: ds = areas ∧ rest' = payload := by simpa using read
        obtain ⟨length, built⟩ := ih inner
        refine ⟨by rw [List.length_cons, length], ?_⟩
        rw [List.flatMap_cons, List.append_assoc, built]
        simp only [Descriptor.bytes, bytes32_word32, byte, BitVec.ofNat_toNat, BitVec.setWidth_eq, List.cons_append,
          List.nil_append]
      · cases read

theorem Descriptor.good_iff (d : Descriptor) : d.good = true ↔ 1 ≤ d.depth ∧ d.depth ≤ 4 := by
  simp [Descriptor.good]

/-! ### The whole record -/

theorem Fragment.bytes_length (f : Fragment) :
    f.bytes.length = 17 + 5 * f.areas.length + f.payload.length := by
  have areas := flatMap_length_of_length (f := Descriptor.bytes) (n := 5) (fun _ => rfl) f.areas
  simp only [Fragment.bytes, List.length_append, bytes16_length, bytes24_length, bytes32_length, areas, List.length_cons,
    List.length_nil]

/-- A fragment that the layout admits (02 R32). -/
structure Fragment.WellFormed (f : Fragment) : Prop where
  origin : f.issue.key.origin ≠ 0
  index : f.index < f.total
  total : f.total ≤ 16
  duration : f.duration ≠ 0
  areaCount : f.areas.length ≤ 8
  areaPlace : f.areas = [] ∨ f.index = 0
  depths : ∀ d ∈ f.areas, 1 ≤ d.depth ∧ d.depth ≤ 4
  payload : f.payload.length ≤ 48

theorem parseFragment_bytes {f : Fragment} (h : f.WellFormed) : parseFragment f.bytes = some f := by
  obtain ⟨origin, index, total, duration, areaCount, areaPlace, depths, payload⟩ := h
  have indexRead : (BitVec.ofNat 4 f.index).toNat = f.index := ofNat4_toNat (by omega)
  have totalRead : (BitVec.ofNat 4 (f.total - 1)).toNat + 1 = f.total := by rw [ofNat4_toNat] <;> omega
  have countRead : (BitVec.ofNat 4 f.areas.length).toNat = f.areas.length := ofNat4_toNat (by omega)
  have sizeRead : (byte f.payload.length).toNat = f.payload.length := byte_toNat (by omega)
  have place : f.areas.length = 0 ∨ f.index = 0 := areaPlace.imp_left List.length_eq_zero_iff.mpr
  have allGood : f.areas.all Descriptor.good = true :=
    List.all_eq_true.mpr fun d held => (Descriptor.good_iff d).mpr (depths d held)
  simp only [Fragment.bytes, bytes16, bytes24, bytes32, List.cons_append, List.nil_append,
    parseFragment, word16_of_bytes, word24_of_bytes, word32_of_bytes, nibbles_read, totalByte_read, categoryByte_read,
    Kind.ofCode_code, Category.ofCode_code, indexRead, totalRead, countRead, sizeRead, parseAreas_bytes f.payload depths]
  exact if_pos ⟨origin, index, duration, areaCount, place, allGood, payload, trivial, trivial, trivial⟩

theorem bytes_of_parseFragment {record : List Byte} {f : Fragment} (read : parseFragment record = some f) :
    f.bytes = record ∧ f.WellFormed := by
  unfold parseFragment at read
  split at read
  · next o0 o1 n0 n1 n2 ri tk ca pl t0 t1 t2 t3 d0 d1 c0 c1 rest =>
    dsimp only at read
    split at read
    · next kind areas payload kindRead areasRead =>
      split at read
      · next good =>
        obtain ⟨origin, index, duration, areaCount, place, allGood, size, sized, zeroTotal, zeroCategory⟩ := good
        obtain ⟨length, built⟩ := bytes_of_parseAreas areasRead
        obtain rfl := Option.some.inj read
        constructor
        · have totalBack : BitVec.ofNat 4 ((tk.extractLsb' 4 4).toNat + 1 - 1) = tk.extractLsb' 4 4 := by
            rw [Nat.add_sub_cancel, BitVec.ofNat_toNat, BitVec.setWidth_eq]
          have countBack : BitVec.ofNat 4 areas.length = ca.extractLsb' 1 4 := by
            rw [length, BitVec.ofNat_toNat, BitVec.setWidth_eq]
          have indexBack : BitVec.ofNat 4 (ri.extractLsb' 0 4).toNat = ri.extractLsb' 0 4 := by
            rw [BitVec.ofNat_toNat, BitVec.setWidth_eq]
          have sizeBack : byte payload.length = pl := by rw [sized]; simp [byte]
          simp only [Fragment.bytes, bytes16_word16, bytes24_word24, bytes32_word32, indexBack, nibbles_built, totalBack,
            Kind.code_of_ofCode kindRead, totalByte_built tk zeroTotal, Category.code_ofCode, countBack,
            categoryByte_built ca zeroCategory, sizeBack, List.cons_append, List.nil_append, built]
        · exact {
            origin := origin
            index := index
            total := by have := (tk.extractLsb' 4 4).isLt; dsimp only; omega
            duration := duration
            areaCount := length ▸ areaCount
            areaPlace := place.imp_left fun none' => List.length_eq_zero_iff.mp (length.trans none')
            depths := fun d held => (Descriptor.good_iff d).mp (List.all_eq_true.mp allGood d held)
            payload := sized ▸ size }
      · cases read
    · cases read
  · cases read

/-- Settles O52. -/
theorem fragmentEncodingAgrees : Obligations.FragmentEncodingAgrees := by
  unfold Obligations.FragmentEncodingAgrees
  refine ⟨fun f origin index total duration areaCount areaPlace depths payload =>
    ⟨parseFragment_bytes ⟨origin, index, total, duration, areaCount, areaPlace, depths, payload⟩, f.bytes_length⟩,
    fun record f read => ?_⟩
  obtain ⟨built, origin, index, total, duration, areaCount, areaPlace, depths, payload⟩ := bytes_of_parseFragment read
  exact ⟨built, origin, index, total, duration, areaCount, areaPlace, depths, payload⟩

end Sys2Proof.Machine

/-! The Report Unit takes a receipt or an acknowledgement (06 R110 to R112, R124, R129, R133): which tally an alert takes,
and each event read off the state it began in. -/

namespace Sys2Proof.Machine

/-! ### The place of the least rank -/

theorem leastFrom_of_first {α : Type} {rank : α → Option (Nat × Nat)} {xs : List α} {k : Nat} {x : α} {l : Nat × Nat}
    (place : xs[k]? = some x) (ranked : rank x = some l)
    (first : ∀ m y l', xs[m]? = some y → rank y = some l' → rankLess l l' = true ∨ (l' = l ∧ k ≤ m)) :
    leastFrom rank 0 xs = some (k, l) := by
  obtain ⟨⟨i, least⟩, found⟩ :=
    Option.ne_none_iff_exists'.mp (leastFrom_ne_none (n := 0) (List.mem_of_getElem? place) ranked)
  obtain ⟨⟨j, y, rfl, place', ranked'⟩, minimal⟩ := leastFrom_some found
  have notLess := minimal x (List.mem_of_getElem? place) l ranked
  obtain less | ⟨rfl, later⟩ := first j y least place' ranked'
  · rw [less] at notLess; cases notLess
  · have same : j = k := by
      by_contra apart
      have less := leastFrom_first found place (by omega) ranked
      rw [rankLess_irrefl] at less
      cases less
    rw [found, same, Nat.zero_add]

theorem State.leastEntry_of_first {s : State} {rank : Entry → Option (Nat × Nat)} {i : Nat} {l : Nat × Nat}
    (inTable : i < s.table.length) (ranked : rank (s.entry i) = some l)
    (first : ∀ j l', j < s.table.length → rank (s.entry j) = some l' → rankLess l l' = true ∨ (l' = l ∧ i ≤ j)) :
    s.leastEntry rank = some i := by
  have at' (j : Nat) (y : Entry) (place : s.table[j]? = some y) : s.entry j = y := by
    simp [State.entry, List.getD_eq_getElem?_getD, place]
  have place : s.table[i]? = some (s.entry i) := by
    rw [List.getElem?_eq_getElem inTable]
    exact congrArg some (at' i _ (List.getElem?_eq_getElem inTable)).symm
  unfold State.leastEntry
  rw [leastFrom_of_first place ranked fun m y l' placed ranked' =>
    first m l' (List.getElem?_eq_some_iff.mp placed).1 (at' m y placed ▸ ranked')]
  rfl

/-! ### The tally of an issuance and the tally that an alert takes (06 R108, R110, R112) -/

theorem State.tally_of_getElem? {s : State} {k : Nat} {x : Option Tally} (place : s.ru.tallies[k]? = some x) :
    s.tally k = x := by
  simp [State.tally, List.getD_eq_getElem?_getD, place]

theorem State.getElem?_of_tally {s : State} {k : Nat} (inPool : k < s.ru.tallies.length) :
    s.ru.tallies[k]? = some (s.tally k) := by
  rw [List.getElem?_eq_getElem inPool, State.tally_of_getElem? (List.getElem?_eq_getElem inPool)]

theorem State.findTally_some {s : State} {issue : Issue} {k : Nat} (found : s.findTally issue = some k) :
    ∃ y, s.tally k = some y ∧ y.issue = issue := by
  obtain ⟨inPool, own, -⟩ := List.findIdx?_eq_some_iff_getElem.mp found
  have tally := State.tally_of_getElem? (s := s) (List.getElem?_eq_getElem inPool)
  cases h : s.ru.tallies[k] with
  | none => rw [h] at own; cases own
  | some y => exact ⟨y, tally.trans h, by simpa [h] using own⟩

theorem State.tallyToTake_of_free {s : State} {k : Nat} (inPool : k < s.ru.tallies.length) (free : s.tally k = none)
    (before : ∀ j, j < k → s.tally j ≠ none) : s.tallyToTake = some k := by
  have found : s.ru.tallies.findIdx? (fun y => y.isNone) = some k := by
    refine List.findIdx?_eq_some_iff_getElem.mpr ⟨inPool, ?_, fun j less => ?_⟩
    · rw [← State.tally_of_getElem? (s := s) (List.getElem?_eq_getElem inPool), free]; rfl
    · rw [← State.tally_of_getElem? (s := s) (List.getElem?_eq_getElem (less.trans inPool))]
      simpa using before j less
  rw [State.tallyToTake, found]

theorem State.noneFree {s : State} (used : ∀ x ∈ s.ru.tallies, x ≠ none) :
    s.ru.tallies.findIdx? (fun y => y.isNone) = none := by
  simpa [List.findIdx?_eq_none_iff, Option.isSome_iff_ne_none] using used

theorem State.tallyToTake_of_takes {s : State} {k : Nat} (takes : s.takesTally k) : s.tallyToTake = some k := by
  obtain ⟨inPool, ⟨free, before⟩ | ⟨used, y, time, held, settled, settledAt, oldest⟩⟩ := takes
  · exact State.tallyToTake_of_free inPool free before
  · have place : s.ru.tallies[k]? = some (some y) := held ▸ State.getElem?_of_tally inPool
    rw [State.tallyToTake, State.noneFree used]
    dsimp only
    rw [leastFrom_of_first (l := (time, 0)) place (by simp [settled, settledAt])]
    · rfl
    · intro m x l placed ranked
      cases x with
      | none => cases ranked
      | some x =>
        by_cases rests : x.state = .settled
        · obtain ⟨other, otherAt, order⟩ := oldest m x (State.tally_of_getElem? placed) rests
          obtain rfl : (other, 0) = l := by simpa [rests, otherAt] using ranked
          simp only [rankLess, Prod.mk.injEq, Bool.or_eq_true, decide_eq_true_eq, and_true]
          omega
        · simp [rests] at ranked

theorem State.tallyToTake_eq_none {s : State} (busy : ∀ x ∈ s.ru.tallies, ∃ y, x = some y ∧ y.state ≠ .settled) :
    s.tallyToTake = none := by
  have used : ∀ x ∈ s.ru.tallies, x ≠ none := fun x mem => by
    obtain ⟨y, rfl, -⟩ := busy x mem
    exact Option.some_ne_none y
  rw [State.tallyToTake, State.noneFree used]
  dsimp only
  rw [leastFrom_eq_none 0 fun x mem => ?_]
  · rfl
  · obtain ⟨y, rfl, rests⟩ := busy x mem
    simp [rests]

theorem State.takeOrDefer_of_takes {s : State} {k : Nat} (takes : s.takesTally k) (issue : Issue) (precedence : Nat)
    (level : Level) : s.tallyTaken (s.takeOrDefer issue precedence level) k issue level := by
  simp only [State.takeOrDefer, State.tallyToTake_of_takes takes]
  rw [State.takeTally_eq takes.1]
  exact ⟨s.reportDelay 0, s.reportDelay_delays 0, rfl⟩

theorem State.takeOrDefer_of_busy {s : State} (busy : ∀ x ∈ s.ru.tallies, ∃ y, x = some y ∧ y.state ≠ .settled)
    (issue : Issue) (precedence : Nat) (level : Level) : (s.takeOrDefer issue precedence level).ru
      = { s.ru with deferred := s.ru.deferred ++ [⟨issue, precedence, level⟩] } := by
  simp only [State.takeOrDefer, State.tallyToTake_eq_none busy]
  rfl

theorem State.takeOrDefer_beside (s : State) (issue : Issue) (precedence : Nat) (level : Level) :
    (s.takeOrDefer issue precedence level).cs = s.cs ∧ (s.takeOrDefer issue precedence level).counters = s.counters :=
  ⟨s.takeOrDefer_frame _ _ _ .cs (by decide), s.takeOrDefer_frame _ _ _ .counters (by decide)⟩

/-! ### The receipt event (06 R110) -/

theorem Level.raise_receipt (l : Level) : l.raise .receipt = if l = .none then .receipt else l := by cases l <;> rfl

theorem State.receiptEvent_receiptTaken (s : State) (issue : Issue) (precedence : Nat) :
    s.receiptTaken (s.receiptEvent issue precedence) issue precedence := by
  refine ⟨fun k y found held => ?_, fun none' deferred => ?_, fun k none' absent takes => ?_, fun none' absent busy => ?_⟩
  · simp only [State.receiptEvent, found, State.modTally, held, Level.raise_receipt]
    rfl
  · simp only [State.receiptEvent, none', deferred, if_true]
  · simp only [State.receiptEvent, none', absent, Bool.false_eq_true, if_false]
    exact State.takeOrDefer_of_takes takes issue precedence .receipt
  · simp only [State.receiptEvent, none', absent, Bool.false_eq_true, if_false]
    exact State.takeOrDefer_of_busy busy issue precedence .receipt

/-! ### What a request to the channel reads and writes -/

/-- The state with time, settings, channel station and counters of another: all that a request to the channel reads or
writes. -/
def State.radioFrom (t s : State) : State := (((t.withTb s.tb).withSettings s.settings).withCs s.cs).withCounters s.counters

theorem State.radioFrom_of_same {s t : State} (tb : t.tb = s.tb) (settings : t.settings = s.settings) (cs : t.cs = s.cs)
    (counters : t.counters = s.counters) : t.radioFrom s = t := by
  rw [State.radioFrom, ← tb, ← settings, ← cs, ← counters]
  rfl

section RadioFrom
variable (s t : State)

theorem State.handOver_radioFrom (q : Queue) : (t.radioFrom s).handOver q = t.radioFrom (s.handOver q) := by
  unfold State.handOver
  rw [show (t.radioFrom s).cs = s.cs from rfl]
  split <;> rfl

theorem State.tryHandOver_radioFrom : (t.radioFrom s).tryHandOver = t.radioFrom s.tryHandOver := by
  unfold State.tryHandOver
  rw [show (t.radioFrom s).cs = s.cs from rfl]
  split
  · split
    · exact State.handOver_radioFrom s t _
    · rfl
  · rfl

theorem State.contend_radioFrom (q : Queue) : (t.radioFrom s).contend q = t.radioFrom (s.contend q) :=
  State.tryHandOver_radioFrom (s.drew.withCs _) t

theorem State.arbitrate_radioFrom : (t.radioFrom s).arbitrate = t.radioFrom s.arbitrate := by
  unfold State.arbitrate
  rw [show (t.radioFrom s).cs = s.cs from rfl]
  split
  · split
    · exact State.contend_radioFrom s t _
    · rfl
  · rfl

theorem State.request_radioFrom (p : Payload) : (t.radioFrom s).request p = t.radioFrom (s.request p) := by
  unfold State.request
  rw [show (t.radioFrom s).answerTo p = s.answerTo p from rfl]
  split
  · rfl
  · rfl
  · rfl
  · exact State.arbitrate_radioFrom (s.withCs _) t

end RadioFrom

/-- Where two states agree in what a request reads, the request makes the same of both. -/
theorem State.request_of_same {s t : State} (tb : t.tb = s.tb) (settings : t.settings = s.settings) (cs : t.cs = s.cs)
    (counters : t.counters = s.counters) (p : Payload) : t.request p = t.radioFrom (s.request p) := by
  conv_lhs => rw [← State.radioFrom_of_same tb settings cs counters]
  exact State.request_radioFrom s t p

theorem State.request_setTally (s : State) (k : Nat) (y : Option Tally) (p : Payload) :
    (s.setTally k y).request p = (s.setTally k y).radioFrom (s.request p) :=
  State.request_of_same (s := s) (t := s.setTally k y) rfl rfl rfl rfl p

/-! ### Our TALLY (06 R119) -/

theorem Member.item_eq (m : Member) : m.item = ⟨m.tag, if m.acked then .ack else .receipt⟩ := rfl

theorem Member.due_eq (m : Member) : m.due = if m.acked then m.covered != .ack else m.covered == .none := by
  cases acked : m.acked <;> cases covered : m.covered <;> simp [Member.due, Member.status, acked, covered, Level.rank]

theorem Tally.dueItems_eq (y : Tally) : y.dueItems = y.dueTags := by
  simp only [Tally.dueItems, Tally.dueTags, funext Member.due_eq, funext Member.item_eq]

theorem Tally.tallyItems_eq (y : Tally) : y.tallyItems = y.contribution := by
  have others : y.members.filter (fun m => m.due && m.tag != y.ownTag)
      = (y.members.filter Member.due).filter fun m => m.tag != y.ownTag := by
    rw [List.filter_filter]
    exact List.filter_congr fun m _ => Bool.and_comm ..
  rw [Tally.tallyItems, others]
  simp only [Tally.contribution, Tally.dueTags, List.filter_map, funext Member.item_eq, funext Member.due_eq]
  rfl

theorem State.requestTally_eq {s : State} {k : Nat} {y : Tally} (held : s.tally k = some y) :
    s.requestTally k = s.request (.tally y.issue y.contribution) := by
  simp only [State.requestTally, held, Tally.tallyItems_eq]

/-! ### The acknowledgement event (06 R111, R124, R129, R133) -/

theorem Tally.acknowledge_adoptTag (y : Tally) (tag : Word32) : (y.adoptTag tag).acknowledge = y.ackedAs tag := by
  have joined (own : Word32) : joinTag y.members own true = if ∃ m ∈ y.members, m.tag = own then
        y.members.map fun m => if m.tag = own then { m with acked := true } else m
      else if y.members.length < 64 then y.members ++ [⟨own, true, .none⟩] else y.members := by
    simp [joinTag]
  by_cases adopts : y.ownTag ≠ tag ∧ y.members.length < 64
  · simp only [Tally.acknowledge, Tally.adoptTag, Tally.ackedAs, if_pos adopts, joined]
    rfl
  · simp only [Tally.acknowledge, Tally.adoptTag, Tally.ackedAs, if_neg adopts, joined]

theorem Level.rank_lt_ack (l : Level) : l.rank < Level.ack.rank ↔ l ≠ .ack := by cases l <;> decide

section AckEvent
variable {s : State} {issue : Issue} {k : Nat} {y : Tally} (precedence : Nat) (found : s.findTally issue = some k)
  (held : s.tally k = some y)
include found held

theorem State.ackEvent_of_acked (acked : y.ownLevel = .ack) : s.ackEvent issue precedence = s := by
  simp only [State.ackEvent, found, held, acked, if_true]

theorem State.ackEvent_of_settled (below : y.ownLevel ≠ .ack) (settled : y.state = .settled) :
    s.ackEvent issue precedence = if (y.ackedAs s.cs.tag).reported = .ack then s.setTally k (some (y.ackedAs s.cs.tag))
      else (s.setTally k (some { y.ackedAs s.cs.tag with failures := 0 })).enterWaiting k := by
  have own : (y.ackedAs s.cs.tag).ownLevel = .ack := rfl
  have order := Level.rank_lt_ack (y.ackedAs s.cs.tag).reported
  simp only [State.ackEvent, found, held, below, if_false, settled, Tally.acknowledge_adoptTag, own, order, ite_not]

theorem State.ackEvent_of_contributing (below : y.ownLevel ≠ .ack) (contributing : y.state = .contributing) :
    s.ackEvent issue precedence = (s.setTally k (some (y.ackedAs s.cs.tag))).request
      (.tally issue (y.ackedAs s.cs.tag).contribution) := by
  obtain ⟨z, held', own⟩ := State.findTally_some found
  obtain rfl : y = z := Option.some.inj (held.symm.trans held')
  have asked := State.requestTally_eq (s.tally_setTally (State.inPool_of_tally held) (some (y.ackedAs s.cs.tag)))
  simp only [State.ackEvent, found, held, below, if_false, contributing, Tally.acknowledge_adoptTag]
  rw [asked, show (y.ackedAs s.cs.tag).issue = issue from own]

theorem State.ackEvent_of_other (below : y.ownLevel ≠ .ack) (settled : y.state ≠ .settled)
    (contributing : y.state ≠ .contributing) :
    s.ackEvent issue precedence = s.setTally k (some (y.ackedAs s.cs.tag)) := by
  simp only [State.ackEvent, found, held, below, if_false, Tally.acknowledge_adoptTag]
  split
  · next state => exact absurd state settled
  · next state => exact absurd state contributing
  all_goals rfl

end AckEvent

theorem State.ackEvent_ackTaken (s : State) (issue : Issue) (precedence : Nat) :
    s.ackTaken (s.ackEvent issue precedence) issue precedence := by
  refine ⟨fun k y found held => ?_, fun none' => ?_, fun none' deferred => ?_, fun k none' absent takes => ?_,
    fun none' absent busy => ?_⟩
  · by_cases acked : y.ownLevel = .ack
    · rw [State.ackEvent_of_acked precedence found held acked]
      simp [acked]
    by_cases settled : y.state = .settled
    · rw [State.ackEvent_of_settled precedence found held acked settled]
      by_cases reported : (y.ackedAs s.cs.tag).reported = .ack
      · simp [acked, settled, reported, State.setTally]
      · have fresh := s.tally_setTally (State.inPool_of_tally held) (some { y.ackedAs s.cs.tag with failures := 0 })
        rw [if_neg reported, State.enterWaiting_eq fresh]
        refine ⟨by simp [settled]; rfl, by simp [settled]; rfl, fun now => absurd now acked,
          fun _ rests => absurd rests (by simp [settled, reported]), fun _ _ _ =>
          ⟨s.reportDelay 0, s.reportDelay_delays 0, ?_⟩⟩
        simp only [State.setTally, State.withRu, State.drew, State.withTb, List.set_set]
        rfl
    by_cases contributing : y.state = .contributing
    · rw [State.ackEvent_of_contributing precedence found held acked contributing, State.request_setTally]
      refine ⟨by simp [acked, contributing]; rfl, by simp [acked, contributing]; rfl, fun now => absurd now acked,
        fun _ _ => rfl, fun _ now => absurd now settled⟩
    · rw [State.ackEvent_of_other precedence found held acked settled contributing]
      exact ⟨by simp [contributing]; rfl, by simp [contributing]; rfl, fun now => absurd now acked, fun _ _ => rfl,
        fun _ now => absurd now settled⟩
  · simp only [State.ackEvent, none']
    split
    · exact ⟨rfl, rfl⟩
    · exact s.takeOrDefer_beside issue precedence .ack
  · simp only [State.ackEvent, none', deferred, if_true]
    rfl
  · simp only [State.ackEvent, none', absent, Bool.false_eq_true, if_false]
    exact State.takeOrDefer_of_takes takes issue precedence .ack
  · simp only [State.ackEvent, none', absent, Bool.false_eq_true, if_false]
    exact State.takeOrDefer_of_busy busy issue precedence .ack

/-! ### The events read off another state -/

/-- The two states agree in all that RU reads: time, settings, channel, tallies, counters and location quality. -/
structure State.SameReport (s t : State) : Prop where
  tb : t.tb = s.tb
  settings : t.settings = s.settings
  cs : t.cs = s.cs
  ru : t.ru = s.ru
  counters : t.counters = s.counters
  quality : t.ar.quality = s.ar.quality

/-- The two states agree in all that RU's events write. -/
structure State.SameReported (s t : State) : Prop where
  settings : t.settings = s.settings
  cs : t.cs = s.cs
  ru : t.ru = s.ru
  counters : t.counters = s.counters
  quality : t.ar.quality = s.ar.quality

theorem State.delays_of_same {s t : State} (settings : t.settings = s.settings) (quality : t.ar.quality = s.ar.quality)
    (failures delay : Nat) : t.delays failures delay ↔ s.delays failures delay := by
  simp only [State.delays, settings, quality]

theorem State.ackTaken.congr {s s' t t' : State} {issue : Issue} {precedence : Nat} (h : s.ackTaken t issue precedence)
    (before : s.SameReport s') (after : t.SameReported t') : s'.ackTaken t' issue precedence := by
  obtain ⟨tb, settings, cs, ru, counters, quality⟩ := before
  obtain ⟨settings', cs', ru', counters', quality'⟩ := after
  have asked (p : Payload) : (s'.request p).cs = (s.request p).cs ∧ (s'.request p).counters = (s.request p).counters := by
    rw [State.request_of_same tb settings cs counters p]
    exact ⟨rfl, rfl⟩
  have split' (c : Prop) [Decidable c] (p : Payload) : (if c then s'.request p else s').cs = (if c then s.request p else s).cs
      ∧ (if c then s'.request p else s').counters = (if c then s.request p else s).counters := by
    by_cases asks : c
    · simp only [if_pos asks]; exact asked p
    · simp only [if_neg asks]; exact ⟨cs, counters⟩
  have now : s'.now = s.now := congrArg TimeBase.ms tb
  obtain ⟨held, station, deferred, taken, full⟩ := h
  simp only [State.ackTaken, State.findTally, State.tally, State.isDeferred, State.takesTally, State.tallyTaken,
    State.delays_of_same settings' quality', State.delays_of_same settings quality, ru, cs, ru', cs', counters', counters,
    now, split'] at held station deferred taken full ⊢
  exact ⟨held, station, deferred, taken, full⟩

theorem State.receiptTaken.congr {s s' t t' : State} {issue : Issue} {precedence : Nat}
    (h : s.receiptTaken t issue precedence) (before : s.SameReport s') (settings' : t'.settings = t.settings)
    (ru' : t'.ru = t.ru) (quality' : t'.ar.quality = t.ar.quality) : s'.receiptTaken t' issue precedence := by
  obtain ⟨tb, settings, cs, ru, counters, quality⟩ := before
  have now : s'.now = s.now := congrArg TimeBase.ms tb
  obtain ⟨held, deferred, taken, full⟩ := h
  simp only [State.receiptTaken, State.findTally, State.tally, State.isDeferred, State.takesTally, State.tallyTaken,
    State.delays_of_same settings' quality', ru, cs, ru', now] at held deferred taken full ⊢
  exact ⟨held, deferred, taken, full⟩

end Sys2Proof.Machine

/-! The Attention Unit (08): who is first in the pending order, what AU makes of it, the cadence phases, the keys and
their presses. -/

namespace Sys2Proof.Machine

/-! ### The first eligible entry (08 R157, R159) -/

theorem Entry.eligible_freed (generation : Byte) (threshold : Nat) : (Entry.freed generation).eligible threshold = false := by
  simp [Entry.eligible, Entry.inAttentionSet, Entry.claimable, Entry.isHeld, Entry.freed]

theorem State.firstEligible_eq_none {s : State} (none' : ∀ j, (s.entry j).eligible s.pu.threshold = false) :
    s.firstEligible = none := by
  refine State.leastEntry_eq_none fun e mem => ?_
  obtain ⟨j, inTable, rfl⟩ := List.getElem_of_mem mem
  have place : s.entry j = s.table[j] := by simp [State.entry, List.getD_eq_getElem?_getD, inTable]
  rw [← place, none' j]
  rfl

theorem rankLess_iff (a b : Nat × Nat) : rankLess a b = true ↔ a.1 < b.1 ∨ (a.1 = b.1 ∧ a.2 < b.2) := by
  simp [rankLess]

/-- An entry before another in the pending order is of the lesser rank, or of the same one at a lower index. -/
theorem State.rankLess_of_before {s : State} {i j : Nat} (before : s.before i j) (iBound : (s.entry i).precedence.getD 0 ≤ 7)
    (jBound : (s.entry j).precedence.getD 0 ≤ 7) :
    rankLess (s.entry i).pendingRank (s.entry j).pendingRank = true
      ∨ ((s.entry j).pendingRank = (s.entry i).pendingRank ∧ i ≤ j) := by
  simp only [State.before] at before
  simp only [Entry.pendingRank, rankLess_iff, Prod.mk.injEq]
  omega

/-- The entry of least pending rank among those that pass a test. -/
theorem State.leastEntry_of_before {s : State} {p : Entry → Bool} {i : Nat} (inTable : i < s.table.length)
    (passes : p (s.entry i) = true) (bounded : ∀ e ∈ s.table, e.precedence.getD 0 ≤ 7)
    (before : ∀ j, j ≠ i → p (s.entry j) = true → s.before i j) :
    s.leastEntry (fun e => if p e then some e.pendingRank else none) = some i := by
  refine State.leastEntry_of_first (l := (s.entry i).pendingRank) inTable (if_pos passes) fun j l within ranked => ?_
  by_cases same : j = i
  · subst same
    obtain rfl : (s.entry j).pendingRank = l := by simpa [passes] using ranked
    exact .inr ⟨rfl, le_refl j⟩
  · by_cases other : p (s.entry j) = true
    · obtain rfl : (s.entry j).pendingRank = l := by simpa [other] using ranked
      exact State.rankLess_of_before (before j same other) (bounded _ (s.mem_table_entry inTable))
        (bounded _ (s.mem_table_entry within))
    · simp [other] at ranked

theorem State.firstEligible_of_firstToSound {s : State} {i : Nat} (first : s.firstToSound i)
    (bounded : ∀ e ∈ s.table, e.precedence.getD 0 ≤ 7) : s.firstEligible = some i := by
  obtain ⟨inTable, eligible, before⟩ := first
  exact State.leastEntry_of_before (p := fun e => e.eligible s.pu.threshold) inTable eligible bounded before

/-! ### The cadence of a profile (08 R161, R162) -/

theorem Settings.enabled_iff (c : Settings) (profile : Nat) (o : Output) :
    c.enabled profile o = true ↔ c.enables profile o := by
  simp [Settings.enabled, Settings.enables, and_assoc]

theorem Settings.counted_iff (c : Settings) (profile : Nat) (o : Output) :
    c.counted profile o = true ↔ c.enables profile o ∧ c.cadenceValue profile o 3 ≠ 0 := by
  simp [Settings.counted, Settings.enabled_iff]

theorem Settings.silent_eq_false_iff (c : Settings) (profile : Nat) :
    c.silent profile = false ↔ c.enables profile .tone ∨ c.enables profile .buzz := by
  rw [← Settings.enabled_iff, ← Settings.enabled_iff, Settings.silent]
  cases c.enabled profile .tone <;> cases c.enabled profile .buzz <;> decide

theorem State.startOutput_eq (s : State) (profile : Nat) (o : Output) : s.startOutput profile o =
    if s.settings.cadenceValue profile o 0 = 0 ∨ s.settings.cadenceValue profile o 1 = 0
        ∨ s.settings.cadenceValue profile o 2 = 0 then ⟨.disabled, 0, none⟩
      else ⟨.on, 0, some (s.now + s.settings.cadenceValue profile o 1 * s.settings.cadenceValue profile o 0)⟩ := by
  have off : ¬ s.settings.enabled profile o = true ↔ s.settings.cadenceValue profile o 0 = 0
      ∨ s.settings.cadenceValue profile o 1 = 0 ∨ s.settings.cadenceValue profile o 2 = 0 := by
    rw [Settings.enabled_iff, Settings.enables]
    tauto
  rw [State.startOutput, ← ite_not]
  exact if_congr off rfl rfl

theorem State.becomeOwner_eq (s : State) (i : Nat) : s.becomeOwner i = s.soundsFrom i := by
  simp only [State.becomeOwner, State.startCadence, State.startOutput_eq]
  rfl

theorem State.isOwner_iff (s : State) (i : Nat) : s.isOwner i = true
    ↔ ∃ o, s.au.owner = some o ∧ o.index = i ∧ o.generation = (s.entry i).generation := by
  unfold State.isOwner
  cases s.au.owner <;> simp

/-! ### AU is told (08 R160, R163) -/

/-- Enough rounds make the same of a state as one more. -/
theorem State.reevaluate_succ (n : Nat) {s : State} (few : s.table.countP (·.eligible s.pu.threshold) ≤ n) :
    State.reevaluate (n + 1) s = State.reevaluate n s := by
  induction n generalizing s with
  | zero =>
    have none' : s.firstEligible = none := State.firstEligible_eq_none fun j => by
      by_cases inTable : j < s.table.length
      · simpa using List.countP_eq_zero.mp (Nat.le_zero.mp few) _ (s.mem_table_entry inTable)
      · rw [s.entry_of_length_le (Nat.le_of_not_lt inTable), Entry.eligible_freed]
    simp only [State.reevaluate, none']
  | succ n ih =>
    rw [State.reevaluate]
    conv_rhs => rw [State.reevaluate]
    cases first : s.firstEligible with
    | none => rfl
    | some i =>
      dsimp only
      have fewer : ((s.becomeOwner i).setSounded i).table.countP (·.eligible s.pu.threshold) ≤ n :=
        Nat.le_of_lt_succ (Nat.lt_of_lt_of_le (State.setSounded_countP first) few)
      rw [ih fewer]

section Attend
variable {s : State} {i : Nat} (first : s.firstToSound i) (bounded : ∀ e ∈ s.table, e.precedence.getD 0 ≤ 7)

theorem State.attend_of_quiet (quiet : ∀ j, (s.entry j).eligible s.pu.threshold = false) :
    s.attend = s.withAu { s.au with owner := none, cadence := none } := by
  rw [State.attend, State.reevaluate, State.firstEligible_eq_none quiet]

include first bounded

theorem State.attend_of_owns (owns : s.isOwner i = true) : s.attend = s := by
  rw [State.attend, State.reevaluate, State.firstEligible_of_firstToSound first bounded]
  exact if_pos owns

theorem State.attend_of_sounds (other : ¬ s.isOwner i = true)
    (sounds : s.settings.enables (s.mappedProfile i) .tone ∨ s.settings.enables (s.mappedProfile i) .buzz) :
    s.attend = s.soundsFrom i := by
  have loud : s.settings.silent (s.profileFor i) = false := (Settings.silent_eq_false_iff _ _).mpr sounds
  rw [State.attend, State.reevaluate, State.firstEligible_of_firstToSound first bounded]
  simp only [other, loud, Bool.false_eq_true, if_false]
  exact s.becomeOwner_eq i

theorem State.attend_of_silent (other : ¬ s.isOwner i = true)
    (silent : ¬ (s.settings.enables (s.mappedProfile i) .tone ∨ s.settings.enables (s.mappedProfile i) .buzz)) :
    s.attend = ((s.soundsFrom i).setEntry i { s.entry i with sounded := true }).attend := by
  have none' : s.settings.silent (s.profileFor i) = true :=
    Bool.not_eq_false _ ▸ mt (Settings.silent_eq_false_iff _ _).mp silent
  have found := State.firstEligible_of_firstToSound first bounded
  have next : (s.becomeOwner i).setSounded i = (s.soundsFrom i).setEntry i { s.entry i with sounded := true } := by
    rw [State.becomeOwner_eq]; rfl
  have length : ((s.soundsFrom i).setEntry i { s.entry i with sounded := true }).table.length = s.table.length :=
    List.length_set
  have fewer : ((s.soundsFrom i).setEntry i { s.entry i with sounded := true }).table.countP
      (·.eligible s.pu.threshold) ≤ s.table.length :=
    length ▸ List.countP_le_length
  rw [State.attend, State.reevaluate, found]
  simp only [other, none', if_true, if_false, Bool.false_eq_true]
  rw [next, State.attend, length, State.reevaluate_succ _ fewer]

end Attend

/-! ### The pins (08 R164) -/

theorem State.outputActive_iff (s : State) (o : Output) :
    s.outputActive o = true ↔ ∃ c, s.au.cadence = some c ∧ (c.output o).phase = .on := by
  unfold State.outputActive
  cases s.au.cadence <;> simp

theorem State.pin_of_undriven {s : State} {o : Output} (undriven : s.started = false ∨ s.settings.mode o = 0) :
    s.pin o = .floating := by
  unfold State.pin
  obtain starting | off := undriven
  · simp [starting]
  · rw [off]; split <;> rfl

theorem State.pin_of_drive {s : State} {o : Output} (started : s.started = true) (drive : s.settings.mode o = 1) :
    s.pin o = if s.outputActive o = true then .high else .low := by
  unfold State.pin
  rw [started, drive]
  cases s.outputActive o <;> rfl

theorem State.pin_of_sink {s : State} {o : Output} (started : s.started = true) (sink : s.settings.mode o = 2) :
    s.pin o = if s.outputActive o = true then .low else .floating := by
  unfold State.pin
  rw [started, sink]
  cases s.outputActive o <;> rfl

/-! ### A phase ends (08 R163) -/

theorem Cadence.output_setOutput (c : Cadence) (o : Output) (x : OutputState) : (c.setOutput o x).output o = x := by
  cases o <;> rfl

theorem Cadence.setOutput_profile (c : Cadence) (o : Output) (x : OutputState) : (c.setOutput o x).profile = c.profile := by
  cases o <;> rfl

/-- The other of the two outputs. -/
def otherOutput : Output → Output
  | .tone => .buzz
  | .buzz => .tone

theorem Cadence.output_setOutput_other (c : Cadence) (o : Output) (x : OutputState) :
    (c.setOutput o x).output (otherOutput o) = c.output (otherOutput o) := by
  cases o <;> rfl

/-- With a counted output DONE, the cadence is done where the other one is DONE or not counted. -/
theorem State.cadenceDone_iff {s : State} {c : Cadence} {o : Output} (counted : s.settings.counted c.profile o = true)
    (done : (c.output o).phase = .done) :
    s.cadenceDone c = true ↔ ¬ s.settings.counted c.profile (otherOutput o) = true ∨ (c.output (otherOutput o)).phase = .done := by
  cases o <;> simp_all [State.cadenceDone, Cadence.output, otherOutput]

section PhaseEnds
variable {s : State} {o : Output} {c : Cadence}

theorem State.phaseEnds_of_running {x : OutputState} (next : s.nextPhase c.profile o (c.output o) = x)
    (running : x.phase ≠ .done) :
    State.phaseEnds o c s = s.withAu { s.au with cadence := some (c.setOutput o x) } := by
  simp only [State.phaseEnds, next, Cadence.output_setOutput, running, and_false, if_false]

theorem State.phaseEnds_of_done {x : OutputState} (next : s.nextPhase c.profile o (c.output o) = x)
    (counted : s.settings.counted c.profile o = true) (done : x.phase = .done) :
    State.phaseEnds o c s
      = if ¬ s.settings.counted c.profile (otherOutput o) = true ∨ (c.output (otherOutput o)).phase = .done then
          (s.withAu { s.au with cadence := some (c.setOutput o x) }).completeCadence
        else s.withAu { s.au with cadence := some (c.setOutput o x) } := by
  have ends := State.cadenceDone_iff (s := s) (c := c.setOutput o x) (o := o)
    (by rwa [Cadence.setOutput_profile]) (by rwa [Cadence.output_setOutput])
  rw [Cadence.setOutput_profile, Cadence.output_setOutput_other] at ends
  simp only [State.phaseEnds, next, Cadence.output_setOutput, done, and_true, ends]

theorem exec_cadencePhaseEnd {tEnd : Nat} (cadence : s.au.cadence = some c) (ends : (c.output o).phaseEnd = some tEnd)
    (counted : tEnd ≤ lastMs) : exec (.cadencePhaseEnd o) s = .next (State.phaseEnds o c (s.runTo tEnd)) := by
  simp only [exec, execCadencePhaseEnd, cadence, ends, s.runsOut_eq _ counted]

end PhaseEnds

theorem burst_eq (n : Nat) : (if n < 255 then n + 1 else 255) = min 255 (n + 1) := by
  split <;> omega

end Sys2Proof.Machine

/-! The cadence phases (08 R159 to R164). -/

namespace Sys2Proof.Machine

theorem State.attend_withAu_of_others {s : State} {i : Nat} (inTable : i < s.table.length)
    (others : ∀ j, j ≠ i → (s.entry j).eligible s.pu.threshold = false) (x : Attention) :
    ((s.setEntry i { s.entry i with sounded := true }).withAu x).attend
      = (s.setEntry i { s.entry i with sounded := true }).withAu { x with owner := none, cadence := none } := by
  refine State.attend_of_quiet (s := (s.setEntry i { s.entry i with sounded := true }).withAu x) fun j => ?_
  change ((s.setEntry i { s.entry i with sounded := true }).entry j).eligible s.pu.threshold = false
  by_cases same : j = i
  · rw [same, State.entry_setEntry inTable]
    simp [Entry.eligible]
  · rw [State.entry_setEntry_ne _ same]
    exact others j same

/-- The owner's sounded flag is set and another entry is first: it becomes owner. -/
theorem State.attend_setSounded_of_first {s : State} {i j : Nat} (inTable : i < s.table.length) {x : Attention} {o : Owner}
    (owner : x.owner = some o) (own : o.index = i)
    (first : (s.setEntry i { s.entry i with sounded := true }).firstToSound j)
    (bounded : ∀ e ∈ s.table, e.precedence.getD 0 ≤ 7) {p : Nat}
    (profile : (s.setEntry i { s.entry i with sounded := true }).mappedProfile j = p)
    (sounds : s.settings.enables p .tone ∨ s.settings.enables p .buzz) :
    ((s.setEntry i { s.entry i with sounded := true }).withAu x).attend
      = ((s.setEntry i { s.entry i with sounded := true }).withAu x).soundsFrom j := by
  have apart : j ≠ i := by
    rintro rfl
    have eligible := first.2.1
    rw [State.entry_setEntry inTable] at eligible
    simp [Entry.eligible] at eligible
  subst profile
  refine State.attend_of_sounds (s := (s.setEntry i { s.entry i with sounded := true }).withAu x) first
    (fun e mem => ?_) (fun owns => ?_) sounds
  · obtain held | rfl := List.mem_or_eq_of_mem_set mem
    · exact bounded e held
    · exact bounded (s.entry i) (s.mem_table_entry inTable)
  · obtain ⟨o', owner', at', -⟩ := (State.isOwner_iff _ j).mp owns
    obtain rfl : o = o' := Option.some.inj (owner.symm.trans owner')
    exact apart (at'.symm.trans own)

/-- Settles O50. -/
theorem cadencePhasesRun : Obligations.CadencePhasesRun := by
  unfold Obligations.CadencePhasesRun
  refine ⟨?_, fun s => ⟨State.attend_of_quiet, fun i first bounded => ?_⟩, fun s o => ?_⟩
  · intro s o c tEnd cadence ends inTime at' value run with' bursts counted other
    have ran : run = .next (State.phaseEnds o c at') := exec_cadencePhaseEnd cadence ends inTime
    have countedIff (p : Output) : at'.settings.counted c.profile p = true ↔ counted p := Settings.counted_iff _ _ p
    have otherEq : other = otherOutput o := by cases o <;> rfl
    have doneNext (off : (c.output o).phase = .off) (isCounted : counted o) (last : bursts = value 3) :
        at'.nextPhase c.profile o (c.output o) = ⟨.done, bursts, none⟩ := by
      simp only [State.nextPhase, off, burst_eq]
      exact if_pos ⟨(countedIff o).mpr isCounted, last⟩
    have finish (off : (c.output o).phase = .off) (isCounted : counted o) (last : bursts = value 3) :=
      State.phaseEnds_of_done (doneNext off isCounted last) ((countedIff o).mpr isCounted) rfl
    refine ⟨fun on => ?_, fun off stays => ?_, fun off isCounted last otherCounted otherRuns => ?_,
      fun owner off isCounted last otherEnded isOwner inTable => ?_⟩
    · have next : at'.nextPhase c.profile o (c.output o)
          = ⟨.off, (c.output o).bursts, some (at'.now + value 2 * value 0)⟩ := by
        simp only [State.nextPhase, on]; rfl
      exact ran.trans (congrArg Host.Outcome.next (State.phaseEnds_of_running next nofun))
    · have next : at'.nextPhase c.profile o (c.output o) = ⟨.on, bursts, some (at'.now + value 1 * value 0)⟩ := by
        simp only [State.nextPhase, off, burst_eq]
        exact if_neg fun both => stays ⟨(countedIff o).mp both.1, both.2⟩
      exact ran.trans (congrArg Host.Outcome.next (State.phaseEnds_of_running next nofun))
    · rw [otherEq] at otherCounted otherRuns
      refine ran.trans (congrArg Host.Outcome.next ((finish off isCounted last).trans (if_neg ?_)))
      rintro (uncounted | ended)
      · exact uncounted ((countedIff _).mpr otherCounted)
      · exact otherRuns ended
    · intro sounded
      have complete : run = .next (sounded.withAu
          { s.au with cadence := some (c.setOutput o ⟨.done, bursts, none⟩) }).attend := by
        rw [ran, finish off isCounted last, if_pos]
        · rw [State.completeCadence, show (at'.withAu { at'.au with
              cadence := some (c.setOutput o ⟨.done, bursts, none⟩) }).au.owner = some owner from isOwner]
          rfl
        · rw [otherEq] at otherEnded
          exact otherEnded.imp_left fun uncounted isCounted => uncounted ((countedIff _).mp isCounted)
      refine ⟨complete, fun others => ?_, fun j first bounded sounds => ?_⟩
      · rw [complete]
        exact congrArg Host.Outcome.next (State.attend_withAu_of_others (s := at') inTable others _)
      · rw [complete]
        exact congrArg Host.Outcome.next
          (State.attend_setSounded_of_first (s := at') inTable isOwner rfl first bounded rfl sounds)
  · intro owns sounds
    have ownsIff : s.isOwner i = true ↔ owns := s.isOwner_iff i
    exact ⟨fun own => State.attend_of_owns first bounded (ownsIff.mpr own),
      fun other loud => State.attend_of_sounds first bounded (mt ownsIff.mp other) loud,
      fun other quiet => State.attend_of_silent first bounded (mt ownsIff.mp other) quiet⟩
  · intro mode active
    have modeEq : mode = s.settings.mode o := by cases o <;> rfl
    have activeIff : s.outputActive o = true ↔ active := s.outputActive_iff o
    rw [modeEq]
    refine ⟨State.pin_of_undriven, fun started drive => ?_, fun started sink => ?_⟩
    · rw [State.pin_of_drive started drive]
      exact ⟨fun now => if_pos (activeIff.mpr now), fun now => if_neg (mt activeIff.mp now)⟩
    · rw [State.pin_of_sink started sink]
      exact ⟨fun now => if_pos (activeIff.mpr now), fun now => if_neg (mt activeIff.mp now)⟩

end Sys2Proof.Machine

/-! An entry is acknowledged (01 R22), and the keys are read (08 R165 to R168). -/

namespace Sys2Proof.Machine

/-! ### A closure and an acknowledgement (01 R16, R22) -/

section Closure
variable {s : State} {i : Nat}

theorem State.emptySlot_of_slot {k : Nat} (slot : (s.entry i).claimSlot = some k) :
    s.emptySlot i = s.withPu { s.pu with slots := s.pu.slots.set k none } := by
  simp only [State.emptySlot, slot]

theorem State.emptySlot_of_none (slot : (s.entry i).claimSlot = none) : s.emptySlot i = s := by
  simp only [State.emptySlot, slot]

theorem State.emptySlot_pu : (s.emptySlot i).pu.notices = s.pu.notices ∧ (s.emptySlot i).pu.threshold = s.pu.threshold
    ∧ (s.emptySlot i).pu.optout = s.pu.optout := by
  unfold State.emptySlot
  split <;> exact ⟨rfl, rfl, rfl⟩

theorem State.closeEntry_pu (reason : Reason) : (s.closeEntry i reason).pu = (s.emptySlot i).pu := rfl

theorem State.closeEntry_entry_self (inTable : i < s.table.length) (reason : Reason) :
    (s.closeEntry i reason).entry i = (s.entry i).close reason s.uptime := by
  have stays : i < ((s.emptySlot i).leaveWaiting i).table.length := by
    rw [show ((s.emptySlot i).leaveWaiting i).table = s.table from s.emptySlot_table i]
    exact inTable
  refine (State.entry_setEntry stays _).trans ?_
  rw [State.leaveWaiting_entry, State.emptySlot_entry]

theorem State.closeEntry_length (reason : Reason) : (s.closeEntry i reason).table.length = s.table.length := by
  refine List.length_set.trans ?_
  exact congrArg List.length (s.emptySlot_table i)

/-- The entry as an acknowledgement leaves it, closed at an uptime. -/
def Entry.acknowledgedAt (e : Entry) (time : Nat) : Entry :=
  { e.close .acknowledged time with heldWhenAcknowledged := e.isHeld }

/-- The state once the entry is closed by an acknowledgement, before RU is told. -/
def State.acknowledged (s : State) (i : Nat) : State :=
  (s.closeEntry i .acknowledged).modEntry i fun e => { e with heldWhenAcknowledged := (s.entry i).isHeld }

theorem State.acknowledge_eq {issue : Issue} (issued : (s.entry i).issue = some issue) :
    s.acknowledge i = (s.acknowledged i).ackEvent issue ((s.entry i).precedence.getD 0) := by
  simp only [State.acknowledge, issued, State.acknowledged]

theorem State.acknowledge_of_unissued (unissued : (s.entry i).issue = none) : s.acknowledge i = s.acknowledged i := by
  simp only [State.acknowledge, unissued, State.acknowledged]

theorem State.acknowledged_frame (s : State) (i : Nat) : s.onlyChanges [.table, .ar, .pu] (s.acknowledged i) := by
  simp [State.acknowledged]

/-- Telling RU leaves all but time, channel, RU and counters as the closure leaves it. -/
theorem State.acknowledge_after (s : State) (i : Nat) :
    (s.acknowledged i).onlyChanges [.tb, .cs, .ru, .counters] (s.acknowledge i) := by
  cases issued : (s.entry i).issue with
  | none => rw [State.acknowledge_of_unissued issued]; exact .refl _ _
  | some issue => rw [State.acknowledge_eq issued]; exact State.ackEvent_frame _ _ _

theorem State.acknowledge_entry_self (inTable : i < s.table.length) :
    (s.acknowledge i).entry i = (s.entry i).acknowledgedAt s.uptime := by
  rw [State.entry_congr (s.acknowledge_after i .table (by decide))]
  refine (State.entry_setEntry (by rwa [State.closeEntry_length]) _).trans ?_
  rw [State.closeEntry_entry_self inTable]
  rfl

theorem State.acknowledge_entry_ne {j : Nat} (other : j ≠ i) : (s.acknowledge i).entry j = s.entry j := by
  rw [State.entry_congr (s.acknowledge_after i .table (by decide))]
  exact (State.entry_setEntry_ne _ other _).trans (State.closeEntry_entry_ne _ other _)

theorem State.acknowledge_pu (s : State) (i : Nat) : (s.acknowledge i).pu = (s.emptySlot i).pu :=
  s.acknowledge_after i .pu (by decide)

theorem State.acknowledge_flags (s : State) (i : Nat) : (s.acknowledge i).flags = s.flags :=
  (s.acknowledge_after i .flags (by decide)).trans (s.acknowledged_frame i .flags (by decide))

theorem State.acknowledge_ackTaken {issue : Issue} (issued : (s.entry i).issue = some issue) :
    s.ackTaken (s.acknowledge i) issue ((s.entry i).precedence.getD 0) := by
  have quality : (s.acknowledged i).ar.quality = s.ar.quality := by
    change (s.emptySlot i).ar.quality = _
    rw [State.emptySlot_ar]
  have frame := s.acknowledged_frame i
  rw [State.acknowledge_eq issued]
  exact (State.ackEvent_ackTaken (s.acknowledged i) issue _).congr
    ⟨(frame .tb (by decide)).symm, (frame .settings (by decide)).symm, (frame .cs (by decide)).symm,
      (frame .ru (by decide)).symm, (frame .counters (by decide)).symm, quality.symm⟩ ⟨rfl, rfl, rfl, rfl, rfl⟩

theorem State.onlyChanges.sameReported {t : State} {ps : List Part} (h : s.onlyChanges ps t)
    (unread : .settings ∉ ps ∧ .cs ∉ ps ∧ .ru ∉ ps ∧ .counters ∉ ps ∧ .ar ∉ ps) : s.SameReported t := by
  obtain ⟨settings, cs, ru, counters, ar⟩ := unread
  exact ⟨h .settings settings, h .cs cs, h .ru ru, h .counters counters, congrArg Resolver.quality (h .ar ar)⟩

theorem State.SameReport.refl (s : State) : s.SameReport s := ⟨rfl, rfl, rfl, rfl, rfl, rfl⟩

end Closure

theorem Entry.close_ineligible (e : Entry) (reason : Reason) (time threshold : Nat) :
    (e.close reason time).eligible threshold = false := by
  simp [Entry.eligible, Entry.inAttentionSet, Entry.claimable, Entry.isHeld, Entry.close]

theorem Entry.acknowledgedAt_ineligible (e : Entry) (time threshold : Nat) :
    (e.acknowledgedAt time).eligible threshold = false := e.close_ineligible .acknowledged time threshold

/-! ### A notice of an entry the host holds (07 R151) -/

/-- The notice queue with a notice posted where `held`. -/
theorem State.post_pu (s : State) (n : Notice) (held : Bool) :
    (if held then s.post n else s).pu = { s.pu with
      notices := if held = true ∧ s.pu.notices.length < 16 then s.pu.notices ++ [n] else s.pu.notices } := by
  cases held with
  | false => simp
  | true => simp only [State.post, if_true, true_and]; split <;> rfl

theorem State.post_flags (s : State) (n : Notice) (held : Bool) :
    (if held then s.post n else s).flags
      = if held = true ∧ 16 ≤ s.pu.notices.length then { s.flags with noticeLost := true } else s.flags := by
  cases held with
  | false => simp
  | true =>
    simp only [State.post, if_true, true_and]
    by_cases room : s.pu.notices.length < 16
    · rw [if_pos room, if_neg (by omega)]; rfl
    · rw [if_neg room, if_pos (by omega)]; rfl

theorem State.post_frame_if (s : State) (n : Notice) (held : Bool) :
    s.onlyChanges [.pu, .flags] (if held then s.post n else s) := by
  cases held with
  | false => exact .refl _ _
  | true => exact s.post_frame n

end Sys2Proof.Machine

/-! The keys (08 R165 to R168): the level of an input, what a press of ACK and of SILENCE makes. -/

namespace Sys2Proof.Machine

/-! ### The level of a key input (08 R165, R166) -/

theorem exec_keyEdge_of_starting {s : State} (starting : s.started = false) (key : KeyName) (drive : Drive) :
    exec (.keyEdge key drive) s = .next (s.setKey key { s.au.key key with drive := drive }) := by
  simp only [exec, execKeyEdge, starting, Bool.false_eq_true, if_false]

theorem exec_keyEdge_of_started {s : State} (started : s.started = true) (key : KeyName) (drive : Drive) :
    exec (.keyEdge key drive) s = .next ((s.afterLevel key drive).setKey key { s.au.key key with
      drive := drive, levelHigh := s.keyLevel key drive
      timer := if s.keyLevel key drive = (s.au.key key).levelHigh then (s.au.key key).timer else some (s.now + 20) }) := by
  simp only [exec, execKeyEdge, started, if_true]

/-- A key input that is driven, or has a pull, is at the level that gives. -/
theorem State.keyLevel_of_fixed {s : State} {key : KeyName} {drive : Drive} {high : Bool}
    (fixed : (drive = .high ∧ high = true) ∨ (drive = .low ∧ high = false)
      ∨ (drive = .nothing ∧ s.settings.pull key = 1 ∧ high = true)
      ∨ (drive = .nothing ∧ s.settings.pull key = 2 ∧ high = false)) :
    s.keyLevel key drive = high ∧ s.afterLevel key drive = s := by
  obtain ⟨rfl, rfl⟩ | ⟨rfl, rfl⟩ | ⟨rfl, pull, rfl⟩ | ⟨rfl, pull, rfl⟩ := fixed
  · exact ⟨rfl, rfl⟩
  · exact ⟨rfl, rfl⟩
  · simp [State.keyLevel, State.afterLevel, State.keyFloats, pull]
  · simp [State.keyLevel, State.afterLevel, State.keyFloats, pull]

theorem exec_debounceEnd {s : State} {key : KeyName} {tEnd : Nat} (runs : (s.au.key key).timer = some tEnd)
    (counted : tEnd ≤ lastMs) : exec (.debounceEnd key) s = .next (State.debounced key (s.runTo tEnd)) := by
  simp only [exec, execDebounceEnd, runs, s.runsOut_eq _ counted]

/-! ### The press of ACK (08 R167) -/

/-- The state once the owner is acknowledged and its notice posted, before AU is told. -/
def State.ackPressed (s : State) (o : Owner) : State :=
  if (s.entry o.index).isHeld then (s.acknowledge o.index).post ⟨.keyAck, s.handle o.index, none⟩
  else s.acknowledge o.index

theorem State.ackPress_of_owner {s : State} {o : Owner} (owner : s.au.owner = some o) :
    s.ackPress = (s.ackPressed o).attend := by
  simp only [State.ackPress, owner, State.ackPressed]

section AckPressed
variable {s : State} {o : Owner} (inTable : o.index < s.table.length)

theorem State.ackPressed_frame (s : State) (o : Owner) :
    (s.acknowledge o.index).onlyChanges [.pu, .flags] (s.ackPressed o) :=
  State.post_frame_if _ _ (s.entry o.index).isHeld

theorem State.ackPressed_pu (s : State) (o : Owner) : (s.ackPressed o).pu = { (s.emptySlot o.index).pu with
    notices := if (s.entry o.index).isHeld = true ∧ s.pu.notices.length < 16 then
      s.pu.notices ++ [⟨.keyAck, s.handle o.index, none⟩] else s.pu.notices } := by
  have notices : (s.acknowledge o.index).pu.notices = s.pu.notices := by
    rw [State.acknowledge_pu, State.emptySlot_pu.1]
  refine (State.post_pu _ _ (s.entry o.index).isHeld).trans ?_
  rw [notices, State.acknowledge_pu]

theorem State.ackPressed_flags (s : State) (o : Owner) : (s.ackPressed o).flags
    = if (s.entry o.index).isHeld = true ∧ 16 ≤ s.pu.notices.length then { s.flags with noticeLost := true }
      else s.flags := by
  have notices : (s.acknowledge o.index).pu.notices = s.pu.notices := by
    rw [State.acknowledge_pu, State.emptySlot_pu.1]
  refine (State.post_flags _ _ (s.entry o.index).isHeld).trans ?_
  rw [notices, State.acknowledge_flags]

include inTable

theorem State.ackPressed_entry_self : (s.ackPressed o).entry o.index = (s.entry o.index).acknowledgedAt s.uptime := by
  rw [State.entry_congr (s.ackPressed_frame o .table (by decide)), State.acknowledge_entry_self inTable]

/-- AU is told of an acknowledged owner: its entry is no more in the attention set. -/
theorem State.ackPressed_attend_entry_self :
    (s.ackPressed o).attend.entry o.index = (s.entry o.index).acknowledgedAt s.uptime
      ∧ ∀ p, (s.ackPressed o).attend.au.owner = some p → p.index ≠ o.index := by
  have entry := State.ackPressed_entry_self (s := s) (o := o) inTable
  have quiet : ((s.ackPressed o).entry o.index).eligible (s.ackPressed o).pu.threshold = false := by
    rw [entry, Entry.acknowledgedAt_ineligible]
  obtain ⟨same, gone⟩ := State.reevaluate_of_ineligible ((s.ackPressed o).table.length + 1) quiet
  exact ⟨same.trans entry, gone⟩

omit inTable in
theorem State.ackPressed_attend_entry_ne {j : Nat} (other : j ≠ o.index) :
    ((s.ackPressed o).attend.entry j).soundsLike (s.entry j) := by
  have same : (s.ackPressed o).entry j = s.entry j := by
    rw [State.entry_congr (s.ackPressed_frame o .table (by decide)), State.acknowledge_entry_ne other]
  exact same ▸ State.reevaluate_soundsLike _ (s.ackPressed o) j

omit inTable in
theorem State.ackPressed_ackTaken {issue : Issue} (issued : (s.entry o.index).issue = some issue) :
    s.ackTaken (s.ackPressed o).attend issue ((s.entry o.index).precedence.getD 0) := by
  have told := (s.ackPressed_frame o).sameReported (by decide)
  have attended := (s.ackPressed o).attend_frame.sameReported (by decide)
  exact (State.acknowledge_ackTaken issued).congr (.refl s)
    ⟨attended.settings.trans told.settings, attended.cs.trans told.cs, attended.ru.trans told.ru,
      attended.counters.trans told.counters, attended.quality.trans told.quality⟩

end AckPressed

/-! ### The press of SILENCE (08 R168) -/

/-- An entry with its sounded flag set where it is eligible. -/
def Entry.silenced (threshold : Nat) (e : Entry) : Entry := { e with sounded := e.sounded || e.eligible threshold }

theorem Entry.silenced_ineligible (e : Entry) (threshold : Nat) : (e.silenced threshold).eligible threshold = false := by
  change (e.inAttentionSet threshold && !(e.sounded || (e.inAttentionSet threshold && !e.sounded))) = false
  cases e.inAttentionSet threshold <;> cases e.sounded <;> rfl

theorem State.silenceAll_table (s : State) : s.silenceAll.table = s.table.map (Entry.silenced s.pu.threshold) := by
  refine List.map_congr_left fun e _ => ?_
  cases eligible : e.eligible s.pu.threshold with
  | true => simp [Entry.silenced, eligible]
  | false => simp [Entry.silenced, eligible]

theorem State.silenceAll_entry (s : State) (i : Nat) : s.silenceAll.entry i = (s.entry i).silenced s.pu.threshold := by
  have free : (Entry.freed 0).silenced s.pu.threshold = Entry.freed 0 := by
    rw [Entry.silenced, Entry.eligible_freed]; rfl
  rw [← State.entry_mapTable s free]
  exact State.entry_congr s.silenceAll_table i

theorem State.silenceAll_quiet (s : State) (i : Nat) : (s.silenceAll.entry i).eligible s.pu.threshold = false := by
  rw [State.silenceAll_entry, Entry.silenced_ineligible]

theorem State.silencePress_of_owner {s : State} {o : Owner} (owner : s.au.owner = some o) :
    let silenced := if (s.entry o.index).isHeld then s.silenceAll.post ⟨.keySilence, s.handle o.index, none⟩ else s.silenceAll
    s.silencePress = silenced.withAu { silenced.au with owner := none, cadence := none } := by
  intro silenced
  have held : (s.silenceAll.entry o.index).isHeld = (s.entry o.index).isHeld := by rw [State.silenceAll_entry]; rfl
  have handle : s.silenceAll.handle o.index = s.handle o.index := by
    rw [State.handle, State.silenceAll_entry]; rfl
  have pressed : s.silencePress = silenced.attend := by
    simp only [State.silencePress, owner, State.postIfHeld, held, handle, silenced]
  have frame : s.silenceAll.onlyChanges [.pu, .flags] silenced := State.post_frame_if _ _ _
  have threshold : silenced.pu.threshold = s.pu.threshold := by
    rw [show silenced.pu = _ from State.post_pu s.silenceAll _ _]; rfl
  rw [pressed, State.attend_of_quiet fun j => ?_]
  rw [threshold, State.entry_congr (frame .table (by decide))]
  exact s.silenceAll_quiet j

/-! ### The debounce timer ends (08 R166) -/

/-- The state once the level of a key is accepted, before a press. -/
def State.acceptedKey (s : State) (key : KeyName) (active : Bool) : State :=
  s.setKey key { s.au.key key with accepted := active, timer := none }

theorem State.debounced_eq (s : State) (key : KeyName) : State.debounced key s
    = if s.keyActive key = true ∧ (s.au.key key).accepted = false then (s.acceptedKey key (s.keyActive key)).press key
      else s.acceptedKey key (s.keyActive key) := rfl

/-- Settles O51. -/
theorem keysAreDebounced : Obligations.KeysAreDebounced := by
  unfold Obligations.KeysAreDebounced
  refine ⟨fun s key drive => ?_, fun s key tEnd runs counted => ?_⟩
  · refine ⟨fun starting => exec_keyEdge_of_starting starting key drive, fun started high fixed => ?_,
      fun started floating => ?_⟩
    · obtain ⟨level, kept⟩ := State.keyLevel_of_fixed fixed
      rw [exec_keyEdge_of_started started, level, kept]
    · refine ⟨_, s.keyLevel key .nothing, exec_keyEdge_of_started started key .nothing, State.key_setKey _ _ _, ?_⟩
      simp
  · intro active lost at' press run
    have activeEq : (s.runTo tEnd).keyActive key = active := by cases key <;> rfl
    have accepted : (s.runTo tEnd).acceptedKey key ((s.runTo tEnd).keyActive key) = at' := by rw [activeEq]; rfl
    have ran : run = .next (if press then at'.press key else at') := by
      refine (exec_debounceEnd runs counted).trans (congrArg Host.Outcome.next ?_)
      rw [State.debounced_eq, accepted, activeEq]
      rfl
    have owner : at'.au.owner = s.au.owner := (State.setKey_owner _ _ _).1
    have entry (i : Nat) : at'.entry i = s.entry i := rfl
    refine ⟨fun noPress => by rw [ran, if_neg noPress], fun presses none' => ?_, fun presses isAck o isOwner inTable => ?_,
      fun presses isSilence o isOwner => ?_⟩
    · rw [ran, if_pos presses]
      cases key with
      | ack => simp only [State.press, State.ackPress, owner, none']
      | silence => simp only [State.press, State.silencePress, owner, none']
    · subst isAck
      obtain ⟨self, ownerGone⟩ := State.ackPressed_attend_entry_self (s := at') (o := o) inTable
      have pu : (at'.ackPressed o).attend.pu = _ :=
        ((at'.ackPressed o).attend_frame .pu (by decide)).trans (at'.ackPressed_pu o)
      have slots : (at'.ackPressed o).attend.pu.slots = (at'.emptySlot o.index).pu.slots := by rw [pu]
      refine ⟨(at'.ackPressed o).attend, ?_, by rw [self]; rfl, by rw [self]; rfl, by rw [self]; rfl, by rw [self]; rfl,
        by rw [self]; rfl, fun j other => State.ackPressed_attend_entry_ne (s := at') other, by rw [pu]; rfl,
        ((at'.ackPressed o).attend_frame .flags (by decide)).trans (at'.ackPressed_flags o), fun k slot => ?_,
        fun slot => ?_, fun issue issued => State.ackPressed_ackTaken (s := at') issued, ownerGone⟩
      · rw [ran, if_pos presses]
        exact congrArg Host.Outcome.next (State.ackPress_of_owner (owner.trans isOwner))
      · rw [slots, State.emptySlot_of_slot (s := at') slot]; rfl
      · rw [slots, State.emptySlot_of_none (s := at') slot]; rfl
    · subst isSilence
      have pressed := State.silencePress_of_owner (owner.trans isOwner)
      refine ⟨at'.silencePress, by rw [ran, if_pos presses]; rfl, ?_⟩
      have frame := State.post_frame_if at'.silenceAll ⟨.keySilence, at'.handle o.index, none⟩ (at'.entry o.index).isHeld
      have pu := State.post_pu at'.silenceAll ⟨.keySilence, at'.handle o.index, none⟩ (at'.entry o.index).isHeld
      have flags := State.post_flags at'.silenceAll ⟨.keySilence, at'.handle o.index, none⟩ (at'.entry o.index).isHeld
      have slots := congrArg Presentation.slots pu
      dsimp only at pressed
      rw [pressed]
      refine ⟨(frame .table (by decide)).trans at'.silenceAll_table, rfl, rfl, congrArg Presentation.notices pu, flags,
        slots, ?_⟩
      rw [← pressed]
      simp [at']

end Sys2Proof.Machine

/-! ACK (07 R147): a request of the host that draws from the random source, and its answer. -/

namespace Sys2Proof.Machine

/-! ### An answer read off the time, the phase and the link (09 R180 to R182) -/

/-- The two states agree in all that the link reads while a request is worked on. -/
structure State.SameLink (s t : State) : Prop where
  now : t.now = s.now
  started : t.started = s.started
  framer : t.al.framer = s.al.framer
  lastByte : t.al.lastByte = s.al.lastByte
  held : t.al.held = s.al.held

theorem State.runTo_now_of_same {s t : State} (now : t.now = s.now) (at' : Nat) :
    (t.runTo at').now = (s.runTo at').now := by
  have read (b : TimeBase) : (b.runTo at').ms = if b.ms < at' ∧ at' ≤ lastMs then at' else b.ms := by
    unfold TimeBase.runTo
    split
    · simp only [TimeBase.ms]; omega
    · rfl
  change (t.tb.runTo at').ms = (s.tb.runTo at').ms
  rw [read, read, show t.tb.ms = s.tb.ms from now]

theorem State.SameLink.meanwhile {s t : State} (h : s.SameLink t) (during : List HostInput) :
    (s.meanwhile during).SameLink (t.meanwhile during) := by
  induction during generalizing s t with
  | nil => exact h
  | cons input rest ih =>
    obtain ⟨now, started, framer, lastByte, held⟩ := h
    cases input with
    | bytes bs =>
      simp only [State.meanwhile]
      split
      · exact ih ⟨now, started, framer, lastByte, held⟩
      · exact ih ⟨now, started, by simp only [State.withAl_al, framer], now,
          by simp only [State.withAl_al, framer, started, held]⟩
    | gap =>
      have later := State.runTo_now_of_same now (s.al.lastByte + 6)
      simp only [State.meanwhile, framer, lastByte, later]
      split
      · exact ih ⟨now, started, framer, lastByte, held⟩
      · exact ih ⟨later, started, rfl, rfl, by simp only [State.withAl_al, started, held]⟩

theorem State.answered_of_same {s t : State} (now : t.now = s.now) (phase : t.sl = s.sl) (at' : Nat)
    (during : List HostInput) (response : List Byte) :
    (t.answered at' during response).al = (s.answered at' during response).al
      ∧ (t.answered at' during response).now = (s.answered at' during response).now := by
  have begun : (s.withAl { s.al with framer := .idle, lastByte := at', held := none }).SameLink
      (t.withAl { t.al with framer := .idle, lastByte := at', held := none }) :=
    ⟨now, congrArg (·.phase == .finished) phase, rfl, rfl, rfl⟩
  obtain ⟨now', -, framer, lastByte, held⟩ := begun.meanwhile during
  refine ⟨?_, now'⟩
  simp only [State.answered, State.answeredFrom, State.withAl_al, framer, lastByte, held]

theorem State.answered_frame (t : State) (now : Nat) (during : List HostInput) (response : List Byte) :
    t.onlyChanges [.tb, .al] (t.answered now during response) := by
  simp [State.answered, State.answeredFrom]

/-- The link while a request that came whole is worked on. -/
def State.workingOn (s : State) (bytes : List Byte) : AppLink :=
  { s.al with lastByte := s.now, buffer := .working ⟨bytes, !s.started⟩ }

/-- With the link idle, a good request is carried out with the link WORKING, and answered. -/
theorem exec_request_working {s : State} {c : Instr} {kind seq : Byte} {params : List Byte} {during : List HostInput}
    {r : Request} {p : Reply} (idle : s.HostIdle) (sent : hostRequest c = some (kind, seq :: params, during))
    (short : params.length ≤ 5) (request : requestOf kind (seq :: params) = some r) (inRange : r.inRange = true)
    (fits : s.fits r = true) (carried : (s.withAl (s.workingOn (linkRecord kind (seq :: params)))).carryOut r = p)
    (link : p.state.al = s.workingOn (linkRecord kind (seq :: params))) :
    exec c s = .next (p.state.answered s.now during (responseRecord kind seq p.result p.answer)) := by
  obtain ⟨started, framer, held, buffer⟩ := idle
  have notWorking : ∀ q, s.al.buffer ≠ .working q := by
    rintro q working
    obtain empty | ⟨_, ready⟩ := buffer
    · simp [working] at empty
    · simp [working] at ready
  have judged : judgeRequest (linkRecord kind (seq :: params)) = some r := by
    rw [judgeRequest_of_short (by simp; omega), request]
  have replied : (s.withAl (s.workingOn (linkRecord kind (seq :: params)))).replyTo
      ⟨linkRecord kind (seq :: params), !s.started⟩ = p := by
    simp only [State.replyTo, started, Bool.not_true, Bool.false_eq_true, if_false, judged]
    rw [State.judge_of_fits inRange ((s.fits_withAl _ r).trans fits), carried]
  have begun : p.state.withAl { p.state.al with framer := .idle, lastByte := s.now, held := none } = p.state := by
    rw [link, State.workingOn, framer, held, ← framer, ← held]
    exact (congrArg p.state.withAl link.symm :)
  rw [exec_hostRequest sent, State.hostRequest_whole _ _ _ _ (by simp [requestMost]; omega) framer notWorking]
  rw [State.workingOn] at replied
  simp only [replied, responseTo, requestKind_linkRecord, requestSeq_linkRecord kind seq params (by omega),
    AppLink.place_eq]
  rewrite [State.answered, State.answeredFrom, begun]
  rfl

/-! ### The moment at which RU's events leave the time -/

theorem State.enterWaiting_now (s : State) (k : Nat) : (s.enterWaiting k).now = s.now := by
  unfold State.enterWaiting
  split <;> rfl

theorem State.takeTally_now (s : State) (k : Nat) (issue : Issue) (level : Level) :
    (s.takeTally k issue level).now = s.now := State.enterWaiting_now _ k

theorem State.takeOrDefer_now (s : State) (issue : Issue) (precedence : Nat) (level : Level) :
    (s.takeOrDefer issue precedence level).now = s.now := by
  unfold State.takeOrDefer
  split
  · exact s.takeTally_now _ _ _
  · rfl

theorem State.receiptEvent_now (s : State) (issue : Issue) (precedence : Nat) :
    (s.receiptEvent issue precedence).now = s.now := by
  unfold State.receiptEvent
  split
  · unfold State.modTally; split <;> rfl
  · split
    · rfl
    · exact s.takeOrDefer_now _ _ _

theorem State.requestTally_now (s : State) (k : Nat) : (s.requestTally k).now = s.now := by
  unfold State.requestTally
  split
  · exact s.request_now _
  · rfl

theorem State.ackEvent_now (s : State) (issue : Issue) (precedence : Nat) : (s.ackEvent issue precedence).now = s.now := by
  cases found : s.findTally issue with
  | none =>
    simp only [State.ackEvent, found]
    split
    · rfl
    · exact s.takeOrDefer_now _ _ _
  | some k =>
    obtain ⟨y, held, -⟩ := State.findTally_some found
    by_cases acked : y.ownLevel = .ack
    · rw [State.ackEvent_of_acked precedence found held acked]
    by_cases settled : y.state = .settled
    · rw [State.ackEvent_of_settled precedence found held acked settled]
      split
      · rfl
      · exact State.enterWaiting_now _ k
    by_cases contributing : y.state = .contributing
    · rw [State.ackEvent_of_contributing precedence found held acked contributing]
      exact State.request_now _ _
    · rw [State.ackEvent_of_other precedence found held acked settled contributing]; rfl

theorem State.acknowledge_now (s : State) (i : Nat) : (s.acknowledge i).now = s.now := by
  have closed : (s.acknowledged i).now = s.now := congrArg TimeBase.ms (s.acknowledged_frame i .tb (by decide))
  cases issued : (s.entry i).issue with
  | none => rw [State.acknowledge_of_unissued issued, closed]
  | some issue => rw [State.acknowledge_eq issued, State.ackEvent_now, closed]

/-! ### ACK -/

/-- Settles O27: ACK is `State.acknowledge` and AU told, on the state with the link WORKING. -/
theorem ackClosesEntry : Obligations.AckClosesEntry := by
  unfold Obligations.AckClosesEntry
  intro s seq index during issue idle small inTable state issued e
  obtain ⟨working, workingEq⟩ : ∃ a, s.workingOn (linkRecord 0x25 [seq, index, e.generation]) = a := ⟨_, rfl⟩
  have held : e.isHeld = true := by
    obtain claimed | shown := state
    · simp [Entry.isHeld, e, claimed]
    · simp [Entry.isHeld, e, shown]
  obtain ⟨acked, ackedEq⟩ : ∃ u, (s.withAl working).acknowledge index.toNat = u := ⟨_, rfl⟩
  have link : acked.attend.al = working := by
    rw [acked.attend_frame .al (by decide), ← ackedEq]
    exact (s.withAl working).acknowledge_frame index.toNat .al (by decide)
  have ran := exec_request_working (c := .ack seq index e.generation during) idle rfl (by simp)
    (r := .ack ⟨index.toNat, e.generation⟩) rfl (by simp [Request.inRange, Handle.inRange, small])
    (by simp only [State.fits, State.generationFits, Bool.and_eq_true, beq_iff_eq]; exact ⟨rfl, held⟩)
    (p := acked.attend.done) (by rw [workingEq, ← ackedEq]; rfl) (link.trans workingEq.symm)
  change _ = Host.Outcome.next (acked.attend.answered s.now during (responseRecord 0x25 seq .ok [])) at ran
  have answer := State.answered_frame acked.attend s.now during (responseRecord 0x25 seq .ok [])
  have entry (j : Nat) : (acked.attend.answered s.now during (responseRecord 0x25 seq .ok [])).entry j
      = acked.attend.entry j := State.entry_congr (answer .table (by decide)) j
  have self : acked.entry index.toNat = e.acknowledgedAt s.uptime := by
    rw [← ackedEq]; exact State.acknowledge_entry_self (s := s.withAl working) inTable
  have quiet : (acked.entry index.toNat).eligible acked.pu.threshold = false := by
    rw [self, Entry.acknowledgedAt_ineligible]
  have pu : (acked.attend.answered s.now during (responseRecord 0x25 seq .ok [])).pu
      = ((s.withAl working).emptySlot index.toNat).pu := by
    rw [answer .pu (by decide), acked.attend_frame .pu (by decide), ← ackedEq, State.acknowledge_pu]
  have now : acked.attend.now = s.now := by
    rw [show acked.attend.now = acked.now from congrArg TimeBase.ms (acked.attend_frame .tb (by decide)), ← ackedEq,
      State.acknowledge_now]
    rfl
  have phase : acked.attend.sl = s.sl := by
    rw [acked.attend_frame .sl (by decide), ← ackedEq]
    exact (s.withAl working).acknowledge_frame index.toNat .sl (by decide)
  refine ⟨_, ran, ?_, fun j other => ?_, fun k slot => ?_, fun slot => ?_, ?_, State.answered_of_same now phase _ _ _, ?_⟩
  · refine (entry _).trans (((State.reevaluate_of_ineligible _ quiet).1).trans (self.trans ?_))
    rw [Entry.acknowledgedAt, held]
    rfl
  · have same : acked.entry j = s.entry j := by
      rw [← ackedEq]; exact State.acknowledge_entry_ne (s := s.withAl working) other
    exact (entry j).symm ▸ same ▸ State.reevaluate_soundsLike _ acked j
  · exact pu.trans (congrArg State.pu (State.emptySlot_of_slot (s := s.withAl working) slot))
  · rw [pu, State.emptySlot_of_none (s := s.withAl working) slot]; rfl
  · have ar : (acked.attend.answered s.now during (responseRecord 0x25 seq .ok [])).ar
        = ((s.withAl working).acknowledged index.toNat).ar := by
      rw [answer .ar (by decide), acked.attend_frame .ar (by decide), ← ackedEq,
        State.acknowledge_after _ _ .ar (by decide)]
    have vacated : ((s.withAl working).acknowledged index.toNat).ar.cell
        = ((s.withAl working).emptySlot index.toNat).ar.cell := rfl
    rw [ar, vacated, State.emptySlot_ar]
    rfl
  · have taken := State.acknowledge_ackTaken (s := s.withAl working) issued
    rw [ackedEq] at taken
    have attended := acked.attend_frame.sameReported (by decide)
    have answered := answer.sameReported (by decide)
    exact taken.congr ⟨rfl, rfl, rfl, rfl, rfl, rfl⟩
      ⟨answered.settings.trans attended.settings, answered.cs.trans attended.cs, answered.ru.trans attended.ru,
        answered.counters.trans attended.counters, answered.quality.trans attended.quality⟩

end Sys2Proof.Machine

/-! The framer on bytes that are no good record (09 R172, R180), and what the modem link makes of them. -/

namespace Sys2Proof.Machine

/-! ### The framer on any bytes (09 R172) -/

theorem feed_append (most : Nat) (f : Framer) (xs ys : List Byte) : Framer.feed most f (xs ++ ys)
    = ((Framer.feed most (Framer.feed most f xs).1 ys).1,
      (Framer.feed most f xs).2 ++ (Framer.feed most (Framer.feed most f xs).1 ys).2) := by
  induction xs generalizing f with
  | nil => rfl
  | cons x xs ih => simp only [List.cons_append, Framer.feed, ih, List.append_assoc]

theorem feed_hunting (most : Nat) (bs : List Byte) : Framer.feed most .hunting bs = (.hunting, []) := by
  induction bs with
  | nil => rfl
  | cons b bs ih => simp only [Framer.feed, Framer.take, ih, List.append_nil]

/-- A length field out of range ends the record at its second byte, and what follows is hunted through. -/
theorem feed_badLength {most : Nat} {a b : Byte} (bad : lengthField [a, b] = 0 ∨ most < lengthField [a, b])
    (rest : List Byte) : Framer.feed most .idle (a :: b :: rest) = (.hunting, [.badLength [a, b]]) := by
  simp only [Framer.feed, Framer.take, List.cons_append, List.nil_append, List.length_cons, List.length_nil, true_and, bad,
    if_true, feed_hunting]

/-- A record not yet whole is received. -/
theorem feed_receiving_more {most : Nat} {bs : List Byte} (cs : List Byte) (two : 2 ≤ bs.length)
    (short : (bs ++ cs).length < lengthField bs + 4) : Framer.feed most (.receiving bs) cs = (.receiving (bs ++ cs), []) := by
  induction cs generalizing bs with
  | nil => rw [List.append_nil]; rfl
  | cons c cs ih =>
    have field : lengthField (bs ++ [c]) = lengthField bs := by
      match bs, two with
      | _ :: _ :: _, _ => rfl
    have length : (bs ++ [c]).length = bs.length + 1 := by simp
    have total : (bs ++ c :: cs).length = bs.length + (cs.length + 1) := by simp
    have notSecond : ¬ ((bs ++ [c]).length = 2 ∧ (lengthField (bs ++ [c]) = 0 ∨ most < lengthField (bs ++ [c]))) := by
      omega
    have notWhole : ¬ (2 < (bs ++ [c]).length ∧ (bs ++ [c]).length = lengthField (bs ++ [c]) + 4) := by omega
    have rest := ih (bs := bs ++ [c]) (by omega) (by rw [field, List.append_assoc]; exact short)
    simp only [Framer.feed, Framer.take, notSecond, notWhole, if_false, rest, List.append_assoc]
    rfl

theorem feed_goodLength {most : Nat} {a b : Byte} (good : ¬ (lengthField [a, b] = 0 ∨ most < lengthField [a, b]))
    (rest : List Byte) : Framer.feed most .idle (a :: b :: rest) = Framer.feed most (.receiving [a, b]) rest := by
  have notWhole : ¬ 2 < [a, b].length := by simp
  simp only [Framer.feed, Framer.take, List.cons_append, List.nil_append, good, and_false, if_false, notWhole, false_and]

/-- What the framer makes of bytes, by their length field and their number: no record, a bad length, a record cut short, a
whole record, and a whole record with more behind it. -/
theorem feed_cases (most : Nat) (bytes : List Byte) :
    (bytes = [] ∧ Framer.feed most .idle bytes = (.idle, []))
    ∨ (Framer.feed most .idle bytes = (.receiving bytes, []) ∧ bytes.length ≠ lengthField bytes + 4)
    ∨ (∃ a b rest, bytes = a :: b :: rest ∧ (lengthField bytes = 0 ∨ most < lengthField bytes)
      ∧ Framer.feed most .idle bytes = (.hunting, [.badLength [a, b]]))
    ∨ (1 ≤ lengthField bytes ∧ lengthField bytes ≤ most
      ∧ Framer.feed most .idle bytes = (.idle, [.record bytes]))
    ∨ ∃ bs events, bs.length < bytes.length ∧ (Framer.feed most .idle bytes).2 = .record bs :: events := by
  match bytes with
  | [] => exact .inl ⟨rfl, rfl⟩
  | [a] => exact .inr (.inl ⟨rfl, by simp [lengthField]⟩)
  | a :: b :: rest =>
    have field : lengthField (a :: b :: rest) = lengthField [a, b] := rfl
    refine .inr ?_
    by_cases bad : lengthField [a, b] = 0 ∨ most < lengthField [a, b]
    · exact .inr (.inl ⟨a, b, rest, rfl, bad, feed_badLength bad rest⟩)
    · rw [feed_goodLength bad, field]
      obtain short | whole | long := Nat.lt_trichotomy ([a, b] ++ rest).length (lengthField [a, b] + 4)
      · exact .inl ⟨feed_receiving_more rest (by simp) short, short.ne⟩
      · have more : rest ≠ [] := by rintro rfl; simp at whole
        exact .inr (.inr (.inl ⟨by omega, by omega, feed_receiving most [a, b] rest (by simp) whole more⟩))
      · have size : (rest.take (lengthField [a, b] + 2)).length = lengthField [a, b] + 2 := by
          rw [List.length_take]
          simp only [List.length_append, List.length_cons, List.length_nil] at long
          omega
        have first := feed_receiving most [a, b] (rest.take (lengthField [a, b] + 2)) (by simp)
          (by rw [List.length_append, size]; simp; omega) (by intro none'; rw [none'] at size; simp at size)
        refine .inr (.inr (.inr ⟨[a, b] ++ rest.take (lengthField [a, b] + 2),
          (Framer.feed most .idle (rest.drop (lengthField [a, b] + 2))).2, ?_, ?_⟩))
        · rw [List.length_append, size]
          simp only [List.length_append, List.length_cons, List.length_nil] at long ⊢
          omega
        · conv_lhs => rw [← List.take_append_drop (lengthField [a, b] + 2) rest]
          rw [feed_append, first]
          rfl

/-- Bytes that end one record by their last byte: a whole record, or a bad length. -/
theorem feed_of_ended {most : Nat} {bytes : List Byte} {e : FramerEvent}
    (ends : (Framer.feed most .idle bytes).2 = [e]) (whole : e.bytes = bytes) :
    (e = .record bytes ∧ 1 ≤ lengthField bytes ∧ lengthField bytes ≤ most ∧ (Framer.feed most .idle bytes).1 = .idle)
    ∨ (e = .badLength bytes ∧ (lengthField bytes = 0 ∨ most < lengthField bytes) ∧ bytes.length = 2
      ∧ (Framer.feed most .idle bytes).1 = .hunting) := by
  obtain ⟨-, fed⟩ | ⟨fed, -⟩ | ⟨a, b, rest, rfl, bad, fed⟩ | ⟨least, within, fed⟩ | ⟨bs, events, short, fed⟩ :=
    feed_cases most bytes
  · rw [fed] at ends; cases ends
  · rw [fed] at ends; cases ends
  · rw [fed] at ends
    obtain rfl := List.head_eq_of_cons_eq ends
    obtain rfl : [] = rest := by simpa [FramerEvent.bytes] using whole
    exact .inr ⟨rfl, bad, rfl, by rw [fed]⟩
  · rw [fed] at ends
    obtain rfl := List.head_eq_of_cons_eq ends
    exact .inl ⟨rfl, least, within, by rw [fed]⟩
  · rw [fed] at ends
    obtain rfl := List.head_eq_of_cons_eq ends
    obtain rfl : bs = bytes := whole
    exact absurd short (lt_irrefl _)

/-- Bytes that end nothing are being received, and are no whole record. -/
theorem feed_of_endsNothing {most : Nat} {bytes : List Byte} (some' : bytes ≠ [])
    (nothing : endsNothing most bytes = true) :
    Framer.feed most .idle bytes = (.receiving bytes, []) ∧ bytes.length ≠ lengthField bytes + 4 := by
  have none' : (Framer.feed most .idle bytes).2 = [] := by simpa [endsNothing] using nothing
  obtain ⟨empty, -⟩ | open' | ⟨a, b, rest, -, -, fed⟩ | ⟨-, -, fed⟩ | ⟨bs, events, -, fed⟩ := feed_cases most bytes
  · exact absurd empty some'
  · exact open'
  · rw [fed] at none'; cases none'
  · rw [fed] at none'; cases none'
  · rw [fed] at none'; cases none'

/-! ### The modem link (09 R171 to R173) -/

theorem State.modemBytes_of_low {s : State} (low : s.ml.partReady = false) (bytes : List Byte) : s.modemBytes bytes = s := by
  simp [State.modemBytes, low]

theorem State.modemBytes_nil (s : State) : s.modemBytes [] = s := by
  simp [State.modemBytes]

theorem State.modemBytes_eq {s : State} (ready : s.ml.partReady = true) {bytes : List Byte} (some' : bytes ≠ [])
    {f : Framer} {events : List FramerEvent} (fed : s.ml.framer.feed modemMost bytes = (f, events)) :
    s.modemBytes bytes = events.foldl State.modemEvent (s.withMl { s.ml with framer := f, lastByte := s.now }) := by
  simp only [State.modemBytes, ready, fed]
  exact if_pos ⟨trivial, some'⟩

/-- Bytes that are one dropped record are fed to one event of theirs, which counts LINK_ERROR. -/
theorem droppedRecord_ended {bytes : List Byte} (dropped : droppedRecord bytes = true) :
    ∃ e, (Framer.feed modemMost .idle bytes).2 = [e] ∧ e.bytes = bytes
      ∧ ∀ s : State, s.modemEvent e = s.count .linkError := by
  unfold droppedRecord at dropped
  split at dropped
  · next bs fed =>
    obtain ⟨rfl, bad⟩ : bs = bytes ∧ judgeModem bs = none := by simpa using dropped
    exact ⟨_, fed, rfl, fun s => by simp only [State.modemEvent, bad]⟩
  · next bs fed =>
    obtain rfl : bs = bytes := by simpa using dropped
    exact ⟨_, fed, rfl, fun s => rfl⟩
  · cases dropped

theorem exec_linkRecordDropped {s : State} (ready : s.ml.partReady = true) (idle : s.ml.framer = .idle)
    {bytes : List Byte} (dropped : droppedRecord bytes = true) :
    exec (.linkRecordDropped bytes) s = .next ((s.withMl { s.ml with
      framer := (Framer.feed modemMost .idle bytes).1, lastByte := s.now }).count .linkError) := by
  obtain ⟨e, ends, whole, counted⟩ := droppedRecord_ended dropped
  have some' : bytes ≠ [] := by rintro rfl; cases ends
  have fed : s.ml.framer.feed modemMost bytes = ((Framer.feed modemMost .idle bytes).1, [e]) := by
    rw [idle, ← ends]
  exact congrArg Host.Outcome.next ((State.modemBytes_eq ready some' fed).trans (counted _))

theorem exec_modemGapTimeout_of_idle {s : State} {bytes : List Byte} (idle : (s.modemBytes bytes).ml.framer = .idle) :
    exec (.modemGapTimeout bytes) s = .next (s.modemBytes bytes) :=
  congrArg Host.Outcome.next (if_pos idle)

theorem exec_modemGapTimeout_of_busy {s t : State} {bytes : List Byte} (taken : s.modemBytes bytes = t)
    (busy : t.ml.framer ≠ .idle) (counted : t.ml.lastByte + 6 ≤ lastMs) :
    exec (.modemGapTimeout bytes) s = .next (t.runTo (t.ml.lastByte + 6)).modemGap := by
  subst taken
  refine congrArg Host.Outcome.next ((if_neg busy).trans ?_)
  exact State.runsOut_eq _ _ counted

/-- A gap ends what was being received, and counts it. -/
theorem State.modemGap_of_receiving {s : State} {bs : List Byte} (receiving : s.ml.framer = .receiving bs) :
    s.modemGap = (s.withMl { s.ml with framer := .idle }).count .linkError := by
  simp only [State.modemGap, receiving]
  rfl

theorem State.modemGap_of_hunting {s : State} (hunting : s.ml.framer = .hunting) :
    s.modemGap = s.withMl { s.ml with framer := .idle } := by
  simp only [State.modemGap, hunting]
  rfl

/-- With the part ready line low no record of the modem is taken. -/
theorem State.fromModem_of_low {s : State} (low : s.ml.partReady = false) (kind : Byte) (body : List Byte) :
    s.fromModem kind body = s := State.modemBytes_of_low low _

/-- Settles O14. -/
theorem badModemBytesCounted : Obligations.BadModemBytesCounted := by
  unfold Obligations.BadModemBytesCounted
  refine ⟨fun s ready => ⟨fun bytes idle dropped => ?_, fun inTime => ⟨fun bs receiving => ?_, fun hunting => ?_⟩,
    fun idle => ⟨?_, fun bytes some' nothing inTime => ?_⟩⟩, fun s c low idle commands => ?_⟩
  · refine ⟨_, exec_linkRecordDropped ready idle dropped, ?_⟩
    obtain ⟨e, ends, whole, -⟩ := droppedRecord_ended dropped
    obtain ⟨-, -, -, framer⟩ | ⟨-, -, -, framer⟩ := feed_of_ended ends whole
    · exact .inl framer
    · exact .inr framer
  · rw [exec_modemGapTimeout_of_busy s.modemBytes_nil (by rw [receiving]; nofun) inTime]
    exact congrArg Host.Outcome.next (State.modemGap_of_receiving (s := s.runTo (s.ml.lastByte + 6)) receiving)
  · rw [exec_modemGapTimeout_of_busy s.modemBytes_nil (by rw [hunting]; nofun) inTime]
    exact congrArg Host.Outcome.next (State.modemGap_of_hunting (s := s.runTo (s.ml.lastByte + 6)) hunting)
  · rw [exec_modemGapTimeout_of_idle (by rw [s.modemBytes_nil, idle]), s.modemBytes_nil]
  · obtain ⟨fed, -⟩ := feed_of_endsNothing some' nothing
    have taken := State.modemBytes_eq ready some' (idle ▸ fed)
    rw [exec_modemGapTimeout_of_busy taken nofun inTime]
    exact congrArg Host.Outcome.next (State.modemGap_of_receiving (bs := bytes)
      (s := (s.withMl { s.ml with framer := .receiving bytes, lastByte := s.now }).runTo (s.now + 6)) rfl)
  · obtain rfl | ⟨a, b, d, rfl⟩ | ⟨r, rfl⟩ | ⟨a, b, d, rfl⟩ | ⟨x, rfl⟩ | ⟨a, b, d, e, rfl⟩ | ⟨bs, rfl⟩ | ⟨bs, rfl⟩ := commands
    · exact congrArg Host.Outcome.next (State.fromModem_of_low low _ _)
    · exact congrArg Host.Outcome.next (State.fromModem_of_low low _ _)
    · exact congrArg Host.Outcome.next (State.fromModem_of_low low _ _)
    · exact congrArg Host.Outcome.next (State.fromModem_of_low low _ _)
    · exact congrArg Host.Outcome.next (State.fromModem_of_low low _ _)
    · exact congrArg Host.Outcome.next (State.fromModem_of_low low _ _)
    · exact congrArg Host.Outcome.next (State.modemBytes_of_low low _)
    · rw [exec_modemGapTimeout_of_idle (by rw [State.modemBytes_of_low low, idle]), State.modemBytes_of_low low]

end Sys2Proof.Machine

/-! The application link (09 R180 to R182): requests refused, requests held, and what ends in start-up. -/

namespace Sys2Proof.Machine

/-! ### A request that is refused (07 R141, 09 R180) -/

/-- What is held of the answer of a link does not read the response buffer: any link of this framer and this last byte
is answered alike. -/
theorem State.place_answeredFrom (t : State) (f : Framer) (at' : Nat) (b : Buffer) (during : List HostInput)
    (response : List Byte) :
    (let u := (t.withAl ⟨f, at', b, none⟩).meanwhile during
     u.withAl (u.al.place response)) = t.answeredFrom f at' during response := by
  have onLink (b' : Buffer) : (t.withAl ⟨f, at', b', none⟩).meanwhile during
      = t.onLink ((t.withAl ⟨f, at', b, none⟩).meanwhile during) b' := by
    rw [← State.meanwhile_onLink, State.onLink_withAl rfl rfl]
  unfold State.answeredFrom
  simp only [AppLink.place_eq]
  rw [onLink t.al.buffer, onLink b]
  rfl

/-- The response buffer is EMPTY or READY: no request is worked on (09 R181). -/
theorem Buffer.notWorking {b : Buffer} (buffer : b = .empty ∨ ∃ r, b = .ready r) (q : EndedRequest) :
    b ≠ .working q := by
  rintro rfl
  obtain empty | ⟨_, ready⟩ := buffer
  · exact nomatch empty
  · exact nomatch ready

/-- A request ends with none worked on. -/
theorem Stretch.requestEnds_idle {u : State} (notWorking : ∀ q, u.al.buffer ≠ .working q) (e : FramerEvent) :
    Stretch.requestEnds ⟨u, none⟩ e =
      let q : EndedRequest := ⟨e.bytes, !u.started⟩
      let r := (u.withAl { u.al with buffer := .working q }).replyTo q
      ⟨r.state, some (responseTo q r)⟩ := by
  cases buffer : u.al.buffer with
  | working q => exact absurd buffer (notWorking q)
  | empty => simp only [Stretch.requestEnds, buffer]
  | ready r => simp only [Stretch.requestEnds, buffer]

/-- A request that ends and is refused, whatever the link holds, is answered, and nothing else is changed. -/
theorem Stretch.refused_placed {u : State} (held : u.al.held = none) (notWorking : ∀ q, u.al.buffer ≠ .working q)
    {e : FramerEvent} {result : Result} (during : List HostInput)
    (refused : ∀ a, (u.withAl a).replyTo ⟨e.bytes, !u.started⟩ = (u.withAl a).refuse result) :
    (during.foldl Stretch.input (Stretch.requestEnds ⟨u, none⟩ e)).placed
      = u.answeredFrom u.al.framer u.al.lastByte during
          (responseRecord (requestKind e.bytes) (requestSeq e.bytes) result []) := by
  rw [Stretch.requestEnds_idle notWorking]
  simp only [refused, State.refuse]
  rw [Stretch.inputs_working during _ _ ⟨e.bytes, !u.started⟩ rfl]
  simp only [Stretch.placed, responseTo, held]
  exact State.place_answeredFrom u u.al.framer u.al.lastByte _ during _

/-- A request that ends in the first bytes sent and is refused. -/
theorem State.fromHost_refused {s : State} (held : s.al.held = none) (notWorking : ∀ q, s.al.buffer ≠ .working q)
    {bytes : List Byte} {f : Framer} {e : FramerEvent} {result : Result} (during : List HostInput) (some' : bytes ≠ [])
    (ended : s.al.framer.feed requestMost bytes = (f, [e]))
    (refused : ∀ a, (s.withAl a).replyTo ⟨e.bytes, !s.started⟩ = (s.withAl a).refuse result) :
    s.fromHost (.bytes bytes :: during)
      = s.answeredFrom f s.now during (responseRecord (requestKind e.bytes) (requestSeq e.bytes) result []) := by
  have first : Stretch.input ⟨s, none⟩ (.bytes bytes)
      = Stretch.requestEnds ⟨s.withAl { s.al with framer := f, lastByte := s.now }, none⟩ e := by
    simp only [Stretch.input, Stretch.bytesCome, if_neg some', Stretch.framed, ended, List.foldl_cons, List.foldl_nil]
    rfl
  rw [State.fromHost, List.foldl_cons, first,
    Stretch.refused_placed (u := s.withAl { s.al with framer := f, lastByte := s.now }) held notWorking during refused]
  rfl

/-- What a request that cannot be carried out at all is answered: in start-up NOT_READY, later BAD_REQUEST (07 R141). -/
def State.badResult (s : State) : Result := if s.started then .badRequest else .notReady

theorem State.replyTo_of_early {s : State} (early : s.started = false) (bytes : List Byte) :
    s.replyTo ⟨bytes, !s.started⟩ = s.refuse .notReady := by
  simp [State.replyTo, early]

theorem State.replyTo_of_bad {bytes : List Byte} (bad : judgeRequest bytes = none) (s : State) :
    s.replyTo ⟨bytes, !s.started⟩ = s.refuse s.badResult := by
  cases started : s.started <;> simp [State.replyTo, State.badResult, started, bad]

theorem judgeRequest_of_length {bytes : List Byte} (length : bytes.length ≠ lengthField bytes + 4) :
    judgeRequest bytes = none := by
  simp [judgeRequest, length]

/-- A request cut short is a bad one. -/
theorem judgeRequest_of_endsNothing {bytes : List Byte} (nothing : endsNothing requestMost bytes = true) :
    judgeRequest bytes = none := by
  refine judgeRequest_of_length ?_
  by_cases some' : bytes = []
  · simp [some']
  · exact (feed_of_endsNothing some' nothing).2

/-- A request has at most five bytes of parameters (11.5). -/
theorem hostRequest_short {c : Instr} {kind seq : Byte} {params : List Byte} {during : List HostInput}
    (sent : hostRequest c = some (kind, seq :: params, during)) : params.length ≤ 5 := by
  unfold hostRequest at sent
  split at sent <;> cases sent <;> simp [bytes16]

/-- A request that ends in start-up (07 R141). -/
theorem exec_request_early {s : State} {c : Instr} {kind seq : Byte} {params : List Byte} {during : List HostInput}
    (held : s.al.held = none) (buffer : s.al.buffer = .empty ∨ ∃ r, s.al.buffer = .ready r) (framer : s.al.framer = .idle)
    (early : s.started = false) (sent : hostRequest c = some (kind, seq :: params, during)) (short : params.length ≤ 5) :
    exec c s = .next (s.answered s.now during (responseRecord kind seq .notReady [])) := by
  have fed : s.al.framer.feed requestMost (linkRecord kind (seq :: params))
      = (.idle, [.record (linkRecord kind (seq :: params))]) := by
    rw [framer]; exact feed_linkRecord _ _ _ (by simp [requestMost]; omega) (by decide)
  have refused := State.fromHost_refused held (Buffer.notWorking buffer) during
    (by simp [linkRecord, num16, bytes16]) fed (fun a => State.replyTo_of_early (s := s.withAl a) early _)
  rw [exec_hostRequest sent, State.hostRequest, refused]
  simp only [FramerEvent.bytes, requestKind_linkRecord, requestSeq_linkRecord kind seq params (by omega), State.answered]

/-- The bytes of a bad request, by its length or by its content (09 R180). -/
theorem badRequest_ended {bytes : List Byte} (bad : badRequest bytes = true) :
    ∃ e, (Framer.feed requestMost .idle bytes).2 = [e] ∧ e.bytes = bytes ∧ judgeRequest bytes = none := by
  unfold badRequest at bad
  split at bad
  · next bs ends =>
    simp only [Bool.and_eq_true, beq_iff_eq] at bad
    obtain ⟨rfl, judged⟩ := bad
    exact ⟨_, ends, rfl, judged⟩
  · next bs ends =>
    obtain rfl : bs = bytes := by simpa using bad
    obtain ⟨is, -⟩ | ⟨-, -, two, -⟩ := feed_of_ended ends rfl
    · exact nomatch is
    · exact ⟨_, ends, rfl, judgeRequest_of_length (by omega)⟩
  · exact nomatch bad

theorem exec_badRequestRecord {s : State} {bytes : List Byte} {during : List HostInput} (held : s.al.held = none)
    (buffer : s.al.buffer = .empty ∨ ∃ r, s.al.buffer = .ready r) (framer : s.al.framer = .idle)
    (wf : (Instr.badRequestRecord bytes during).wf = true) :
    exec (.badRequestRecord bytes during) s = .next (s.answeredFrom
      (if lengthField bytes = 0 ∨ 7 < lengthField bytes then .hunting else .idle) s.now during
      (responseRecord (requestKind bytes) (requestSeq bytes) s.badResult [])) := by
  have ⟨bad, _⟩ : badRequest bytes = true ∧ during.all HostInput.wf = true := by simpa [Instr.wf] using wf
  obtain ⟨e, ends, whole, judged⟩ := badRequest_ended bad
  have framed : (Framer.feed requestMost .idle bytes).1
      = if lengthField bytes = 0 ∨ 7 < lengthField bytes then .hunting else .idle := by
    obtain ⟨-, least, within, idle⟩ | ⟨-, bad', -, hunting⟩ := feed_of_ended ends whole
    · have within' : lengthField bytes ≤ 7 := within
      rw [idle, if_neg (by omega)]
    · exact hunting.trans (if_pos bad').symm
  have some' : bytes ≠ [] := by rintro rfl; simp [Framer.feed] at ends
  have fed : s.al.framer.feed requestMost bytes
      = (if lengthField bytes = 0 ∨ 7 < lengthField bytes then .hunting else .idle, [e]) := by
    rw [framer]; exact Prod.ext framed ends
  have refused := State.fromHost_refused held (Buffer.notWorking buffer) during some' fed
    (result := s.badResult)
    (fun a => State.replyTo_of_bad (whole ▸ judged) (s.withAl a))
  exact congrArg Host.Outcome.next (refused.trans (by rw [whole]))

/-! ### More than 5 ms with no byte (09 R180) -/

/-- The gap ends what the framer was at. -/
theorem Stretch.gapPasses_of_busy {u : State} (busy : u.al.framer ≠ .idle)
    (inTime : u.al.lastByte + 6 ≤ lastMs) (r : Option (List Byte)) :
    Stretch.gapPasses ⟨u, r⟩ = Stretch.framed ⟨u.runTo (u.al.lastByte + 6), r⟩ u.al.framer.gap := by
  have reached : ¬ (u.runTo (u.al.lastByte + 6)).now < u.al.lastByte + 6 := by rw [State.runTo_now _ inTime]; omega
  simp only [Stretch.gapPasses, busy, reached, or_self, if_false]

/-- A gap with the framer idle ends nothing. -/
theorem Stretch.gapPasses_of_idle {u : State} (idle : u.al.framer = .idle) (r : Option (List Byte)) :
    Stretch.gapPasses ⟨u, r⟩ = ⟨u, r⟩ := by
  simp [Stretch.gapPasses, idle]

/-- Bytes come that end no record. -/
theorem Stretch.bytesCome_receiving {s : State} (framer : s.al.framer = .idle) {bytes : List Byte} (some' : bytes ≠ [])
    (nothing : endsNothing requestMost bytes = true) (r : Option (List Byte)) :
    Stretch.bytesCome ⟨s, r⟩ bytes
      = ⟨s.withAl { s.al with framer := .receiving bytes, lastByte := s.now }, r⟩ := by
  simp only [Stretch.bytesCome, if_neg some', framer, (feed_of_endsNothing some' nothing).1, Stretch.framed, List.foldl_nil]
  rfl

theorem Stretch.bytesCome_nil (w : Stretch) : w.bytesCome [] = w := rfl

/-- A gap that cuts a request short ends it as a bad one. -/
theorem Stretch.gapPasses_refused {u : State} (held : u.al.held = none) (notWorking : ∀ q, u.al.buffer ≠ .working q)
    {bytes : List Byte} (receiving : u.al.framer = .receiving bytes) (bad : judgeRequest bytes = none)
    (inTime : u.al.lastByte + 6 ≤ lastMs) (during : List HostInput) :
    (during.foldl Stretch.input (Stretch.gapPasses ⟨u, none⟩)).placed
      = (u.runTo (u.al.lastByte + 6)).answered u.al.lastByte during
          (responseRecord (requestKind bytes) (requestSeq bytes) u.badResult []) := by
  rw [Stretch.gapPasses_of_busy (by rw [receiving]; nofun) inTime, receiving]
  exact Stretch.refused_placed
    (u := (u.runTo (u.al.lastByte + 6)).withAl { u.al with framer := .idle }) (e := .truncated bytes) held notWorking
    during (result := u.badResult) (fun a => State.replyTo_of_bad (bytes := bytes) bad _)

/-- HUNTING ends at the gap, with no answer. -/
theorem Stretch.gapPasses_hunting {u : State} (hunting : u.al.framer = .hunting) (inTime : u.al.lastByte + 6 ≤ lastMs)
    (r : Option (List Byte)) : Stretch.gapPasses ⟨u, r⟩
      = ⟨(u.runTo (u.al.lastByte + 6)).withAl { u.al with framer := .idle }, r⟩ := by
  rw [Stretch.gapPasses_of_busy (by rw [hunting]; nofun) inTime, hunting]
  rfl

/-! ### A request out of range or stale (07 R141, steps 3 and 4) -/

theorem exec_request_refused {s : State} {c : Instr} {kind seq : Byte} {params : List Byte} {during : List HostInput}
    {r : Request} {result : Result} (idle : s.HostIdle) (sent : hostRequest c = some (kind, seq :: params, during))
    (short : params.length ≤ 5) (request : requestOf kind (seq :: params) = some r)
    (refused : ∀ a, (s.withAl a).judge r = (s.withAl a).refuse result) :
    exec c s = .next (s.answered s.now during (responseRecord kind seq result [])) := by
  obtain ⟨started, framer, held, buffer⟩ := idle
  have fed : s.al.framer.feed requestMost (linkRecord kind (seq :: params))
      = (.idle, [.record (linkRecord kind (seq :: params))]) := by
    rw [framer]; exact feed_linkRecord _ _ _ (by simp [requestMost]; omega) (by decide)
  have judged : judgeRequest (linkRecord kind (seq :: params)) = some r := by
    rw [judgeRequest_of_short (by simp; omega), request]
  have replied (a : AppLink) : (s.withAl a).replyTo ⟨linkRecord kind (seq :: params), !s.started⟩
      = (s.withAl a).refuse result := by
    simp only [State.replyTo, started, Bool.not_true, Bool.false_eq_true, if_false, judged, refused]
  have answered := State.fromHost_refused held (Buffer.notWorking buffer) during
    (by simp [linkRecord, num16, bytes16]) fed replied
  rw [exec_hostRequest sent, State.hostRequest, answered]
  simp only [FramerEvent.bytes, requestKind_linkRecord, requestSeq_linkRecord kind seq params (by omega), State.answered]

theorem State.judge_of_outOfRange {s : State} {r : Request} (outOfRange : r.inRange = false) :
    s.judge r = s.refuse .badRequest := by simp [State.judge, outOfRange]

theorem State.judge_of_stale {s : State} {r : Request} (inRange : r.inRange = true) (stale : s.fits r = false) :
    s.judge r = s.refuse .stale := by simp [State.judge, inRange, stale]

theorem exec_request_outOfRange {s : State} {c : Instr} {kind seq : Byte} {params : List Byte} {during : List HostInput}
    {r : Request} (idle : s.HostIdle) (sent : hostRequest c = some (kind, seq :: params, during))
    (short : params.length ≤ 5) (request : requestOf kind (seq :: params) = some r) (outOfRange : r.inRange = false) :
    exec c s = .next (s.answered s.now during (responseRecord kind seq .badRequest [])) :=
  exec_request_refused idle sent short request fun _ => State.judge_of_outOfRange outOfRange

theorem exec_request_stale {s : State} {c : Instr} {kind seq : Byte} {params : List Byte} {during : List HostInput}
    {r : Request} (idle : s.HostIdle) (sent : hostRequest c = some (kind, seq :: params, during))
    (short : params.length ≤ 5) (request : requestOf kind (seq :: params) = some r) (inRange : r.inRange = true)
    (stale : s.fits r = false) :
    exec c s = .next (s.answered s.now during (responseRecord kind seq .stale [])) :=
  exec_request_refused idle sent short request fun a =>
    State.judge_of_stale inRange ((s.fits_withAl a r).trans stale)

/-- A handle that does not fit its entry, for a request that wants it CLAIMED or SHOWN. -/
theorem State.not_fits_held {s : State} {index generation : Byte}
    (stale : (s.entry index.toNat).generation ≠ generation
      ∨ ((s.entry index.toNat).state ≠ .claimed ∧ (s.entry index.toNat).state ≠ .shown)) :
    (s.generationFits ⟨index.toNat, generation⟩ && (s.entry index.toNat).isHeld) = false := by
  obtain other | ⟨unclaimed, unshown⟩ := stale
  · simp [State.generationFits, other]
  · simp [Entry.isHeld, unclaimed, unshown]

theorem State.not_fits_claimed {s : State} {index generation : Byte}
    (stale : (s.entry index.toNat).generation ≠ generation ∨ (s.entry index.toNat).state ≠ .claimed) :
    (s.generationFits ⟨index.toNat, generation⟩ && (s.entry index.toNat).state == .claimed) = false := by
  obtain other | unclaimed := stale
  · simp [State.generationFits, other]
  · simp [unclaimed]

/-- Settles O22: each bad request is refused at its end, whatever the link holds, and its answer is placed. -/
theorem refusedRequestsAnswered : Obligations.RefusedRequestsAnswered := by
  unfold Obligations.RefusedRequestsAnswered
  refine ⟨fun s during held buffer => ⟨fun c kind seq params sent framer early => ?_, fun bytes framer wf => ?_,
    fun bytes framer some' wf inTime => ?_, fun inTime => ⟨fun bytes receiving nothing => ?_, fun hunting => ?_⟩⟩,
    fun s seq index generation length offset during idle => ⟨fun out => ?_, fun out => ?_, fun out => ?_,
      fun within => ⟨fun stale => ?_, fun stale => ?_⟩⟩⟩
  · exact exec_request_early held buffer framer early sent (hostRequest_short sent)
  · exact exec_badRequestRecord held buffer framer wf
  · have ⟨nothing, _⟩ : endsNothing requestMost bytes = true ∧ during.all HostInput.wf = true := by
      simpa [Instr.wf] using wf
    have gap := Stretch.gapPasses_refused (u := s.withAl { s.al with framer := .receiving bytes, lastByte := s.now })
      held (Buffer.notWorking buffer) rfl (judgeRequest_of_endsNothing nothing) inTime during
    refine congrArg Host.Outcome.next (Eq.trans ?_ gap)
    rw [← Stretch.bytesCome_receiving framer some' nothing]
    rfl
  · exact congrArg Host.Outcome.next (Stretch.gapPasses_refused held (Buffer.notWorking buffer) receiving
      (judgeRequest_of_endsNothing nothing) inTime during)
  · have passes := Stretch.gapPasses_hunting hunting inTime none
    have again : Stretch.gapPasses _ = _ := Stretch.gapPasses_of_idle
      (u := (s.runTo (s.al.lastByte + 6)).withAl { s.al with framer := .idle }) rfl none
    refine ⟨congrArg (Host.Outcome.next ∘ Stretch.placed) passes, fun bytes rest => ?_, fun rest => ?_⟩
    · exact congrArg (fun w => Host.Outcome.next (Stretch.placed ((HostInput.bytes bytes :: rest).foldl Stretch.input w)))
        passes
    · refine congrArg (fun w => Host.Outcome.next (Stretch.placed (rest.foldl Stretch.input w))) ?_
      exact ((congrArg Stretch.gapPasses passes).trans again).trans passes.symm
  · have outOfRange : Handle.inRange ⟨index.toNat, generation⟩ = false := by simp [Handle.inRange]; omega
    exact ⟨exec_request_outOfRange idle rfl (by simp) rfl outOfRange,
      exec_request_outOfRange idle rfl (by simp) rfl outOfRange,
      exec_request_outOfRange idle rfl (by simp) rfl outOfRange⟩
  · refine exec_request_outOfRange idle rfl (by simp [bytes16]) (requestOf_read ..) ?_
    simp [Request.inRange, Handle.inRange]; omega
  · exact exec_request_outOfRange idle rfl (by simp) rfl (by simp [Request.inRange]; omega)
  · have inRange : Handle.inRange ⟨index.toNat, generation⟩ = true := by simp [Handle.inRange]; omega
    exact ⟨exec_request_stale idle rfl (by simp) rfl inRange (State.not_fits_claimed stale),
      exec_request_stale idle rfl (by simp) rfl inRange (State.not_fits_claimed stale)⟩
  · have inRange : Handle.inRange ⟨index.toNat, generation⟩ = true := by simp [Handle.inRange]; omega
    refine ⟨exec_request_stale idle rfl (by simp) rfl inRange (State.not_fits_held stale), fun least most => ?_⟩
    exact exec_request_stale idle rfl (by simp [bytes16]) (requestOf_read ..) (by simp [Request.inRange, inRange, least, most])
      (State.not_fits_held stale)

/-! ### A request that is held (09 R182) -/

/-- A command of the link writes what it sends. -/
theorem exec_hostInputs {c : Instr} {inputs : List HostInput} (sent : hostInputs c = some inputs) (s : State) :
    exec c s = .next (s.fromHost inputs) := by
  unfold hostInputs at sent
  split at sent
  · next kind body during request =>
    obtain rfl := Option.some.inj sent
    exact exec_hostRequest request
  · split at sent <;> cases sent <;> rfl

/-- A request has at most seven bytes with its kind (11.5). -/
theorem hostRequest_within {c : Instr} {kind : Byte} {body : List Byte} {during : List HostInput}
    (sent : hostRequest c = some (kind, body, during)) : body.length + 1 ≤ requestMost := by
  unfold hostRequest at sent
  split at sent <;> cases sent <;> simp [bytes16, requestMost]

/-- A request that comes whole while another is worked on is held, in place of any held before. -/
theorem State.meanwhile_request {s : State} (framer : s.al.framer = .idle) {kind : Byte} {body : List Byte}
    (within : body.length + 1 ≤ requestMost) :
    s.meanwhile [.bytes (linkRecord kind body)]
      = s.withAl { s.al with lastByte := s.now, held := some ⟨linkRecord kind body, !s.started⟩ } := by
  have fed := feed_linkRecord requestMost kind body within (by decide)
  have some' : linkRecord kind body ≠ [] := by simp [linkRecord, num16, bytes16]
  simp only [State.meanwhile, if_neg some', framer, fed]
  simp [← framer, FramerEvent.bytes]

theorem exec_heldRequest {s : State} {q : EndedRequest} (working : s.al.buffer = .working q) {p : Reply}
    (replied : s.replyTo q = p) :
    exec .heldRequest s = .next (p.state.withAl (s.al.place
      (responseRecord (requestKind q.bytes) (requestSeq q.bytes) p.result p.answer))) := by
  have link : (s.replyTo q).state.al = s.al := State.replyTo_frame s q .al (by decide)
  change Host.Outcome.next (match s.al.buffer with | .working q => s.answerRequest q | _ => s) = _
  subst replied
  simp only [working, State.answerRequest, responseTo, link]

/-- Settles O23: while a request is worked on the link alone moves, and HELD_REQUEST is the reply to it. -/
theorem heldRequestWaitsItsTurn : Obligations.HeldRequestWaitsItsTurn := by
  unfold Obligations.HeldRequestWaitsItsTurn
  refine ⟨fun s => ⟨fun response ready => ?_, fun nothing => ?_⟩, fun s q working =>
    ⟨fun c inputs sent => ?_, fun c kind body sent framer => ?_, ?_, fun judged bad => ?_, fun r judged good => ?_⟩⟩
  · simp [AppLink.readTransfer, ready]
  · obtain empty | ⟨_, working⟩ := nothing
    · simp [AppLink.readTransfer, empty]
    · simp [AppLink.readTransfer, working]
  · rw [exec_hostInputs sent, State.fromHost_working s inputs q working]
  · rw [exec_hostRequest sent, State.hostRequest, State.fromHost_working s _ q working,
      State.meanwhile_request framer (hostRequest_within sent)]
  · intro early
    exact exec_heldRequest working (p := s.refuse .notReady) (by simp [State.replyTo, early])
  · exact exec_heldRequest working (p := s.refuse .badRequest) (by simp [State.replyTo, judged, bad])
  · exact exec_heldRequest working (p := s.judge r) (by simp [State.replyTo, judged, good])

end Sys2Proof.Machine

/-! CLAIM (07 R143). -/

namespace Sys2Proof.Machine

/-! ### The claim slots and the claimable entries (07 R138 to R140) -/

theorem State.emptyClaimSlot_of_full {s : State} (full : ∀ k ∈ s.pu.slots, k.isSome = true) :
    s.emptyClaimSlot = none := by
  rw [State.emptyClaimSlot, List.findIdx?_eq_none_iff]
  intro k mem
  simp [full k mem]

/-- The first slot of a list that is empty. -/
theorem findIdx?_isNone_of_first {α : Type} {xs : List (Option α)} {k : Nat} (empty : xs[k]? = some none)
    (first : ∀ j, j < k → xs[j]? ≠ some none) : xs.findIdx? (·.isNone) = some k := by
  obtain ⟨inSlots, is⟩ := List.getElem?_eq_some_iff.mp empty
  rw [List.findIdx?_eq_some_iff_getElem]
  refine ⟨inSlots, by simp [is], fun j lower => ?_⟩
  have taken := first j lower
  rw [List.getElem?_eq_getElem (by omega)] at taken
  simpa using taken

theorem State.emptyClaimSlot_of_first {s : State} {k : Nat} (empty : s.pu.slots[k]? = some none)
    (first : ∀ j, j < k → s.pu.slots[j]? ≠ some none) : s.emptyClaimSlot = some k :=
  findIdx?_isNone_of_first empty first

theorem State.exists_emptyClaimSlot {s : State} (free : none ∈ s.pu.slots) : ∃ k, s.emptyClaimSlot = some k := by
  cases found : s.emptyClaimSlot with
  | some k => exact ⟨k, rfl⟩
  | none => exact absurd (List.findIdx?_eq_none_iff.mp found none free) (by decide)

theorem State.firstClaimable_of_none {s : State} (none' : ∀ e ∈ s.table, e.claimable s.pu.threshold = false) :
    s.firstClaimable = none := by
  cases found : s.firstClaimable with
  | none => rfl
  | some i =>
    obtain ⟨inTable, _, ranked, -⟩ := State.leastEntry_some found
    simp [none' _ (s.mem_table_entry inTable)] at ranked

/-! ### CLAIM -/

/-- The entry `i` claimed into the slot `k`. -/
def State.claimed (s : State) (i k : Nat) : State :=
  (s.withPu { s.pu with slots := s.pu.slots.set k (some (s.handle i)) }).setEntry i
    { s.entry i with state := .claimed, claimSlot := some k }

/-- A claim does not disturb the attention: the entry stays in the attention set. -/
theorem State.attend_claimed {s : State} {i k : Nat} (law : s.OwnerLaw) (inTable : i < s.table.length)
    (claimable : (s.entry i).claimable s.pu.threshold = true) : (s.claimed i k).attend = s.claimed i k := by
  refine State.attend_of_ownerLaw (State.OwnerLaw.setEntry (s := s.withPu _) law inTable ?_ rfl rfl rfl)
  have stood : (s.entry i).inAttentionSet s.pu.threshold = true := by simp [Entry.inAttentionSet, claimable]
  have stays : ({ s.entry i with state := .claimed, claimSlot := some k } : Entry).inAttentionSet s.pu.threshold = true := by
    simp [Entry.inAttentionSet, Entry.isHeld]
  exact congrArg (· && !(s.entry i).sounded) (stays.trans stood.symm)

theorem State.claim_of_first {s : State} {i k : Nat} (slot : s.emptyClaimSlot = some k)
    (first : s.firstClaimable = some i) : s.claim = ⟨(s.claimed i k).attend, .ok, s.claimAnswer i⟩ := by
  simp only [State.claim, slot, first]
  rfl

/-- The answer of CLAIM: handle, key, revision, category, precedence, length, flags and the handle replaced (11.5). -/
theorem State.claimAnswer_eq {s : State} {i : Nat} {issue : Issue} {category : Category} {precedence : Nat}
    (issued : (s.entry i).issue = some issue) (categorised : (s.entry i).category = some category)
    (preceded : (s.entry i).precedence = some precedence) :
    s.claimAnswer i = [byte i, (s.entry i).generation] ++ issue.bytes ++ [byte category.code, byte precedence]
      ++ num16 ((s.entry i).expandedLength.getD 0)
      ++ [byte ((if (s.entry i).heardRelay = true ∧ (s.entry i).heardBroadcast = false then 1 else 0)
          + (if (s.entry i).verdict = .unresolved then 2 else 0)
          + (if (s.entry i).followsAcknowledged then 4 else 0) + (if (s.entry i).replaces.isSome then 8 else 0))]
      ++ (match (s.entry i).replaces with
        | some h => [byte h.index, h.generation]
        | none => [0, 0]) := by
  have flags : (s.entry i).claimFlags
      = (if (s.entry i).heardRelay = true ∧ (s.entry i).heardBroadcast = false then 1 else 0)
          + (if (s.entry i).verdict = .unresolved then 2 else 0)
          + (if (s.entry i).followsAcknowledged then 4 else 0) + (if (s.entry i).replaces.isSome then 8 else 0) := by
    simp only [Entry.claimFlags, Entry.relayedOnly, bit, mul_ite, mul_one, mul_zero, Bool.and_eq_true, Bool.not_eq_true',
      beq_iff_eq]
  simp only [State.claimAnswer, Entry.issueBytes, Entry.categoryByte, issued, categorised, preceded, flags, Option.getD_some]
  rfl

/-- Settles O24: FULL and NONE change nothing; else the claim of the first claimable entry leaves the attention as it
is. -/
theorem claimHandsOutFirst : Obligations.ClaimHandsOutFirst := by
  unfold Obligations.ClaimHandsOutFirst
  intro s seq during idle
  refine ⟨fun full => ?_, fun free none' => ?_, fun i k issue category precedence law bounded inTable claimable first
    empty lowest issued categorised preceded => ?_⟩
  · exact exec_request idle rfl (by simp) rfl rfl rfl (fun a => by
      have none' := State.emptyClaimSlot_of_full (s := s.withAl a) full
      change (s.withAl a).claim = _
      simp only [State.claim, none']
      rfl)
  · obtain ⟨k, slot⟩ := State.exists_emptyClaimSlot free
    exact exec_request idle rfl (by simp) rfl rfl rfl (fun a => by
      have unclaimable := State.firstClaimable_of_none (s := s.withAl a) none'
      have slot' : (s.withAl a).emptyClaimSlot = some k := slot
      change (s.withAl a).claim = _
      simp only [State.claim, slot', unclaimable]
      rfl)
  · have slot := State.emptyClaimSlot_of_first empty lowest
    have least : s.firstClaimable = some i :=
      State.leastEntry_of_before (p := fun e => e.claimable s.pu.threshold) inTable claimable bounded first
    have claimed : exec (.claim seq during) s
        = .next ((s.claimed i k).answered s.now during (responseRecord 0x21 seq .ok (s.claimAnswer i))) :=
      exec_request idle rfl (by simp) rfl rfl rfl fun a => by
        have carried : (s.withAl a).claim = _ := State.claim_of_first (s := s.withAl a) slot least
        refine carried.trans (congrArg (fun t => (⟨t, .ok, s.claimAnswer i⟩ : Reply)) ?_)
        exact (State.attend_withAl (s.claimed i k) a).trans
          (congrArg (·.withAl a) (State.attend_claimed law inTable claimable))
    rw [claimed, State.claimAnswer_eq issued categorised preceded]
    rfl

end Sys2Proof.Machine

/-! SET_THRESHOLD, SET_OPTOUT and RESTART (07 R137, R138, R148). -/

namespace Sys2Proof.Machine

/-! ### Entries closed together -/

/-- The entries of a list are closed for one reason, in order. -/
def State.closeAll (s : State) (reason : Reason) (is : List Nat) : State := is.foldl (fun s i => s.closeEntry i reason) s

section CloseAll

variable (reason : Reason)

theorem State.closeAll_frame (s : State) (is : List Nat) : s.onlyChanges [.table, .ar, .pu] (s.closeAll reason is) := by
  induction is generalizing s with
  | nil => exact .refl _ _
  | cons i is ih => exact ((State.closeEntry_frame s i reason).mono (by decide)).step (ih _) (fun _ mem => mem)

theorem State.closeAll_pu (s : State) (is : List Nat) : (s.closeAll reason is).pu.threshold = s.pu.threshold
    ∧ (s.closeAll reason is).pu.notices = s.pu.notices ∧ (s.closeAll reason is).pu.optout = s.pu.optout := by
  induction is generalizing s with
  | nil => exact ⟨rfl, rfl, rfl⟩
  | cons i is ih =>
    obtain ⟨threshold, notices, optout⟩ := ih (s.closeEntry i reason)
    obtain ⟨notices', threshold', optout'⟩ := State.emptySlot_pu (s := s) (i := i)
    exact ⟨threshold.trans threshold', notices.trans notices', optout.trans optout'⟩

theorem State.closeEntry_withAl (s : State) (a : AppLink) (i : Nat) :
    (s.withAl a).closeEntry i reason = (s.closeEntry i reason).withAl a := by
  have entry : (s.withAl a).entry i = s.entry i := rfl
  unfold State.closeEntry State.emptySlot
  rw [entry]
  split <;> rfl

theorem State.closeAll_withAl (s : State) (a : AppLink) (is : List Nat) :
    (s.withAl a).closeAll reason is = (s.closeAll reason is).withAl a := by
  induction is generalizing s with
  | nil => rfl
  | cons i is ih =>
    change ((s.withAl a).closeEntry i reason).closeAll reason is = _
    rw [State.closeEntry_withAl, ih]
    rfl

/-- An entry that is not of the list is left as it is. -/
theorem State.closeAll_entry_of_notMem (s : State) {is : List Nat} {j : Nat} (other : j ∉ is) :
    (s.closeAll reason is).entry j = s.entry j := by
  induction is generalizing s with
  | nil => rfl
  | cons i is ih =>
    obtain ⟨ne, rest⟩ := not_or.mp (mt List.mem_cons.mpr other)
    exact (ih (s.closeEntry i reason) rest).trans (s.closeEntry_entry_ne ne reason)

/-- An entry of the list is closed once. -/
theorem State.closeAll_entry_of_mem (s : State) {is : List Nat} (once : is.Nodup) {j : Nat} (mem : j ∈ is)
    (inTable : j < s.table.length) : (s.closeAll reason is).entry j = (s.entry j).close reason s.uptime := by
  induction is generalizing s with
  | nil => exact absurd mem List.not_mem_nil
  | cons i is ih =>
    obtain ⟨notAgain, once⟩ := List.nodup_cons.mp once
    by_cases same : j = i
    · subst same
      exact ((s.closeEntry j reason).closeAll_entry_of_notMem reason notAgain).trans (State.closeEntry_entry_self inTable reason)
    · have kept := ih (s.closeEntry i reason) once (List.mem_of_ne_of_mem same mem)
        (by rwa [State.closeEntry_length])
      refine kept.trans ?_
      rw [s.closeEntry_entry_ne same]
      exact congrArg _ (congrArg TimeBase.uptime (State.closeEntry_frame s i reason .tb (by decide)))

end CloseAll

/-! ### SET_OPTOUT (07 R137) -/

theorem State.mem_indexes_iff {s : State} {p : Entry → Bool} {i : Nat} :
    i ∈ s.indexes p ↔ i < s.table.length ∧ p (s.entry i) = true := by
  simp [State.indexes]

theorem State.indexes_nodup (s : State) (p : Entry → Bool) : (s.indexes p).Nodup := List.nodup_range.filter _

/-- The opt-out set is replaced, and the entries it withholds are closed. -/
def State.optedOut (s : State) (mask : Byte) : State :=
  let s1 := s.withPu { s.pu with optout := optoutOf mask }
  s1.closeAll .withheld (s1.indexes fun e => e.withheldBy (optoutOf mask))

theorem State.setOptout_withAl (s : State) (a : AppLink) (mask : Byte) :
    (s.withAl a).setOptout mask = ⟨(s.optedOut mask).attend.withAl a, .ok, [optoutOf mask]⟩ := by
  have closed := (s.withPu { s.pu with optout := optoutOf mask }).closeAll_withAl .withheld a
    ((s.withPu { s.pu with optout := optoutOf mask }).indexes fun e => e.withheldBy (optoutOf mask))
  change (⟨State.attend (State.closeAll _ _ _), _, _⟩ : Reply) = _
  rw [State.optedOut, ← State.attend_withAl, ← closed]
  rfl

theorem Entry.withheldBy_iff {e : Entry} {mask : Byte} :
    e.withheldBy mask = true ↔ e.state = .pending ∧ ∃ c, e.category = some c ∧ mask.getLsbD c.code = true := by
  cases categorised : e.category with
  | none => simp [Entry.withheldBy, categorised]
  | some c => simp [Entry.withheldBy, categorised, Sys2Proof.Machine.optedOut]

/-- An entry that the opt-out set withholds is closed. -/
theorem State.optedOut_entry_of_withheld {s : State} {mask : Byte} {i : Nat} (inTable : i < s.table.length)
    (withheld : (s.entry i).withheldBy (optoutOf mask) = true) :
    (s.optedOut mask).entry i = (s.entry i).close .withheld s.uptime :=
  State.closeAll_entry_of_mem .withheld (s.withPu _) (State.indexes_nodup _ _)
    (State.mem_indexes_iff.mpr ⟨inTable, withheld⟩) inTable

theorem State.optedOut_entry_of_kept {s : State} {mask : Byte} {i : Nat}
    (kept : (s.entry i).withheldBy (optoutOf mask) = false) : (s.optedOut mask).entry i = s.entry i :=
  State.closeAll_entry_of_notMem .withheld (s.withPu _) fun mem => by
    have withheld : (s.entry i).withheldBy (optoutOf mask) = true := State.mem_indexes mem
    rw [kept] at withheld
    cases withheld

/-! ### The three requests -/

/-- A request after which AU re-evaluates: its answer is that of the link before it, and attention changes the sounded
flags at most. -/
theorem exec_request_attend {s t : State} {c : Instr} {kind seq : Byte} {params : List Byte} {during : List HostInput}
    {r : Request} {answer : List Byte} {ps : List Part} (idle : s.HostIdle)
    (sent : hostRequest c = some (kind, seq :: params, during)) (request : requestOf kind (seq :: params) = some r)
    (inRange : r.inRange = true) (fits : s.fits r = true) (changes : s.onlyChanges ps t)
    (apart : .tb ∉ ps ∧ .sl ∉ ps) (carried : ∀ a, (s.withAl a).carryOut r = ⟨t.attend.withAl a, .ok, answer⟩) :
    ∃ u, exec c s = .next u ∧ u.pu = t.pu
      ∧ (let v := s.answered s.now during (responseRecord kind seq .ok answer)
        u.al = v.al ∧ u.tb = v.tb)
      ∧ s.onlyChanges ([.tb, .table, .au, .al] ++ ps) u ∧ ∀ i, u.entry i = t.attend.entry i := by
  obtain ⟨time, phase⟩ := apart
  have attended : s.onlyChanges ([.table, .au] ++ ps) t.attend :=
    (changes.mono (List.subset_append_right _ _)).step t.attend_frame (by simp)
  have answered := State.answered_eq (s := s) (t := t.attend) (attended .tb (by simp [time])) (attended .sl (by simp [phase]))
    s.now during (responseRecord kind seq .ok answer)
  refine ⟨_, exec_request idle sent (hostRequest_short sent) request inRange fits carried, ?_⟩
  rw [answered]
  refine ⟨t.attend_frame .pu (by decide), ⟨rfl, rfl⟩, ?_, fun _ => rfl⟩
  have within : s.onlyChanges ([.tb, .table, .au, .al] ++ ps) t.attend := attended.mono (by simp +contextual)
  simpa using within

/-- RESTART before AU is told: every claim goes, and the notices. -/
def State.restarted (s : State) : State :=
  (s.withTable (s.table.map Entry.unclaimed)).withPu { s.pu with slots := List.replicate 4 none, notices := [] }

theorem State.restarted_entry (s : State) (i : Nat) : s.restarted.entry i = (s.entry i).unclaimed :=
  s.entry_mapTable rfl i

/-- Settles O29: each of the three is one change of PU and the table, after which AU re-evaluates. -/
theorem hostSettingsAndRestart : Obligations.HostSettingsAndRestart := by
  unfold Obligations.HostSettingsAndRestart
  intro s seq mask during idle
  refine ⟨fun within => ?_, ?_, ?_⟩
  · obtain ⟨u, ran, pu, link, changes, entries⟩ := exec_request_attend (c := .setThreshold seq mask during)
      (t := s.withPu { s.pu with threshold := mask.toNat }) (answer := []) (ps := [.pu]) idle rfl rfl
      (by simp [Request.inRange, within]) rfl (by simp) (by decide)
      fun a => congrArg State.done (State.attend_withAl (s.withPu { s.pu with threshold := mask.toNat }) a)
    refine ⟨u, ran, pu, link, changes.mono (by decide), fun i => ?_⟩
    rw [entries i]
    exact State.reevaluate_soundsLike _ (s.withPu _) i
  · have closed := State.closeAll_frame .withheld (s.withPu { s.pu with optout := optoutOf mask })
      ((s.withPu { s.pu with optout := optoutOf mask }).indexes fun e => e.withheldBy (optoutOf mask))
    obtain ⟨u, ran, pu, link, changes, entries⟩ := exec_request_attend (c := .setOptout seq mask during)
      (t := s.optedOut mask) (answer := [optoutOf mask]) (ps := [.table, .ar, .pu]) idle rfl rfl rfl rfl
      (State.onlyChanges.step (t := s.withPu { s.pu with optout := optoutOf mask }) (by simp) closed (by simp)) (by decide)
      fun a => s.setOptout_withAl a mask
    obtain ⟨threshold, notices, optout⟩ := State.closeAll_pu .withheld (s.withPu { s.pu with optout := optoutOf mask })
      ((s.withPu { s.pu with optout := optoutOf mask }).indexes fun e => e.withheldBy (optoutOf mask))
    refine ⟨u, ran, by rw [pu]; exact optout, by rw [pu]; exact threshold, by rw [pu]; exact notices, link,
      changes.mono (by decide), fun i => ⟨fun c pending categorised out => ?_, fun other => ?_⟩⟩
    · have withheld : (s.entry i).withheldBy (optoutOf mask) = true :=
        Entry.withheldBy_iff.mpr ⟨pending, c, categorised, out⟩
      have closed := State.optedOut_entry_of_withheld (State.inTable_of_state pending (by decide)) withheld
      have kept := (State.reevaluate_of_ineligible (s := s.optedOut mask) (j := i) ((s.optedOut mask).table.length + 1)
        (by rw [closed]; exact Entry.close_ineligible ..)).1
      rw [entries i]
      exact kept.trans closed
    · have stays : (s.entry i).withheldBy (optoutOf mask) = false := by
        rw [Bool.eq_false_iff, Ne, Entry.withheldBy_iff]
        rintro ⟨pending, c, categorised, out⟩
        obtain unlike | kept := other
        · exact unlike pending
        · exact Bool.false_ne_true ((kept c categorised).symm.trans out)
      rw [entries i, ← State.optedOut_entry_of_kept stays]
      exact State.reevaluate_soundsLike _ (s.optedOut mask) i
  · obtain ⟨u, ran, pu, link, changes, entries⟩ := exec_request_attend (c := .restart seq during)
      (t := s.restarted) (answer := []) (ps := [.table, .pu]) idle rfl rfl rfl rfl
      (by simp [State.restarted]) (by decide) fun a => congrArg State.done (State.attend_withAl s.restarted a)
    have sounds (i : Nat) : (u.entry i).soundsLike (s.entry i).unclaimed := by
      rw [entries i, ← s.restarted_entry]
      exact State.reevaluate_soundsLike _ s.restarted i
    refine ⟨u, ran, pu, link, changes.mono (by decide), fun i => ⟨fun claimed => ?_, fun other => ?_⟩⟩
    · simpa only [Entry.unclaimed, claimed, if_true] using sounds i
    · simpa only [Entry.unclaimed, other, if_false] using sounds i

end Sys2Proof.Machine

/-! The backoff of the contender: BUSY, the slots and the late-answer guard (04 R70, R83). -/

namespace Sys2Proof.Machine

/-! ### The hand-over (04 R74, R82, R83) -/

theorem pushEcho_eq {l : List EchoItem} (most : l.length ≤ 4) (e : EchoItem) :
    pushEcho l e = (l ++ [e]).drop (l.length - 3) := by
  obtain short | four := Nat.lt_or_eq_of_le most
  · rw [pushEcho, if_pos short, Nat.sub_eq_zero_of_le (by omega), List.drop_zero]
  · match l, four with
    | [_, _, _, _], _ => rfl

theorem nextRun_eq (run : Nat) (q : Queue) : nextRun run q = if q = .bulk then 0 else min 4 (run + 1) := by
  cases q with
  | bulk => rfl
  | control =>
    change (if run < 4 then run + 1 else 4) = min 4 (run + 1)
    split <;> omega

theorem State.handOver_eq {s : State} {q : Queue} {p : Payload} {rest : List Payload} (head : s.cs.waiting q = p :: rest)
    (most : s.cs.echo.length ≤ 4) : s.handOver q = s.handedOver q p rest := by
  simp only [State.handOver, head, State.handedOver, pushEcho_eq most, nextRun_eq]

theorem Station.waiting_congr {c d : Station} (control : d.control = c.control) (bulk : d.bulk = c.bulk) (q : Queue) :
    d.waiting q = c.waiting q := by
  cases q
  · exact control
  · exact bulk

/-- What a hand-over leaves does not tell which contender stood. -/
theorem State.handedOver_withContender (s : State) (k : Option Contender) (q : Queue) (p : Payload)
    (rest : List Payload) :
    (s.withCs { s.cs with contender := k }).handedOver q p rest = s.handedOver q p rest := by
  cases q <;> rfl

/-- The line lets a contender of count 0 go: the port is UP, no frame is in flight, BUSY is low and the guard does not
run (04 R83). -/
structure Station.Clear (c : Station) : Prop where
  port : c.port = .up
  inFlight : c.inFlight = none
  busy : c.busy = false
  guardEnd : c.guardEnd = none

theorem Station.mayGo_iff {c : Station} {k : Contender} (contender : c.contender = some k) :
    c.mayGo = true ↔ c.Clear ∧ k.count = 0 := by
  simp only [Station.mayGo, contender, Bool.and_eq_true, beq_iff_eq, Option.isNone_iff_eq_none, Bool.not_eq_true']
  exact ⟨fun ⟨⟨⟨⟨port, flight⟩, count⟩, busy⟩, guard⟩ => ⟨⟨port, flight, busy, guard⟩, count⟩,
    fun ⟨⟨port, flight, busy, guard⟩, count⟩ => ⟨⟨⟨⟨port, flight⟩, count⟩, busy⟩, guard⟩⟩

theorem State.tryHandOver_of_clear {s : State} {k : Contender} {p : Payload} {rest : List Payload}
    (contender : s.cs.contender = some k) (clear : s.cs.Clear) (zero : k.count = 0) (most : s.cs.echo.length ≤ 4)
    (head : s.cs.waiting k.queue = p :: rest) : s.tryHandOver = s.handedOver k.queue p rest := by
  have goes : s.cs.mayGo = true := (Station.mayGo_iff contender).mpr ⟨clear, zero⟩
  simp only [State.tryHandOver, goes, if_true, contender, State.handOver_eq head most]

/-- A contender that may not go stays. -/
theorem State.tryHandOver_stays {s : State} (stays : ∀ k, s.cs.contender = some k → s.cs.Clear → k.count ≠ 0) :
    s.tryHandOver = s := by
  have not : ¬ s.cs.mayGo = true := by
    cases contender : s.cs.contender with
    | none => simp [Station.mayGo, contender]
    | some k =>
      rw [Station.mayGo_iff contender]
      exact fun ⟨clear, zero⟩ => stays k contender clear zero
  rw [State.tryHandOver, if_neg not]

/-! ### Counting on (04 R83) -/

section CountOn

variable {s : State} {k : Contender}

theorem State.countOn_of_counting (counting : k.count ≠ 0) : s.countOn k = s.withCs
    { s.cs with contender := some ⟨k.queue, k.count, some (s.now + s.settings.slotTime)⟩ } := by
  rw [State.countOn, if_neg counting]

theorem State.countOn_of_guarded (zero : k.count = 0) (guarded : s.cs.guardEnd ≠ none) :
    s.countOn k = s.withCs { s.cs with contender := some ⟨k.queue, 0, none⟩ } := by
  have stays := State.tryHandOver_stays (s := s.withCs { s.cs with contender := some ⟨k.queue, k.count, none⟩ })
    fun _ _ clear => absurd clear.guardEnd guarded
  rw [State.countOn, if_pos zero]
  rw [zero] at stays ⊢
  exact stays

theorem State.countOn_of_clear {p : Payload} {rest : List Payload} (zero : k.count = 0) (clear : s.cs.Clear)
    (most : s.cs.echo.length ≤ 4) (head : s.cs.waiting k.queue = p :: rest) :
    s.countOn k = s.handedOver k.queue p rest := by
  obtain ⟨port, flight, busy, guard⟩ := clear
  have goes := State.tryHandOver_of_clear (s := s.withCs { s.cs with contender := some ⟨k.queue, k.count, none⟩ }) rfl
    ⟨port, flight, busy, guard⟩ zero most ((Station.waiting_congr rfl rfl _).trans head)
  rw [State.countOn, if_pos zero]
  exact goes.trans (s.handedOver_withContender _ _ _ _)

end CountOn

/-! ### The commands -/

theorem exec_busyFall {s : State} (busy : s.cs.busy = true) {k : Contender} (contender : s.cs.contender = some k) :
    exec .busyFall s = .next ((s.withCs { s.cs with busy := false }).countOn k) := by
  simp only [exec, execBusyFall, busy, if_true, State.withCs_cs, contender]

/-- A BUSY line that is low has no fall. -/
theorem exec_busyFall_of_low {s : State} (low : s.cs.busy = false) : exec .busyFall s = .next s := by
  have same : s.withCs { s.cs with busy := false } = s := by rw [← low]; rfl
  simp only [exec, execBusyFall, low, Bool.false_eq_true, if_false, same]

theorem exec_busyFall_of_no_contender {s : State} (none' : s.cs.contender = none) :
    exec .busyFall s = .next (s.withCs { s.cs with busy := false }) := by
  simp only [exec, execBusyFall, State.withCs_cs, none', ite_self]

theorem exec_backoffSlotEnd {s : State} {k : Contender} {tEnd : Nat} (rises : Bool)
    (contender : s.cs.contender = some k) (slot : k.slotEnd = some tEnd) (inTime : tEnd ≤ lastMs) :
    exec (.backoffSlotEnd rises) s = .next (State.slotEnds k rises (s.runTo tEnd)) := by
  simp only [exec, execBackoffSlotEnd, contender, slot, State.runsOut_eq _ _ inTime]

theorem exec_lateAnswerGuardEnd {s : State} {tEnd : Nat} (guard : s.cs.guardEnd = some tEnd) (inTime : tEnd ≤ lastMs) :
    exec .lateAnswerGuardEnd s
      = .next ((s.runTo tEnd).withCs { s.cs with guardEnd := none }).tryHandOver := by
  simp only [exec, execLateAnswerGuardEnd, guard, State.runsOut_eq _ _ inTime]
  rfl

/-- Settles O31: a slot's end, a fall of BUSY and the guard's end each come to `State.countOn` or to the hand-over. -/
theorem backoffRuns : Obligations.BackoffRuns := by
  unfold Obligations.BackoffRuns
  refine ⟨fun s most => ⟨rfl, exec_busyFall_of_low, fun busy => ⟨exec_busyFall_of_no_contender, fun k contender => ?_⟩⟩,
    fun s k tEnd contender slot inTime most quiet => ?_, fun s tEnd guard inTime most => ⟨fun stays => ?_,
      fun k p rest contender zero quiet up flight head => ?_⟩⟩
  · rw [exec_busyFall busy contender]
    refine ⟨fun counting => ?_, fun zero guarded => ?_, fun p rest zero guard up flight head => ?_⟩
    · exact congrArg Host.Outcome.next (State.countOn_of_counting (s := s.withCs _) counting)
    · exact congrArg Host.Outcome.next (State.countOn_of_guarded (s := s.withCs _) zero guarded)
    · exact congrArg Host.Outcome.next (State.countOn_of_clear (s := s.withCs { s.cs with busy := false }) zero
        ⟨up, flight, rfl, guard⟩ most ((Station.waiting_congr rfl rfl _).trans head))
  · let left : Contender := ⟨k.queue, k.count - 1, none⟩
    simp only [exec_backoffSlotEnd _ contender slot inTime]
    refine ⟨rfl, fun counting => ?_, fun zero guarded => ?_, fun p rest zero guard up flight head => ?_⟩
    · exact congrArg Host.Outcome.next (State.countOn_of_counting (s := s.runTo tEnd) (k := left) counting)
    · exact congrArg Host.Outcome.next (State.countOn_of_guarded (s := s.runTo tEnd) (k := left) zero guarded)
    · exact congrArg Host.Outcome.next (State.countOn_of_clear (s := s.runTo tEnd) (k := left) zero
        ⟨up, flight, quiet, guard⟩ most head)
  · rw [exec_lateAnswerGuardEnd guard inTime, State.tryHandOver_stays fun k contender clear zero => ?_]
    obtain none' | busy | ⟨k', contender', counting⟩ := stays
    · exact nomatch none'.symm.trans contender
    · exact nomatch busy.symm.trans clear.busy
    · obtain rfl : k' = k := Option.some.inj (contender'.symm.trans contender)
      exact counting zero
  · rw [exec_lateAnswerGuardEnd guard inTime]
    exact congrArg Host.Outcome.next (State.tryHandOver_of_clear
      (s := (s.runTo tEnd).withCs { s.cs with guardEnd := none }) contender ⟨up, flight, quiet, rfl⟩ zero most
      ((Station.waiting_congr rfl rfl _).trans head))

end Sys2Proof.Machine

/-! Lost frames: the answer LOST and the port timer (04 R70, R71, R85). -/

namespace Sys2Proof.Machine

/-! ### A lost frame back in its queue (04 R85) -/

theorem requeued_of_none {l : List Payload} {p : Payload} (others : ∀ w ∈ l, p.sameIdentity w = false) :
    requeued l p = p :: l := by
  have none' : l.find? (fun w => p.sameIdentity w) = none := by simpa using others
  simp only [requeued, none']

theorem requeued_of_only {l : List Payload} {p w : Payload} (mem : w ∈ l) (same : p.sameIdentity w = true)
    (only : ∀ v ∈ l, p.sameIdentity v = true → v = w) :
    requeued l p = p.mergeLost w :: l.filter fun v => !p.sameIdentity v := by
  cases found : l.find? (fun w => p.sameIdentity w) with
  | none => exact absurd same (by simpa using List.find?_eq_none.mp found w mem)
  | some v =>
    obtain rfl := only v (List.mem_of_find?_eq_some found) (List.find?_some found)
    simp only [requeued, found]

/-- Two WANT frames are united, and of any other frame the one queued meanwhile stays. -/
theorem Payload.mergeLost_eq {lost queued : Payload} (notWant : lost.kind ≠ .want) : lost.mergeLost queued = queued := by
  cases lost with
  | want issue m => exact absurd rfl notWant
  | _ => cases queued <;> rfl

/-- The station once a lost frame is put back, or discarded where it was withdrawn. -/
structure Station.PutBack (c d : Station) (f : InFlight) : Prop where
  port : d.port = c.port
  contender : d.contender = c.contender
  inFlight : d.inFlight = none
  controlRun : d.controlRun = c.controlRun
  timeoutRun : d.timeoutRun = c.timeoutRun
  cw : d.cw = c.cw
  guardEnd : d.guardEnd = c.guardEnd
  discarded : f.withdrawn = true → d.control = c.control ∧ d.bulk = c.bulk
  back : f.withdrawn = false → d.waiting f.payload.queue = requeued (c.waiting f.payload.queue) f.payload

theorem State.putBack_puts (s : State) (f : InFlight) : s.cs.PutBack (s.putBack f).cs f := by
  unfold State.putBack
  dsimp only
  split
  · next withdrawn =>
    exact ⟨rfl, rfl, rfl, rfl, rfl, rfl, rfl, fun _ => ⟨rfl, rfl⟩, fun kept => nomatch withdrawn.symm.trans kept⟩
  · next kept =>
    refine ⟨?_, ?_, ?_, ?_, ?_, ?_, ?_, fun withdrawn => absurd withdrawn kept, fun _ => ?_⟩ <;>
      generalize f.payload.queue = q <;> cases q <;> rfl

theorem State.contendAfterLoss_of_kept {s : State} {f : InFlight} (kept : f.withdrawn = false) :
    s.contendAfterLoss f = s.contend f.payload.queue := by simp [State.contendAfterLoss, kept]

theorem State.contendAfterLoss_of_withdrawn {s : State} {f : InFlight} (withdrawn : f.withdrawn = true) :
    s.contendAfterLoss f = s.arbitrate := by simp [State.contendAfterLoss, withdrawn]

/-- The frame put back contends. -/
theorem State.contendAfterLoss_contends {s : State} {f : InFlight} {p : Payload} {rest : List Payload}
    (kept : f.withdrawn = false) (flight : s.cs.inFlight = none) (window : 1 ≤ s.cs.cw)
    (head : s.cs.waiting f.payload.queue = p :: rest) : (s.contendAfterLoss f).contends f.payload.queue p := by
  rw [State.contendAfterLoss_of_kept kept]
  exact State.contend_contends flight window head

/-! ### LOST (04 R85, R86) -/

/-- The frame in flight lost, before another contends. -/
def State.frameLost (s : State) (f : InFlight) : State :=
  ((s.count .framesLost).withCs { s.cs with
    timeoutRun := 0, cw := doubledWindow s.cs.cw s.settings.cwMax }).putBack f

theorem exec_lost {s : State} {f : InFlight} (flight : s.cs.inFlight = some f) (guard : s.cs.guardEnd = none) :
    exec .lost s = .next ((s.frameLost f).contendAfterLoss f) := by
  have answered : s.cs.answered = some f := by simp [Station.answered, guard, flight]
  simp only [exec, execLost, answered, State.frameLost]

theorem State.frameLost_puts (s : State) (f : InFlight) : Station.PutBack
    { s.cs with timeoutRun := 0, cw := doubledWindow s.cs.cw s.settings.cwMax } (s.frameLost f).cs f :=
  State.putBack_puts ((s.count .framesLost).withCs
    { s.cs with timeoutRun := 0, cw := doubledWindow s.cs.cw s.settings.cwMax }) f

theorem State.frameLost_frame (s : State) (f : InFlight) : s.onlyChanges [.cs, .counters] (s.frameLost f) := by
  simp [State.frameLost]

theorem State.frameLost_counters (s : State) (f : InFlight) :
    (s.frameLost f).counters = { s.counters with framesLost := bump s.counters.framesLost } :=
  State.putBack_frame _ f .counters (by decide)

/-- Settles O33: LOST is `State.frameLost`, after which the frame put back contends, or the arbiter's choice. -/
theorem lostFrameComesBack : Obligations.LostFrameComesBack := by
  unfold Obligations.LostFrameComesBack
  intro s f flight guard contender up window queue
  have puts := s.frameLost_puts f
  have line := (s.frameLost f).contendAfterLoss_sameLine f
  have frame := (s.frameLost f).contendAfterLoss_frame f
  have window' : 1 ≤ (s.frameLost f).cs.cw := by rw [puts.cw]; exact window
  have up' : (s.frameLost f).cs.port = .up := puts.port.trans up
  have contender' : (s.frameLost f).cs.contender = none := puts.contender.trans contender
  have contends {p : Payload} {rest : List Payload} (kept : f.withdrawn = false) (head : requeued queue f.payload = p :: rest) :
      ((s.frameLost f).contendAfterLoss f).contends f.payload.queue p :=
    State.contendAfterLoss_contends kept puts.inFlight window' ((puts.back kept).trans head)
  have chosen {q : Queue} {p : Payload} (withdrawn : f.withdrawn = true) (choice : (s.frameLost f).cs.choice = some q)
      (head : ((s.frameLost f).cs.waiting q).head? = some p) : ((s.frameLost f).contendAfterLoss f).contends q p := by
    rw [State.contendAfterLoss_of_withdrawn withdrawn]
    exact State.arbitrate_contends up' puts.inFlight contender' window' choice head
  have waits {l : List Payload} {p : Payload} (head : l.head? = some p) : l ≠ [] := by rintro rfl; cases head
  refine ⟨_, exec_lost flight guard, (frame .counters (by decide)).trans (s.frameLost_counters f),
    line.timeoutRun.trans puts.timeoutRun, line.cw.trans puts.cw, line.port.trans up',
    ((s.frameLost_frame f).mono (by decide)).step frame (by decide),
    fun kept others => contends kept (requeued_of_none others), fun kept w mem same only => ⟨fun notWant => ?_,
      fun issue m n lost queued => ?_⟩, fun withdrawn control bulk => ?_, fun withdrawn p control head => ?_,
    fun withdrawn p run head => ?_, fun withdrawn p noTurn head => ?_⟩
  · rw [← Payload.mergeLost_eq (queued := w) notWant]
    exact contends kept (requeued_of_only mem same only)
  · have united := contends kept (requeued_of_only mem same only)
    rwa [lost, queued] at united
  · obtain ⟨sameControl, sameBulk⟩ := puts.discarded withdrawn
    rw [State.contendAfterLoss_of_withdrawn withdrawn, State.arbitrate_of_rests fun _ _ _ =>
      ⟨sameControl.trans control, sameBulk.trans bulk⟩]
    exact ⟨puts.inFlight, contender'⟩
  · obtain ⟨sameControl, sameBulk⟩ := puts.discarded withdrawn
    have head' : (s.frameLost f).cs.bulk.head? = some p := by rw [sameBulk]; exact head
    exact chosen withdrawn (Station.choice_bulk (sameControl.trans control) (waits head')) head'
  · obtain ⟨-, sameBulk⟩ := puts.discarded withdrawn
    have head' : (s.frameLost f).cs.bulk.head? = some p := by rw [sameBulk]; exact head
    exact chosen withdrawn (Station.choice_bulk_of_run (puts.controlRun.trans run) (waits head')) head'
  · obtain ⟨sameControl, sameBulk⟩ := puts.discarded withdrawn
    have head' : (s.frameLost f).cs.control.head? = some p := by rw [sameControl]; exact head
    have noTurn' : (s.frameLost f).cs.controlRun ≠ 4 ∨ (s.frameLost f).cs.bulk = [] := by
      rw [puts.controlRun, sameBulk]; exact noTurn
    exact chosen withdrawn (Station.choice_control noTurn' (waits head')) head'

/-! ### The port timer (04 R70, R71) -/

/-- A head of a queue contends while the guard runs: it waits, whatever its count. -/
theorem State.contend_guarded {s : State} (guarded : s.cs.guardEnd ≠ none) (q : Queue) :
    ∃ slot, (s.contend q).cs = { s.cs with contender := some ⟨q, s.draw s.cs.cw, slot⟩ } := by
  refine ⟨if s.draw s.cs.cw = 0 ∨ s.cs.busy then none else some (s.now + s.settings.slotTime), ?_⟩
  exact congrArg State.cs (State.tryHandOver_stays (s := s.drew.withCs { s.cs with contender := some ⟨q, s.draw s.cs.cw,
    if s.draw s.cs.cw = 0 ∨ s.cs.busy then none else some (s.now + s.settings.slotTime)⟩ })
    fun _ _ clear => absurd clear.guardEnd guarded)

/-- The station after a contention that the guard holds up: the queues stand, and a contender may. -/
structure Station.Waits (c d : Station) : Prop where
  inFlight : d.inFlight = c.inFlight
  control : d.control = c.control
  bulk : d.bulk = c.bulk

theorem State.contend_waits {s : State} (guarded : s.cs.guardEnd ≠ none) (q : Queue) :
    s.cs.Waits (s.contend q).cs := by
  obtain ⟨slot, is⟩ := State.contend_guarded guarded q
  rw [is]
  exact ⟨rfl, rfl, rfl⟩

theorem State.arbitrate_waits {s : State} (guarded : s.cs.guardEnd ≠ none) : s.cs.Waits s.arbitrate.cs := by
  unfold State.arbitrate
  split
  · split
    · exact State.contend_waits guarded _
    · exact ⟨rfl, rfl, rfl⟩
  · exact ⟨rfl, rfl, rfl⟩

theorem State.contendAfterLoss_waits {s : State} (guarded : s.cs.guardEnd ≠ none) (f : InFlight) :
    s.cs.Waits (s.contendAfterLoss f).cs := by
  unfold State.contendAfterLoss
  split
  · exact State.arbitrate_waits guarded
  · exact State.contend_waits guarded _

/-- The queue that the arbiter chooses where a frame waits (04 R82). -/
theorem Station.choice_eq {c : Station} (waits : c.control ≠ [] ∨ c.bulk ≠ []) :
    c.choice = some (if c.control = [] ∨ (c.controlRun = 4 ∧ c.bulk ≠ []) then .bulk else .control) := by
  unfold Station.choice
  by_cases turn : c.controlRun = 4 ∧ c.bulk ≠ []
  · simp [turn]
  · by_cases control : c.control = []
    · simp [control, waits.resolve_left (not_not.mpr control)]
    · simp [control, turn]

theorem State.arbitrate_of_choice {s : State} {q : Queue} (up : s.cs.port = .up) (flight : s.cs.inFlight = none)
    (contender : s.cs.contender = none) (choice : s.cs.choice = some q) : s.arbitrate = s.contend q := by
  simp [State.arbitrate, up, flight, contender, choice]

/-- The frame in flight timed out, before another contends: counted lost, with the guard running. -/
def State.timedOut (s : State) (f : InFlight) : State :=
  (((s.count .framesLost).flag .radioFault).withCs { s.cs with
    timeoutRun := s.cs.timeoutRun + 1, cw := doubledWindow s.cs.cw s.settings.cwMax
    guardEnd := some (s.now + s.settings.portTimeout) }).putBack f

theorem State.timedOut_puts (s : State) (f : InFlight) : Station.PutBack
    { s.cs with timeoutRun := s.cs.timeoutRun + 1, cw := doubledWindow s.cs.cw s.settings.cwMax
                guardEnd := some (s.now + s.settings.portTimeout) } (s.timedOut f).cs f :=
  State.putBack_puts (((s.count .framesLost).flag .radioFault).withCs { s.cs with
    timeoutRun := s.cs.timeoutRun + 1, cw := doubledWindow s.cs.cw s.settings.cwMax
    guardEnd := some (s.now + s.settings.portTimeout) }) f

theorem State.timedOut_frame (s : State) (f : InFlight) : s.onlyChanges [.cs, .flags, .counters] (s.timedOut f) := by
  simp [State.timedOut]

theorem State.timedOut_counters (s : State) (f : InFlight) :
    (s.timedOut f).counters = { s.counters with framesLost := bump s.counters.framesLost } :=
  State.putBack_frame _ f .counters (by decide)

theorem State.timedOut_flags (s : State) (f : InFlight) :
    (s.timedOut f).flags = { s.flags with radioFault := true } :=
  State.putBack_frame _ f .flags (by decide)

/-- The state once a port timer has run out: FAULTED at the third in a row, else with another contender. -/
theorem State.portTimesOut_eq (s : State) (f : InFlight) : State.portTimesOut f s
    = if 3 ≤ s.cs.timeoutRun + 1 then (s.timedOut f).withCs { (s.timedOut f).cs with port := .faulted }
      else (s.timedOut f).contendAfterLoss f := by
  have run : (s.timedOut f).cs.timeoutRun = s.cs.timeoutRun + 1 := (s.timedOut_puts f).timeoutRun
  rw [← run]
  rfl

theorem exec_portTimeout {s : State} {f : InFlight} (flight : s.cs.inFlight = some f) (inTime : f.timerEnd ≤ lastMs) :
    exec .portTimeout s = .next (State.portTimesOut f (s.runTo f.timerEnd)) := by
  simp only [exec, execPortTimeout, flight, State.runsOut_eq _ _ inTime]

/-- What a port timer that has run out leaves, whichever port results. -/
structure State.PortTimesOut (s t : State) (f : InFlight) : Prop where
  flags : t.flags = { s.flags with radioFault := true }
  now : t.now = s.now
  counters : t.counters = { s.counters with framesLost := bump s.counters.framesLost }
  timeoutRun : t.cs.timeoutRun = s.cs.timeoutRun + 1
  cw : t.cs.cw = min (2 * s.cs.cw) s.settings.cwMax
  guardEnd : t.cs.guardEnd = some (s.now + s.settings.portTimeout)
  inFlight : t.cs.inFlight = none
  changes : s.onlyChanges [.tb, .cs, .flags, .counters] t
  control : t.cs.control = (s.timedOut f).cs.control
  bulk : t.cs.bulk = (s.timedOut f).cs.bulk

theorem State.portTimesOut_leaves (s : State) (f : InFlight) : s.PortTimesOut (State.portTimesOut f s) f := by
  have puts := s.timedOut_puts f
  have frame := s.timedOut_frame f
  have now : (s.timedOut f).now = s.now := congrArg TimeBase.ms (frame .tb (by decide))
  rw [State.portTimesOut_eq]
  split
  · exact ⟨s.timedOut_flags f, now, s.timedOut_counters f, puts.timeoutRun, puts.cw, puts.guardEnd, puts.inFlight,
      (frame.mono (by decide)).step (State.withCs_frame _ _) (by decide), rfl, rfl⟩
  · have line := (s.timedOut f).contendAfterLoss_sameLine f
    have later := (s.timedOut f).contendAfterLoss_frame f
    have waits := State.contendAfterLoss_waits (s := s.timedOut f) (by rw [puts.guardEnd]; nofun) f
    exact ⟨(later .flags (by decide)).trans (s.timedOut_flags f), (State.contendAfterLoss_now _ f).trans now,
      (later .counters (by decide)).trans (s.timedOut_counters f), line.timeoutRun.trans puts.timeoutRun,
      line.cw.trans puts.cw, line.guardEnd.trans puts.guardEnd, waits.inFlight.trans puts.inFlight,
      (frame.mono (by decide)).step later (by decide), waits.control, waits.bulk⟩

/-- Settles O34: what every port timeout leaves, and then the port and the contender by the timeout run. -/
theorem portTimeoutCountsLost : Obligations.PortTimeoutCountsLost := by
  unfold Obligations.PortTimeoutCountsLost
  intro s f flight contender up inTime few window at' queue others
  have ran := exec_portTimeout flight inTime
  have leaves := at'.portTimesOut_leaves f
  have puts := at'.timedOut_puts f
  have guarded : (at'.timedOut f).cs.guardEnd ≠ none := by rw [puts.guardEnd]; nofun
  have window' : 0 < (at'.timedOut f).cs.cw := by rw [puts.cw]; exact window
  have count : (at'.timedOut f).draw (at'.timedOut f).cs.cw < (at'.timedOut f).cs.cw := Nat.mod_lt _ window'
  have waiting (kept : f.withdrawn = false) : (State.portTimesOut f at').cs.waiting f.payload.queue
      = requeued queue f.payload :=
    (Station.waiting_congr leaves.control leaves.bulk _).trans (puts.back kept)
  refine ⟨_, ran, leaves.flags, leaves.now, leaves.counters, leaves.timeoutRun, leaves.cw, leaves.guardEnd,
    leaves.inFlight, ((s.runTo_frame f.timerEnd).mono (by decide)).step leaves.changes (by decide), fun withdrawn => ?_,
    fun kept none' => (waiting kept).trans (requeued_of_none none'), fun kept w mem same only =>
      ⟨fun notWant => ?_, fun issue m n lost queued => ?_⟩, fun third => ?_, fun fewer => ?_⟩
  · obtain ⟨control, bulk⟩ := puts.discarded withdrawn
    exact ⟨leaves.control.trans control, leaves.bulk.trans bulk⟩
  · rw [waiting kept, requeued_of_only mem same only, Payload.mergeLost_eq notWant]
  · have united : f.payload.mergeLost w = .want issue (m ||| n) := by rw [lost, queued]; rfl
    rw [waiting kept, requeued_of_only mem same only, united]
  · have run : 3 ≤ at'.cs.timeoutRun + 1 := by change 3 ≤ s.cs.timeoutRun + 1; omega
    rw [State.portTimesOut_eq, if_pos run]
    exact ⟨rfl, puts.contender.trans contender⟩
  · have run : ¬ 3 ≤ at'.cs.timeoutRun + 1 := by change ¬ 3 ≤ s.cs.timeoutRun + 1; omega
    have up' : (at'.timedOut f).cs.port = .up := puts.port.trans up
    have contender' : (at'.timedOut f).cs.contender = none := puts.contender.trans contender
    have line := (at'.timedOut f).contendAfterLoss_sameLine f
    have contends (q : Queue) (goes : (at'.timedOut f).contendAfterLoss f = (at'.timedOut f).contend q) :
        ∃ k, ((at'.timedOut f).contendAfterLoss f).cs.contender = some k ∧ k.queue = q
          ∧ k.count < ((at'.timedOut f).contendAfterLoss f).cs.cw := by
      obtain ⟨slot, is⟩ := State.contend_guarded guarded q
      rw [goes, is]
      exact ⟨_, rfl, rfl, count⟩
    rw [State.portTimesOut_eq, if_neg run]
    refine ⟨line.port.trans up', fun kept => contends _ (State.contendAfterLoss_of_kept kept),
      fun withdrawn control bulk => ?_, fun withdrawn waits => ?_⟩
    · obtain ⟨sameControl, sameBulk⟩ := puts.discarded withdrawn
      rw [State.contendAfterLoss_of_withdrawn withdrawn, State.arbitrate_of_rests fun _ _ _ =>
        ⟨sameControl.trans control, sameBulk.trans bulk⟩]
      exact contender'
    · obtain ⟨sameControl, sameBulk⟩ := puts.discarded withdrawn
      have choice := Station.choice_eq (c := (at'.timedOut f).cs) (by rw [sameControl, sameBulk]; exact waits)
      rw [sameControl, sameBulk, puts.controlRun] at choice
      obtain ⟨k, stands, queue', below⟩ := contends _ ((State.contendAfterLoss_of_withdrawn withdrawn).trans
        (State.arbitrate_of_choice up' puts.inFlight contender' choice))
      exact ⟨k, stands, below, queue'⟩

end Sys2Proof.Machine

/-! The reception filter (04 R74, R76; 05 R94; 06 R130). -/

namespace Sys2Proof.Machine

/-! ### A frame built of a body or a sender that its kind does not allow (04 R76) -/

/-- The filter reads kind, sender and body back from a frame, and judges the last two. -/
theorem parseFrame_frameBytes_of_bad {kind : FrameKind} {sender : Word32} {body : List Byte}
    (bad : bodyGood kind body = false ∨ tagGood sender = false) : parseFrame (frameBytes kind sender body) = none := by
  have bytes : frameBytes kind sender body = (kind.code ++ 1#4 : BitVec 8) :: 0#8 :: sender.extractLsb' 24 8
      :: sender.extractLsb' 16 8 :: sender.extractLsb' 8 8 :: sender.extractLsb' 0 8
      :: (BitVec.ofNat 16 body.length).extractLsb' 8 8 :: (BitVec.ofNat 16 body.length).extractLsb' 0 8
      :: (body ++ bytes16 (frameCheck kind sender body)) := by
    simp [frameBytes, frameHeader, bytes32, num16, bytes16]
  have length : (body ++ bytes16 (frameCheck kind sender body)).length - 2 = body.length := by simp
  have kindRead : (kind.code ++ 1#4 : BitVec 8).extractLsb' 4 4 = kind.code := by cases kind <;> rfl
  rw [parseFrame.eq_def, bytes]
  simp only [length, List.take_left', List.drop_left', kindRead, frameKind_ofCode]
  simp only [bytes16]
  refine if_neg ?_
  rintro ⟨-, -, -, -, -, good, tag⟩
  rw [word32_of_bytes] at tag
  obtain badBody | badTag := bad
  · exact Bool.false_ne_true (badBody.symm.trans good)
  · exact Bool.false_ne_true (badTag.symm.trans tag)

/-! ### What the filter drops -/

/-- A frame's command is the frame heard. -/
theorem exec_relayFrame {c : Instr} {kind : FrameKind} {sender : Word32} {body : List Byte}
    (sent : relayFrame c = some (kind, sender, body)) (s : State) :
    exec c s = .next (s.hearFrame kind sender body) := by
  unfold relayFrame at sent
  split at sent <;> cases sent <;> rfl

section Filter

variable {s : State} {kind : FrameKind} {sender : Word32} {body : List Byte}

theorem State.receive_of_down (down : s.cs.port = .down) (bytes : List Byte) : s.receive bytes = s := by
  rw [State.receive, if_pos down]

theorem State.receive_of_bad (up : s.cs.port ≠ .down) {bytes : List Byte} (bad : parseFrame bytes = none) :
    s.receive bytes = s.count .linkError := by
  rw [State.receive, if_neg up, bad]

/-- A frame that passes the filter. -/
theorem State.hearFrame_of_good (up : s.cs.port ≠ .down) (good : bodyGood kind body = true) (tag : tagGood sender = true) :
    s.hearFrame kind sender body = s.takeFrame ⟨kind, sender, body, frameCheck kind sender body⟩ := by
  rw [State.hearFrame, State.receive, if_neg up, parseFrame_frameBytes kind sender body good tag]

theorem State.takeFrame_of_echo {f : Frame} (echo : (⟨f.sender, f.kind, f.check⟩ : EchoItem) ∈ s.cs.echo) :
    s.takeFrame f = s := by
  have is : s.cs.isEcho f = true := by simpa [Station.isEcho] using echo
  rw [State.takeFrame, if_pos is]

/-- A frame that is heard, with a body that its block finds wrong. -/
theorem exec_relayFrame_of_wrong {c : Instr} (sent : relayFrame c = some (kind, sender, body)) (hears : s.Hears kind sender body)
    (wrong : s.deliver kind sender body = s.count .linkError) : exec c s = .next (s.count .linkError) := by
  rw [exec_relayFrame sent, State.hearFrame_of_hears hears, wrong]

end Filter

/-- Settles O35: each frame is dropped at its place in the filter, or by the block that is to read its body. -/
theorem frameFilterDrops : Obligations.FrameFilterDrops := by
  unfold Obligations.FrameFilterDrops
  refine fun s => ⟨fun bytes bad => ?_, fun c kind sender body sent => ⟨fun down => ?_, fun up bad => ?_,
    fun up good tag echo => ?_⟩, fun sender body => ⟨fun hears wrong => ?_, fun hears wrong => ?_, fun hears wrong => ?_,
      fun hears wrong => ?_, fun hears wrong => ?_, fun hears wrong => ?_⟩⟩
  · refine congrArg Host.Outcome.next ?_
    split
    · next down => exact State.receive_of_down down bytes
    · next up => exact State.receive_of_bad up bad
  · rw [exec_relayFrame sent, State.hearFrame, State.receive_of_down down]
  · rw [exec_relayFrame sent, State.hearFrame, State.receive_of_bad up (parseFrame_frameBytes_of_bad bad)]
  · rw [exec_relayFrame sent, State.hearFrame_of_good up good tag, State.takeFrame_of_echo echo]
  · exact exec_relayFrame_of_wrong rfl hears (by simp only [State.deliver, State.hearOffer, wrong])
  · exact exec_relayFrame_of_wrong rfl hears (by simp only [State.deliver, State.hearWant, wrong])
  · exact exec_relayFrame_of_wrong rfl hears (by simp only [State.deliver, State.hearTally, wrong])
  · exact exec_relayFrame_of_wrong rfl hears (by simp only [State.deliver, State.hearStand, wrong])
  · exact exec_relayFrame_of_wrong rfl hears (by simp only [State.deliver, State.hearCovered, wrong])
  · exact exec_relayFrame_of_wrong rfl hears (by simp only [State.deliver, State.hearYield, wrong])

end Sys2Proof.Machine

/-! READY rises and falls (04 R68 to R70, 05 R105). -/

namespace Sys2Proof.Machine

/-! ### A step for each entry of a list -/

section EachEntry

variable {f : State → Nat → State} (own : ∀ u i j, j ≠ i → (f u i).entry j = u.entry j)

include own

theorem State.foldl_entry_of_notMem {is : List Nat} {j : Nat} (other : j ∉ is) (s : State) :
    (is.foldl f s).entry j = s.entry j := by
  induction is generalizing s with
  | nil => rfl
  | cons i is ih =>
    obtain ⟨ne, rest⟩ := not_or.mp (mt List.mem_cons.mpr other)
    exact (ih rest (f s i)).trans (own s i j ne)

/-- An entry of the list is where its own step leaves it, in a state that the steps before it have kept to `P`. -/
theorem State.foldl_entry_of_mem {P : State → Prop} (step : ∀ u i, P u → P (f u i)) {is : List Nat} (once : is.Nodup)
    {j : Nat} (mem : j ∈ is) {s : State} (start : P s) :
    ∃ u, P u ∧ u.entry j = s.entry j ∧ (is.foldl f s).entry j = (f u j).entry j := by
  induction is generalizing s with
  | nil => exact absurd mem List.not_mem_nil
  | cons i is ih =>
    obtain ⟨notAgain, once⟩ := List.nodup_cons.mp once
    by_cases same : j = i
    · subst same
      exact ⟨s, start, rfl, State.foldl_entry_of_notMem own notAgain _⟩
    · obtain ⟨u, kept, entry, is'⟩ := ih once (List.mem_of_ne_of_mem same mem) (step s i start)
      exact ⟨u, kept, entry.trans (own s i j same), is'⟩

end EachEntry

/-- A time, the settings and the size of the table, as a row of steps keeps them. -/
structure State.SameClock (s u : State) : Prop where
  now : u.now = s.now
  settings : u.settings = s.settings
  length : u.table.length = s.table.length

theorem State.SameClock.refl (s : State) : s.SameClock s := ⟨rfl, rfl, rfl⟩

theorem State.SameClock.trans {s u v : State} (h : s.SameClock u) (h' : u.SameClock v) : s.SameClock v :=
  ⟨h'.now.trans h.now, h'.settings.trans h.settings, h'.length.trans h.length⟩

/-- A property of steps from `s` that keep clock and size holds of a row of them. -/
theorem State.SameClock.foldl {f : State → Nat → State} (step : ∀ (u : State) i, u.SameClock (f u i)) (is : List Nat) (s : State) :
    s.SameClock (is.foldl f s) := by
  induction is generalizing s with
  | nil => exact .refl s
  | cons i is ih => exact (step s i).trans (ih _)

/-! ### Every offer record is reset (05 R93, R105) -/

theorem State.resetOffer_sameClock (s : State) (i : Nat) : s.SameClock (s.resetOffer i) := by
  unfold State.resetOffer
  split
  · exact ⟨rfl, rfl, List.length_set⟩
  · exact .refl s

theorem State.resetOffer_entry_ne (s : State) (i j : Nat) (other : j ≠ i) : (s.resetOffer i).entry j = s.entry j := by
  unfold State.resetOffer
  split
  · exact State.entry_setEntry_ne s.drew other _
  · rfl

theorem State.resetOffer_entry_self {s : State} {i : Nat} {r : OfferRecord} (offer : (s.entry i).offer = some r)
    (inTable : i < s.table.length) :
    (s.resetOffer i).entry i = { s.entry i with offer := some (s.freshOffer s.settings.offerMin) } := by
  simp only [State.resetOffer, offer, State.startOffer, State.beginInterval_eq]
  exact State.entry_setEntry (s := s.drew) inTable _

/-- Every offer record reset. -/
def State.offersReset (s : State) : State := (s.indexes fun e => e.offer.isSome).foldl State.resetOffer s

theorem State.offersReset_sameClock (s : State) : s.SameClock s.offersReset := .foldl State.resetOffer_sameClock _ s

theorem State.offersReset_frame (s : State) : s.onlyChanges [.tb, .table] s.offersReset :=
  .foldl _ State.resetOffer_frame

theorem State.offersReset_entry_of_none {s : State} {i : Nat} (none' : (s.entry i).offer = none) :
    s.offersReset.entry i = s.entry i :=
  State.foldl_entry_of_notMem State.resetOffer_entry_ne (fun mem => by
    have offer := State.mem_indexes mem
    rw [none'] at offer
    cases offer) s

theorem State.offersReset_entry_of_some {s : State} {i : Nat} {r : OfferRecord} (offer : (s.entry i).offer = some r)
    (inTable : i < s.table.length) :
    ∃ u, s.SameClock u
      ∧ s.offersReset.entry i = { s.entry i with offer := some (u.freshOffer s.settings.offerMin) } := by
  obtain ⟨u, clock, entry, reset⟩ := State.foldl_entry_of_mem State.resetOffer_entry_ne
    (P := s.SameClock) (fun u i clock => clock.trans (u.resetOffer_sameClock i)) (State.indexes_nodup s _)
    ((State.mem_indexes_iff (p := fun e => e.offer.isSome)).mpr ⟨inTable, congrArg Option.isSome offer⟩) (.refl s)
  refine ⟨u, clock, reset.trans ?_⟩
  rw [State.resetOffer_entry_self (entry ▸ offer) (clock.length ▸ inTable), entry, clock.settings]

/-! ### Every ASSEMBLING entry asks for what it misses (05 R103, R105) -/

/-- The WANT of an entry: of its missing indexes, where it has an issuance. -/
def State.wantOf (s : State) (i : Nat) : Option Payload := (s.entry i).issue.map fun k => .want k (s.entry i).missing

theorem State.requestWant_eq (s : State) (i : Nat) : s.requestWant i = (s.wantOf i).elim s s.request := by
  cases issued : (s.entry i).issue <;> simp [State.requestWant, State.wantOf, issued]

/-- An entry asks for what it misses, and its gap-fill timer restarts. -/
def State.askAgain (s : State) (i : Nat) : State := (s.requestWant i).restartGap i

theorem State.requestWant_keeps_entries (s : State) (i : Nat) : (s.requestWant i).table = s.table
    ∧ (s.requestWant i).now = s.now ∧ (s.requestWant i).settings = s.settings := by
  rw [State.requestWant_eq]
  cases s.wantOf i with
  | none => exact ⟨rfl, rfl, rfl⟩
  | some p => exact ⟨s.request_frame p .table (by decide), s.request_now p, s.request_settings p⟩

theorem State.askAgain_sameClock (s : State) (i : Nat) : s.SameClock (s.askAgain i) := by
  obtain ⟨table, now, settings⟩ := s.requestWant_keeps_entries i
  exact ⟨now, settings, List.length_set.trans (congrArg List.length table)⟩

theorem State.askAgain_entry_ne (s : State) (i j : Nat) (other : j ≠ i) : (s.askAgain i).entry j = s.entry j :=
  (State.entry_setEntry_ne _ other _).trans (State.entry_congr (s.requestWant_keeps_entries i).1 j)

theorem State.askAgain_entry_self {s : State} {i : Nat} (inTable : i < s.table.length) :
    (s.askAgain i).entry i = { s.entry i with
      want := (s.entry i).want.map fun w => { w with gapEnd := s.now + s.settings.gapFillDelay * 1000 } } := by
  obtain ⟨table, now, settings⟩ := s.requestWant_keeps_entries i
  have entry : (s.requestWant i).entry i = s.entry i := State.entry_congr table i
  refine (State.entry_setEntry (s := s.requestWant i) (by rw [table]; exact inTable) _).trans ?_
  simp only [entry, State.gapEnd, now, settings]

theorem State.askAgain_wantOf (s : State) (i : Nat) : (s.askAgain i).wantOf = s.wantOf := by
  funext j
  by_cases same : j = i
  · subst same
    by_cases inTable : j < s.table.length
    · rw [State.wantOf, State.askAgain_entry_self inTable]; rfl
    · have length := (s.askAgain_sameClock j).length
      have before := s.entry_of_length_le (i := j) (by omega)
      have after := (s.askAgain j).entry_of_length_le (i := j) (by omega)
      rw [State.wantOf, State.wantOf, before, after]
  · rw [State.wantOf, s.askAgain_entry_ne i j same]; rfl

theorem State.requests_withTable (ps : List Payload) (s : State) (x : List Entry) :
    ps.foldl State.request (s.withTable x) = (ps.foldl State.request s).withTable x := by
  induction ps generalizing s with
  | nil => rfl
  | cons p ps ih => rw [List.foldl_cons, State.request_withTable, ih]; rfl

/-- The entries ask in order: what CS makes of it is what it makes of their WANT frames, one after another. -/
theorem State.askAgain_foldl (is : List Nat) (s : State) :
    ∃ x, is.foldl State.askAgain s = ((is.filterMap s.wantOf).foldl State.request s).withTable x := by
  induction is generalizing s with
  | nil => exact ⟨s.table, rfl⟩
  | cons i is ih =>
    obtain ⟨x, rest⟩ := ih (s.askAgain i)
    refine ⟨x, ?_⟩
    rw [List.foldl_cons, rest, State.askAgain_wantOf]
    have asked : s.askAgain i = ((s.wantOf i).elim s s.request).withTable (s.askAgain i).table := by
      rw [← State.requestWant_eq]; rfl
    rw [asked, State.requests_withTable]
    cases want : s.wantOf i with
    | none => rw [List.filterMap_cons_none want]; rfl
    | some p => rw [List.filterMap_cons_some want]; rfl

/-! ### The port goes UP (04 R68) -/

/-- The ASSEMBLING entries ask again, after the offer records are reset. -/
theorem State.relayAvailable_eq (s : State) :
    s.relayAvailable = (s.offersReset.indexes fun e => e.state == .assembling).foldl State.askAgain s.offersReset := rfl

theorem State.askAll_sameClock (is : List Nat) (s : State) : s.SameClock (is.foldl State.askAgain s) :=
  .foldl State.askAgain_sameClock is s

/-- An ASSEMBLING entry asks once, and no other entry is changed. -/
theorem State.askAll_entry (s : State) (i : Nat) :
    ((s.indexes fun e => e.state == .assembling).foldl State.askAgain s).entry i = { s.entry i with
      want := if (s.entry i).state = .assembling then
          (s.entry i).want.map fun w => { w with gapEnd := s.now + s.settings.gapFillDelay * 1000 }
        else (s.entry i).want } := by
  by_cases assembling : (s.entry i).state = .assembling
  · have inTable := State.inTable_of_state assembling (by decide)
    obtain ⟨u, clock, entry, asked⟩ := State.foldl_entry_of_mem State.askAgain_entry_ne
      (P := s.SameClock) (fun u i clock => clock.trans (u.askAgain_sameClock i)) (State.indexes_nodup s _)
      ((State.mem_indexes_iff (p := fun e => e.state == .assembling)).mpr ⟨inTable, beq_iff_eq.mpr assembling⟩) (.refl s)
    rw [asked, State.askAgain_entry_self (clock.length ▸ inTable), entry, clock.now, clock.settings, if_pos assembling]
  · rw [if_neg assembling]
    exact State.foldl_entry_of_notMem State.askAgain_entry_ne (fun mem => assembling (by simpa using State.mem_indexes mem)) s

theorem State.offersReset_entry (s : State) (i : Nat) : ∃ o, s.offersReset.entry i = { s.entry i with offer := o } := by
  cases offer : (s.entry i).offer with
  | none => exact ⟨_, State.offersReset_entry_of_none offer⟩
  | some r =>
    by_cases inTable : i < s.table.length
    · obtain ⟨u, -, reset⟩ := State.offersReset_entry_of_some offer inTable
      exact ⟨_, reset⟩
    · rw [s.entry_of_length_le (Nat.le_of_not_lt inTable)] at offer
      cases offer

/-- The WANT frames of the ASSEMBLING entries, in order of index (05 R103; log 12). -/
def State.wants (s : State) : List Payload :=
  (List.range s.table.length).filterMap fun i => if (s.entry i).state = .assembling then s.wantOf i else none

theorem State.wants_eq (s : State) :
    (s.indexes fun e => e.state == .assembling).filterMap s.wantOf = s.wants := by
  rw [State.indexes, List.filterMap_filter, State.wants]
  simp only [beq_iff_eq]

theorem State.offersReset_wants (s : State) : s.offersReset.wants = s.wants := by
  have same (i : Nat) : (s.offersReset.entry i).state = (s.entry i).state ∧ s.offersReset.wantOf i = s.wantOf i := by
    obtain ⟨o, entry⟩ := s.offersReset_entry i
    rw [State.wantOf, entry]
    exact ⟨rfl, rfl⟩
  simp only [State.wants, s.offersReset_sameClock.length, (same _).1, (same _).2]

theorem State.requests_portLaw (ps : List Payload) {s : State} (law : s.PortLaw) : (ps.foldl State.request s).PortLaw := by
  induction ps generalizing s with
  | nil => exact law
  | cons p ps ih => exact ih (law.request p)

/-- A request leaves the line as it is. -/
theorem State.request_sameLine (s : State) (p : Payload) : s.cs.SameLine (s.request p).cs := by
  unfold State.request
  split
  · exact .refl _
  · cases p.queue <;> exact ⟨rfl, rfl, rfl, rfl, rfl, rfl, rfl, rfl⟩
  · exact .refl _
  · refine Station.SameLine.trans ?_ (State.arbitrate_sameLine _)
    cases p.queue <;> exact ⟨rfl, rfl, rfl, rfl, rfl, rfl, rfl, rfl⟩

theorem State.requests_sameLine (ps : List Payload) (s : State) : s.cs.SameLine (ps.foldl State.request s).cs := by
  induction ps generalizing s with
  | nil => exact .refl _
  | cons p ps ih => exact (s.request_sameLine p).trans (ih _)

theorem State.relayAvailable_requests (s : State) :
    ∃ x, s.relayAvailable = (s.wants.foldl State.request s.offersReset).withTable x := by
  obtain ⟨x, asked⟩ := s.offersReset.askAgain_foldl (s.offersReset.indexes fun e => e.state == .assembling)
  rw [State.wants_eq, State.offersReset_wants] at asked
  exact ⟨x, asked⟩

/-- The channel is quiet as the port goes UP: what was queued in the meantime has been seen by the arbiter. -/
theorem State.portUp_eq {s : State} (law : s.PortLaw) (down : s.cs.port = .down) :
    s.portUp = (s.withCs { s.cs with port := .up }).relayAvailable := by
  obtain ⟨x, asked⟩ := (s.withCs { s.cs with port := .up }).relayAvailable_requests
  have cs : (s.withCs { s.cs with port := .up }).offersReset.cs = { s.cs with port := .up } :=
    State.offersReset_frame _ .cs (by decide)
  have raised : (s.withCs { s.cs with port := .up }).offersReset.PortLaw := by
    have law' := law.raised down
    rw [State.PortLaw, State.ArbiterRests, cs]
    exact law'
  have rests := ((State.portLaw_iff _).mp (State.requests_portLaw (s.withCs { s.cs with port := .up }).wants raised)).2
  rw [State.portUp]
  refine State.arbitrate_of_rests ?_
  rw [asked]
  exact rests

/-- An entry once the channel is available again. -/
theorem State.relayAvailable_entry (s : State) (i : Nat) :
    s.relayAvailable.entry i = { s.offersReset.entry i with
      want := if (s.entry i).state = .assembling then
          (s.entry i).want.map fun w => { w with gapEnd := s.now + s.settings.gapFillDelay * 1000 }
        else (s.entry i).want } := by
  have clock := s.offersReset_sameClock
  obtain ⟨o, entry⟩ := s.offersReset_entry i
  rw [State.relayAvailable_eq, State.askAll_entry, clock.now, clock.settings, entry]

/-- The offer record of an entry once the channel is available again, at an interval that begins now. -/
theorem State.relayAvailable_offer {s : State} {i : Nat} {r : OfferRecord} (offer : (s.entry i).offer = some r)
    (long : 1 ≤ s.settings.offerMin) : ∃ q, (s.relayAvailable.entry i).offer = some q
      ∧ q.interval = s.settings.offerMin ∧ q.start = s.now ∧ q.interval * 500 ≤ q.point
      ∧ q.point < q.interval * 1000 ∧ q.pointPassed = false ∧ q.heard = 0 := by
  have inTable : i < s.table.length := by
    by_contra outside
    rw [s.entry_of_length_le (Nat.le_of_not_lt outside)] at offer
    cases offer
  obtain ⟨u, clock, reset⟩ := State.offersReset_entry_of_some offer inTable
  obtain ⟨least, below⟩ := u.freshOffer_point long
  rw [State.relayAvailable_entry, reset]
  exact ⟨_, rfl, rfl, clock.now, least, below, rfl, rfl⟩

/-! ### READY (04 R68, R69) -/

theorem exec_readyRise_of_stays {s : State} (stays : s.started = false ∨ s.cs.port ≠ .down) :
    exec .readyRise s = .next (s.withCs { s.cs with ready := true }) := by
  have not : ¬ ((s.withCs { s.cs with ready := true }).started = true
      ∧ (s.withCs { s.cs with ready := true }).cs.port = .down) := by
    rintro ⟨started, down⟩
    obtain early | up := stays
    · exact Bool.false_ne_true (early.symm.trans started)
    · exact up down
  exact congrArg Host.Outcome.next (if_neg not)

theorem exec_readyRise {s : State} (started : s.started = true) (down : s.cs.port = .down) (law : s.PortLaw) :
    exec .readyRise s = .next (s.withCs { s.cs with ready := true, port := .up }).relayAvailable := by
  have rises : (s.withCs { s.cs with ready := true }).started = true
      ∧ (s.withCs { s.cs with ready := true }).cs.port = .down := ⟨started, down⟩
  have law' : (s.withCs { s.cs with ready := true }).PortLaw := by
    obtain ⟨idle, low, control, bulk, head, echo, run, timeouts, kinds, rests⟩ := law
    refine ⟨idle, low, control, bulk, fun k stands => ?_, echo, run, timeouts, fun q => ?_, rests⟩
    · have := head k stands
      cases queue : k.queue <;> rw [queue] at this <;> exact this
    · cases q
      · exact kinds .control
      · exact kinds .bulk
  refine congrArg Host.Outcome.next ((if_pos rises).trans ?_)
  exact State.portUp_eq law' down

/-- With nothing to ask and nothing to offer the channel stays quiet. -/
theorem State.relayAvailable_of_quiet {s : State} (quiet : ∀ e ∈ s.table, e.state ≠ .assembling ∧ e.offer = none) :
    s.relayAvailable = s := by
  have offers : s.indexes (fun e => e.offer.isSome) = [] :=
    State.indexes_eq_nil fun e mem => by rw [(quiet e mem).2]; rfl
  have assembling : s.indexes (fun e => e.state == .assembling) = [] :=
    State.indexes_eq_nil fun e mem => by simpa using (quiet e mem).1
  have reset : s.offersReset = s := by rw [State.offersReset, offers]; rfl
  rw [State.relayAvailable_eq, reset, assembling]
  rfl

theorem exec_readyFall {s : State} (up : s.cs.port ≠ .down) :
    exec .readyFall s = .next (s.withCs { s.cs with ready := false }).portDown :=
  congrArg Host.Outcome.next (if_neg (c := (s.withCs { s.cs with ready := false }).cs.port = .down) up)

/-- Settles O30: a rise is the relay's return, whose requests leave the arbiter nothing to choose; a fall is
`State.portDown`. -/
theorem readyLineMovesPort : Obligations.ReadyLineMovesPort := by
  unfold Obligations.ReadyLineMovesPort
  refine ⟨fun s => ⟨exec_readyRise_of_stays, fun started down law long => ⟨fun quiet => ?_, ?_⟩⟩, fun s => ⟨fun down => ?_,
    fun up idle => ?_, fun up f flight => ⟨?_, fun t fell => ?_⟩⟩⟩
  · refine (exec_readyRise started down law).trans (congrArg Host.Outcome.next ?_)
    exact State.relayAvailable_of_quiet (s := s.withCs _) quiet
  · let up := s.withCs { s.cs with ready := true, port := .up }
    obtain ⟨x, asked⟩ := up.relayAvailable_requests
    have reset := up.offersReset_frame
    have line := State.requests_sameLine up.wants up.offersReset
    have cs : up.offersReset.cs = up.cs := reset .cs (by decide)
    refine ⟨_, exec_readyRise started down law, ?_, ?_, ?_, ?_, fun i => ⟨fun r offer =>
      State.relayAvailable_offer (s := up) offer long, fun none' => ?_, ?_, ?_, ?_⟩⟩
    · exact (congrArg (fun t => t.cs.port) asked).trans (line.port.trans (congrArg Station.port cs))
    · exact (congrArg (fun t => t.cs.ready) asked).trans (line.ready.trans (congrArg Station.ready cs))
    · exact State.onlyChanges.step (t := up) (State.withCs_frame s _ |>.mono (by decide)) up.relayAvailable_frame
        (by decide)
    · exact ⟨up.offersReset, reset, up.offersReset_sameClock.now, (congrArg State.cs asked :),
        (congrArg State.counters asked :)⟩
    · have entry : up.offersReset.entry i = up.entry i := State.offersReset_entry_of_none none'
      have is := congrArg Entry.offer (up.relayAvailable_entry i)
      rw [entry] at is
      exact is.trans none'
    · exact congrArg Entry.want (up.relayAvailable_entry i)
    · obtain ⟨o, entry⟩ := up.offersReset_entry i
      have is := congrArg Entry.state (up.relayAvailable_entry i)
      rw [entry] at is
      exact is
    · obtain ⟨o, entry⟩ := up.offersReset_entry i
      have is := congrArg Entry.map (up.relayAvailable_entry i)
      rw [entry] at is
      exact is
  · exact congrArg Host.Outcome.next (if_pos (c := (s.withCs { s.cs with ready := false }).cs.port = .down) down)
  · rw [exec_readyFall up]
    simp only [State.portDown, Station.fallen, State.withCs_cs, idle]
    rfl
  · rw [exec_readyFall up]
    simp only [State.portDown, Station.fallen, State.withCs_cs, flight]
    rfl
  · obtain rfl := Host.Outcome.next.inj ((exec_readyFall up).symm.trans fell)
    have unanswered : Station.answered _ = none :=
      Station.answered_eq_none (c := (s.withCs { s.cs with ready := false }).portDown.cs) (.inl rfl)
    exact ⟨exec_sent_of_unanswered unanswered, exec_lost_of_unanswered unanswered⟩

end Sys2Proof.Machine

/-! What a tally hears, and its timers (06 R116 to R121, R124). -/

namespace Sys2Proof.Machine

/-! ### Tallies -/

theorem State.modTally_eq {s : State} {k : Nat} {y : Tally} (held : s.tally k = some y) (f : Tally → Tally) :
    s.modTally k f = s.setTally k (some (f y)) := by
  simp only [State.modTally, held]

/-- The state in which a tally, as `y`, has gone to UPLINKING and waits at the tail of the uplink queue (06 R125). -/
def State.queuedUplink (s : State) (k : Nat) (y : Tally) : State :=
  s.withRu { s.ru with
    tallies := s.ru.tallies.set k (some { y with state := .uplinking, timer := none })
    uplinkQueue := s.ru.uplinkQueue ++ [k] }

theorem State.joinUplink_eq {s : State} {k : Nat} {y : Tally} (held : s.tally k = some y) :
    s.joinUplink k = (s.queuedUplink k y).nextUplink := by
  simp only [State.joinUplink, State.modTally_eq held]
  rfl

theorem State.reportingService_iff (s : State) :
    s.reportingService = true ↔ s.ar.cell ≠ 0 ∧ s.ar.service = .full ∧ s.ml.modemReady = true := by
  simp [State.reportingService, and_assoc]

/-! ### TALLY (06 R121) -/

theorem joinTag_of_absent {ms : List Member} {tag : Word32} (absent : ∀ m ∈ ms, m.tag ≠ tag) (acked : Bool) :
    joinTag ms tag acked = if ms.length < 64 then ms ++ [⟨tag, acked, .none⟩] else ms := by
  have not : ¬ (ms.any fun m => m.tag == tag) = true := by simpa using absent
  rw [joinTag, if_neg not]

theorem joinTag_of_present {ms : List Member} {tag : Word32} {m : Member} (mem : m ∈ ms) (is : m.tag = tag) (acked : Bool) :
    joinTag ms tag acked = ms.map fun x => if x.tag = tag then { x with acked := x.acked || acked } else x := by
  have held : (ms.any fun m => m.tag == tag) = true := List.any_eq_true.mpr ⟨m, mem, beq_iff_eq.mpr is⟩
  rw [joinTag, if_pos held]

section Heard

variable {s : State} {sender : Word32} {issue : Issue} {k : Nat} {y : Tally}

theorem exec_tally {items : List Item} (hears : s.Hears .tally sender (Payload.tally issue items).body)
    (origin : issue.key.origin ≠ 0) (good : ∀ x ∈ items, tagGood x.tag = true ∧ x.status ≠ .none) :
    exec (.tally sender (Payload.tally issue items).body) s = .next (s.heardTally issue items) := by
  simp only [exec, execTally, State.hearFrame_of_hears hears, State.deliver, State.hearTally, parseTally_body origin good]

/-- The members of a tally with the items of a TALLY merged into them. -/
def Tally.merged (y : Tally) (items : List Item) : List Member :=
  items.foldl (fun ms x => joinTag ms x.tag (x.status == .ack)) y.members

theorem State.heardTally_eq (found : s.findTally issue = some k) (held : s.tally k = some y) (items : List Item) :
    s.heardTally issue items
      = if y.state = .collecting ∧ y.members.length < 64 ∧ 64 ≤ (y.merged items).length then
          (s.setTally k (some { y with members := y.merged items })).joinUplink k
        else s.setTally k (some { y with members := y.merged items }) := by
  simp only [State.heardTally, found, held]
  rfl

theorem State.setTally_queuedUplink (s : State) (k : Nat) (x : Option Tally) (z : Tally) :
    (s.setTally k x).queuedUplink k z = s.queuedUplink k z := by
  simp only [State.queuedUplink, State.setTally, State.withRu, List.set_set]

/-! ### STAND (06 R118, R119) -/

theorem exec_stand {bid size : Nat} (hears : s.Hears .stand sender (Payload.stand issue bid size).body)
    (origin : issue.key.origin ≠ 0) (bidMost : bid ≤ 65535) (least : 1 ≤ size) (most : size ≤ 64) :
    exec (.stand sender (Payload.stand issue bid size).body) s = .next (s.heardStand sender issue bid size) := by
  simp only [exec, execStand, State.hearFrame_of_hears hears, State.deliver, State.hearStand,
    parseStand_body origin bidMost least most]

/-- The tally CONTRIBUTING to a reporter, its guard running (06 R118). -/
def Tally.contributingTo (y : Tally) (sender : Word32) (guardEnd : Nat) : Tally :=
  { y with state := .contributing, reporter := some sender, timer := some guardEnd }

theorem betterBid_iff (bid ownBid : Nat) (tag ownTag : Word32) :
    betterBid bid tag ownBid ownTag = true ↔ bid < ownBid ∨ (bid = ownBid ∧ tag.toNat < ownTag.toNat) := by
  simp [betterBid]

theorem State.heardStand_of_better {bid : Nat} (found : s.findTally issue = some k) (held : s.tally k = some y)
    (may : y.state = .waiting ∨ y.state = .standing)
    (better : bid < y.bid ∨ (bid = y.bid ∧ sender.toNat < s.cs.tag.toNat)) (size : Nat) :
    s.heardStand sender issue bid size
      = if size = 64 then
          s.setTally k (some (y.contributingTo sender (s.now + s.settings.contributorGuard * 1000)))
        else (s.setTally k (some (y.contributingTo sender (s.now + s.settings.contributorGuard * 1000)))).request
          (.tally issue y.contribution) := by
  have inPool := State.inPool_of_tally held
  obtain ⟨y', held', issued⟩ := State.findTally_some found
  obtain rfl : y' = y := Option.some.inj (held'.symm.trans held)
  have asks := State.requestTally_eq
    (s.tally_setTally inPool (some (y'.contributingTo sender (s.now + s.settings.contributorGuard * 1000))))
  have takes := (betterBid_iff bid y'.bid sender s.cs.tag).mpr better
  simp only [State.heardStand, found, held, may, takes, and_self, if_true]
  split
  · rfl
  · exact asks.trans (by rw [← issued]; rfl)

theorem State.heardStand_of_other {bid : Nat} (found : s.findTally issue = some k) (held : s.tally k = some y)
    (other : ¬ (bid < y.bid ∨ (bid = y.bid ∧ sender.toNat < s.cs.tag.toNat)) ∨ (y.state ≠ .waiting ∧ y.state ≠ .standing))
    (size : Nat) : s.heardStand sender issue bid size = s := by
  have stays : ¬ ((y.state = .waiting ∨ y.state = .standing) ∧ betterBid bid sender y.bid s.cs.tag = true) := by
    rw [betterBid_iff]
    tauto
  simp only [State.heardStand, found, held, stays, if_false]

end Heard

/-- Settles O41: the TALLY comes to `State.heardTally`, of which a full set joins the uplink queue. -/
theorem tallyHeardIsMerged : Obligations.TallyHeardIsMerged := by
  unfold Obligations.TallyHeardIsMerged
  refine ⟨fun s sender issue items hears origin good => ⟨fun unknown => ?_, fun k y found held =>
    ⟨fun stays => ?_, fun collecting full => ?_⟩⟩, fun ms tag acked => ⟨fun absent => joinTag_of_absent absent acked,
      fun m mem is => joinTag_of_present mem is acked⟩⟩
  · rw [exec_tally hears origin good, State.heardTally, unknown]
  · rw [exec_tally hears origin good, State.heardTally_eq found held]
    exact congrArg Host.Outcome.next (if_neg fun ⟨collecting, less, most⟩ => stays.elim (absurd collecting)
      (absurd ⟨less, most⟩))
  · rw [exec_tally hears origin good, State.heardTally_eq found held]
    refine congrArg Host.Outcome.next ((if_pos ⟨collecting, full⟩).trans ?_)
    rw [State.joinUplink_eq (s.tally_setTally (State.inPool_of_tally held) _)]
    exact congrArg State.nextUplink (s.setTally_queuedUplink k _ { y with members := y.merged items })

/-- Settles O42: the STAND comes to `State.heardStand`. -/
theorem standHeardIsCompared : Obligations.StandHeardIsCompared := by
  unfold Obligations.StandHeardIsCompared
  intro s sender issue bid size hears origin bidMost least most
  have heard := exec_stand hears origin bidMost least most
  refine ⟨fun unknown => ?_, fun k y found held => ⟨fun may better => ⟨fun full => ?_, fun open' => ?_⟩, fun other => ?_⟩⟩
  · rw [heard, State.heardStand, unknown]
  · rw [heard, State.heardStand_of_better found held may better, if_pos full]
    rfl
  · rw [heard, State.heardStand_of_better found held may better, if_neg open']
    rfl
  · rw [heard, State.heardStand_of_other found held other]

end Sys2Proof.Machine

/-! The digest uplink and its ends (06 R125 to R128), and the timers of a tally (06 R116, R117, R124). -/

namespace Sys2Proof.Machine

/-! ### The uplink queue is served (06 R125) -/

/-- The uplink queue is no longer than it was. -/
def State.queueFalls (s t : State) : Prop := t.ru.uplinkQueue.length ≤ s.ru.uplinkQueue.length

theorem State.queueFalls.of_ru {s t : State} (same : t.ru = s.ru) : s.queueFalls t :=
  (congrArg (fun x : Report => x.uplinkQueue.length) same).le

theorem State.queueFalls.trans {s t u : State} (h : s.queueFalls t) (h' : t.queueFalls u) : s.queueFalls u :=
  Nat.le_trans h' h

theorem State.enterWaiting_queueFalls (s : State) (k : Nat) : s.queueFalls (s.enterWaiting k) := by
  unfold State.enterWaiting
  split <;> exact Nat.le_refl _

theorem State.serveDeferred_queueFalls (s : State) (k : Nat) : s.queueFalls (s.serveDeferred k) := by
  unfold State.serveDeferred
  split
  · split
    · exact State.enterWaiting_queueFalls _ k
    · exact Nat.le_refl _
  · exact Nat.le_refl _

theorem State.freeTally_queueFalls (s : State) (k : Nat) : s.queueFalls (s.freeTally k) := by
  have fewer : s.queueFalls (s.withoutTally k) := List.length_filter_le _ _
  exact fewer.trans (State.serveDeferred_queueFalls _ k)

theorem State.settle_queueFalls (s : State) (k : Nat) : s.queueFalls (s.settle k) := by
  unfold State.settle
  split
  · split
    · exact s.freeTally_queueFalls k
    · exact Nat.le_refl _
  · exact Nat.le_refl _

theorem State.leaveUplink_queueFalls (s : State) (k : Nat) : s.queueFalls (s.leaveUplink k) := by
  unfold State.leaveUplink
  split
  · split
    · exact s.freeTally_queueFalls k
    · split
      · exact s.settle_queueFalls k
      · exact s.enterWaiting_queueFalls k
  · exact Nat.le_refl _

theorem State.requests_ru (ps : List Payload) (s : State) : (ps.foldl State.request s).ru = s.ru := by
  induction ps generalizing s with
  | nil => rfl
  | cons p ps ih => exact (ih _).trans (s.request_frame p .ru (by decide))

theorem State.uplinkAccepted_queueFalls (s : State) (k : Nat) (items : List Item) :
    s.queueFalls (s.uplinkAccepted k items) := by
  unfold State.uplinkAccepted
  split
  · next y held =>
    have asked := State.queueFalls.of_ru (State.requests_ru (coveredFrames y.issue items)
      (s.setTally k (some (y.acceptItems items))))
    exact State.queueFalls.trans (t := s.setTally k (some (y.acceptItems items))) (Nat.le_refl _)
      (asked.trans (State.leaveUplink_queueFalls _ k))
  · exact Nat.le_refl _

theorem State.uplinkFailed_queueFalls (s : State) (k : Nat) : s.queueFalls (s.uplinkFailed k) := by
  unfold State.uplinkFailed
  split
  · next y held =>
    have asked : s.queueFalls (s.request (.yield y.issue)) :=
      State.queueFalls.of_ru (s.request_frame _ .ru (by decide))
    refine asked.trans ?_
    dsimp only
    split
    · exact State.freeTally_queueFalls ((s.request _).setTally k _) k
    · exact State.leaveUplink_queueFalls ((s.request _).setTally k _) k
  · exact Nat.le_refl _

theorem State.sendDigest_queueFalls (s : State) (k : Nat) : s.queueFalls (s.sendDigest k) := by
  unfold State.sendDigest
  split
  · split
    · exact s.uplinkFailed_queueFalls k
    · split
      · exact s.uplinkAccepted_queueFalls k []
      · exact Nat.le_refl _
  · exact Nat.le_refl _

/-- No more sends are needed than the queue holds. -/
theorem State.serveUplinks_eq {n : Nat} {s : State} (enough : s.ru.uplinkQueue.length ≤ n) :
    State.serveUplinks n s = s.nextUplink := by
  induction n using Nat.strong_induction_on generalizing s with
  | _ n ih =>
    unfold State.nextUplink
    match n, queue : s.ru.uplinkQueue with
    | 0, [] => rfl
    | 0, _ :: _ => rw [queue] at enough; cases enough
    | n + 1, [] =>
      simp only [State.serveUplinks, queue, List.length_nil]
      split
      · next nonempty => cases nonempty
      · rfl
    | n + 1, k :: rest =>
      have fewer := State.sendDigest_queueFalls (s.withRu { s.ru with uplinkQueue := rest }) k
      have room : rest.length ≤ n := by rw [queue] at enough; exact Nat.le_of_succ_le_succ enough
      simp only [State.serveUplinks, queue, List.length_cons]
      split
      · next marker k' rest' _ queue' =>
        obtain ⟨rfl, rfl⟩ := List.cons.inj queue'
        rw [ih n (Nat.lt_succ_self n) (Nat.le_trans fewer room), ih rest.length (Nat.lt_succ_of_le room) fewer]
      · rfl

theorem State.nextUplink_of_idle {s : State} (idle : s.ml.uplinkMarker ≠ none ∨ s.ru.uplinkQueue = []) :
    s.nextUplink = s := by
  unfold State.nextUplink
  cases queue : s.ru.uplinkQueue with
  | nil => rfl
  | cons k rest =>
    have busy : s.ml.uplinkMarker ≠ none := idle.resolve_right (by rw [queue]; nofun)
    cases marker : s.ml.uplinkMarker with
    | none => exact absurd marker busy
    | some issue => simp only [List.length_cons, State.serveUplinks, marker]

/-- The head of the queue is sent, and the rest served after it. -/
theorem State.nextUplink_of_head {s : State} {k : Nat} {rest : List Nat} (free : s.ml.uplinkMarker = none)
    (queue : s.ru.uplinkQueue = k :: rest) :
    s.nextUplink = ((s.withRu { s.ru with uplinkQueue := rest }).sendDigest k).nextUplink := by
  have fewer := State.sendDigest_queueFalls (s.withRu { s.ru with uplinkQueue := rest }) k
  have served := State.serveUplinks_eq (n := rest.length) fewer
  rw [← served, State.nextUplink, queue]
  simp only [List.length_cons, State.serveUplinks, free, queue]

/-! ### A digest (06 R125) -/

section Digest

variable {s : State} {k : Nat} {y : Tally}

theorem State.sendDigest_of_no_service (held : s.tally k = some y) (silent : s.reportingService = false) :
    s.sendDigest k = s.uplinkFailed k := by
  simp only [State.sendDigest, held, silent, Bool.not_false, if_true]

theorem State.sendDigest_of_none_due (held : s.tally k = some y) (service : s.reportingService = true)
    (none' : y.dueTags = []) : s.sendDigest k = s.uplinkAccepted k [] := by
  simp only [State.sendDigest, held, service, Bool.not_true, Bool.false_eq_true, if_false, Tally.dueItems_eq, none', if_true]

theorem State.sendDigest_of_due (held : s.tally k = some y) (service : s.reportingService = true)
    (due : y.dueTags ≠ []) : s.sendDigest k = s.digestSent k y := by
  simp only [State.sendDigest, held, service, Bool.not_true, Bool.false_eq_true, if_false, Tally.dueItems_eq, due,
    State.sendUplink]
  exact congrArg (State.withMl _) (ModemLink.trySend_joined { s.ml with uplinkMarker := some y.issue } _)

/-- With a digest sent the uplink is outstanding. -/
theorem State.digestSent_nextUplink (s : State) (k : Nat) (y : Tally) :
    (s.digestSent k y).nextUplink = s.digestSent k y := by
  refine State.nextUplink_of_idle (.inl ?_)
  have marker (m : ModemLink) (r : ModemRecord) : (m.handed r).uplinkMarker = m.uplinkMarker := by
    rw [← ModemLink.trySend_joined, ModemLink.trySend_uplinkMarker]
  change (ModemLink.handed _ _).uplinkMarker ≠ none
  rw [marker]
  nofun

/-- A tally that joins an empty queue with no uplink outstanding is sent at once. -/
theorem State.queuedUplink_sent (inPool : k < s.ru.tallies.length) (free : s.ml.uplinkMarker = none)
    (empty : s.ru.uplinkQueue = []) (service : s.reportingService = true) (due : y.dueTags ≠ []) :
    (s.queuedUplink k y).nextUplink = s.digestSent k { y with state := .uplinking } := by
  have joined : (s.queuedUplink k y).ru.uplinkQueue = [k] := by
    simp only [State.queuedUplink, State.withRu_ru, empty, List.nil_append]
  have alone : ({ s.ru with uplinkQueue := [] } : Report) = s.ru := by rw [← empty]
  have taken : (s.queuedUplink k y).withRu { (s.queuedUplink k y).ru with uplinkQueue := [] }
      = s.setTally k (some { y with state := .uplinking, timer := none }) := by
    rw [State.setTally, ← alone]
    rfl
  have inUplink := s.tally_setTally inPool (some { y with state := .uplinking, timer := none })
  rw [State.nextUplink_of_head (s := s.queuedUplink k y) free joined, taken,
    State.sendDigest_of_due (s := s.setTally k _) inUplink service due, State.digestSent_nextUplink]
  simp only [State.digestSent, State.setTally_setTally]
  rfl

end Digest

/-! ### The timers of a tally -/

section Timers

variable {s : State} {k : Nat} {y : Tally} {tEnd : Nat}

theorem State.tallyTimer_eq (held : s.tally k = some y) (timer : y.timer = some tEnd) (inTime : tEnd ≤ lastMs)
    {phase : AgentState} (is : y.state = phase) (act : State → State) :
    s.tallyTimer k phase act = act (s.runTo tEnd) := by
  simp only [State.tallyTimer, held, is, if_true, timer, State.runsOut_eq _ _ inTime]

theorem State.tallyTimer_of_other (held : s.tally k = some y) {phase : AgentState} (other : y.state ≠ phase)
    (act : State → State) : s.tallyTimer k phase act = s := by
  simp only [State.tallyTimer, held, other, if_false]

/-- A tally that waits again, in the words of its timer's statement. -/
theorem State.waitsAgain_enterWaiting (held : s.tally k = some y) : ∃ d, s.enterWaiting k
      = s.drew.setTally k (some { y with
        state := .waiting, reporter := none, settleTime := none, digest := [], timer := some (s.now + d)
        bid := min 65535 (d / 10) })
    ∧ (3 - s.ar.quality) * s.settings.reportStep * (y.failures + 1) * 1000 ≤ d
    ∧ d ≤ (3 - s.ar.quality) * s.settings.reportStep * (y.failures + 1) * 1000 + s.settings.reportSpread * 1000 := by
  obtain ⟨d, ⟨least, most⟩, is⟩ := State.enterWaiting_waitsAgain held
  exact ⟨d, is, least, most⟩

theorem State.delayEnds_of_no_service (silent : s.reportingService = false) :
    State.delayEnds k s = s.enterWaiting k := by simp [State.delayEnds, silent]

theorem State.delayEnds_of_alone (service : s.reportingService = true) (down : s.cs.port ≠ .up) :
    State.delayEnds k s = s.joinUplink k := by simp [State.delayEnds, service, State.channelUp, down]

theorem State.delayEnds_of_up (service : s.reportingService = true) (up : s.cs.port = .up) :
    State.delayEnds k s = s.stand k := by simp [State.delayEnds, service, State.channelUp, up]

end Timers

/-- Settles O49: each timer's command acts at the timer's end, and a head of the uplink queue with due tags is sent. -/
theorem tallyTimersRun : Obligations.TallyTimersRun := by
  unfold Obligations.TallyTimersRun
  refine ⟨fun s k y tEnd inPool held timer inTime => ?_, fun s k y tEnd inPool held timer inTime collecting free queue cell
    full line due => ?_⟩
  · intro at' service waits queued
    have held' : at'.tally k = some y := held
    have silent (none' : ¬ service) : at'.reportingService = false := by
      rw [Bool.eq_false_iff, Ne, State.reportingService_iff]; exact none'
    have serves (some' : service) : at'.reportingService = true := at'.reportingService_iff.mpr some'
    have again (c : Instr) (runs : exec c s = .next (at'.enterWaiting k)) : waits (exec c s) := by
      obtain ⟨d, is, least, most⟩ := State.waitsAgain_enterWaiting held'
      exact ⟨d, runs.trans (congrArg _ is), least, most⟩
    have delay (waiting : y.state = .waiting) : exec (.reportDelayEnd k) s = .next (State.delayEnds k at') :=
      congrArg Host.Outcome.next (State.tallyTimer_eq held timer inTime waiting _)
    refine ⟨fun waiting => ⟨fun none' => ?_, fun some' down => ?_, fun some' up => ?_⟩, fun standing => ?_,
      fun collecting => ?_, fun contributing => ?_, fun other => ?_, fun other => ?_, fun other => ?_, fun other => ?_⟩
    · exact again _ ((delay waiting).trans (congrArg _ (State.delayEnds_of_no_service (silent none'))))
    · rw [delay waiting, State.delayEnds_of_alone (serves some') down, State.joinUplink_eq held']
      rfl
    · rw [delay waiting, State.delayEnds_of_up (serves some') up, State.stand, held']
      rfl
    · exact congrArg Host.Outcome.next ((State.tallyTimer_eq held timer inTime standing _).trans
        (State.modTally_eq held' _))
    · exact congrArg Host.Outcome.next ((State.tallyTimer_eq held timer inTime collecting _).trans
        (State.joinUplink_eq held'))
    · exact again _ (congrArg Host.Outcome.next (State.tallyTimer_eq held timer inTime contributing _))
    · exact congrArg Host.Outcome.next (State.tallyTimer_of_other held other _)
    · exact congrArg Host.Outcome.next (State.tallyTimer_of_other held other _)
    · exact congrArg Host.Outcome.next (State.tallyTimer_of_other held other _)
    · exact congrArg Host.Outcome.next (State.tallyTimer_of_other held other _)
  · exact congrArg Host.Outcome.next (((State.tallyTimer_eq held timer inTime collecting _).trans
      (State.joinUplink_eq (s := s.runTo tEnd) held)).trans
        (State.queuedUplink_sent (s := s.runTo tEnd) inPool free queue
          ((s.runTo tEnd).reportingService_iff.mpr ⟨cell, full, line⟩) due))

end Sys2Proof.Machine

/-! The ends of an uplink: its result, its timeout, and the queue served after it (06 R126 to R128). -/

namespace Sys2Proof.Machine

/-! ### A tally whose fields before do not count -/

section Overwritten

variable {s t : State} {k : Nat} {y : Option Tally}

/-- A tally that is freed, or given anew, does not show what it was. -/
theorem State.served_of_setTally {n : Nat} {d : Deferred} (h : (s.setTally k y).served t n k d) : s.served t n k d := by
  obtain ⟨item, first, delay, drawn, ru⟩ := h
  refine ⟨item, first, delay, drawn, ?_⟩
  rw [ru]
  simp only [State.setTally, State.withRu_ru, List.set_set]
  rfl

theorem State.tallyFreed_of_setTally (h : (s.setTally k y).tallyFreed t k) : s.tallyFreed t k := by
  obtain ⟨alone, given⟩ := h
  refine ⟨fun empty => ?_, fun items bounded => ?_⟩
  · rw [alone empty]
    simp only [State.setTally, State.withRu_ru, List.set_set]
    rfl
  · obtain ⟨n, d, served, changes, now⟩ := given items bounded
    exact ⟨n, d, State.served_of_setTally served,
      ((State.withRu_frame s _).mono (by decide)).step changes (by decide), now⟩

/-- A tally that settles, or waits again, keeps neither timer nor digest. -/
theorem State.leavesUplink_of_setTally {z : Tally}
    (h : (s.setTally k (some { z with timer := none, digest := [] })).leavesUplink t k { z with timer := none, digest := [] }) :
    s.leavesUplink t k z := by
  obtain ⟨frees, settles, waits⟩ := h
  refine ⟨fun ended => State.tallyFreed_of_setTally (frees ended), fun kept reported => ?_, fun kept below => ?_⟩
  · obtain ⟨goes, rests⟩ := settles kept reported
    refine ⟨fun frees => State.tallyFreed_of_setTally (goes frees), fun standing empty => ?_⟩
    rw [rests standing empty, State.setTally_setTally]
    rfl
  · obtain ⟨delay, drawn, is⟩ := waits kept below
    refine ⟨delay, drawn, ?_⟩
    rw [is]
    exact State.setTally_setTally s.drew k _ _

end Overwritten

/-! ### A tally leaves UPLINKING (06 R126, R127, R134) -/

section Leaves

variable {s : State} {k : Nat} {y : Tally}

theorem State.leaveUplink_leavesUplink (held : s.tally k = some y) : s.leavesUplink (s.leaveUplink k) k y := by
  refine ⟨fun ended => ?_, fun kept reported => ?_, fun kept below => ?_⟩
  · have frees : s.leaveUplink k = s.freeTally k := by simp only [State.leaveUplink, held, ended, if_true]
    rw [frees]
    exact State.freeTally_tallyFreed (State.inPool_of_tally held)
  · have settles : s.leaveUplink k = s.settle k := by
      simp only [State.leaveUplink, held, kept, Bool.false_eq_true, if_false, reported, if_true]
    rw [settles]
    exact State.settle_tallySettles held
  · have waits : s.leaveUplink k = s.enterWaiting k := by
      simp only [State.leaveUplink, held, kept, Bool.false_eq_true, if_false, Nat.not_le.mpr below]
    rw [waits]
    exact State.enterWaiting_waitsAgain held

/-- A failed uplink: a YIELD, one failure more, and the tally leaves UPLINKING. -/
theorem State.uplinkFailed_failsUplink (held : s.tally k = some y) : s.failsUplink (s.uplinkFailed k) k y := by
  have asked : (s.request (.yield y.issue)).tally k = some y := by
    rw [State.tally, s.request_frame _ .ru (by decide)]
    exact held
  have written := State.tally_setTally (State.inPool_of_tally asked)
    (some { y with failures := min 3 (y.failures + 1), timer := none, digest := [] })
  have third : y.superseded = true ∧ min 3 (y.failures + 1) = 3 ↔ y.superseded = true ∧ 2 ≤ y.failures :=
    and_congr_right fun _ => by omega
  simp only [State.failsUplink, State.uplinkFailed, held, third]
  refine ⟨fun gone => ?_, fun stays => ?_⟩
  · rw [if_pos gone]
    exact State.tallyFreed_of_setTally (State.freeTally_tallyFreed (State.inPool_of_tally written))
  · have not : ¬ (y.superseded = true ∧ 2 ≤ y.failures) := by
      rintro ⟨superseded, failures⟩
      obtain standing | fewer := stays
      · exact Bool.false_ne_true (standing.symm.trans superseded)
      · omega
    rw [if_neg not]
    exact State.leavesUplink_of_setTally (State.leaveUplink_leavesUplink written)

/-- The COVERED frames of one level, in parts of 24 (06 R126). -/
theorem coverParts_eq (issue : Issue) (items : List Item) (level : Level) :
    (coverParts (tagsAt items level)).map (fun p => Payload.covered issue level p.1 p.2) = coveredOf issue items level := by
  have select (l : List (Nat × List Word32)) : (l.filter fun p => !p.2.isEmpty).map (fun p => Payload.covered issue level p.1 p.2)
      = l.filterMap fun p => if p.2 = [] then none else some (.covered issue level p.1 p.2) := by
    induction l with
    | nil => rfl
    | cons p l ih => by_cases empty : p.2 = [] <;> simp [empty, ih]
  exact (select _).trans (List.filterMap_map
    (f := fun n => (n + 1, ((tagsAt items level).drop (24 * n)).take 24)) (l := List.range 3))

theorem coveredFrames_eq (issue : Issue) (items : List Item) :
    coveredFrames issue items = coveredOf issue items .receipt ++ coveredOf issue items .ack := by
  rw [coveredFrames, coverParts_eq, coverParts_eq]

/-- An accepted digest: the levels covered, the COVERED frames, and the tally leaves UPLINKING. -/
theorem State.uplinkAccepted_acceptsUplink (held : s.tally k = some y) (items : List Item) :
    s.acceptsUplink (s.uplinkAccepted k items) k { y with digest := items } := by
  have written := State.tally_setTally (State.inPool_of_tally held) (some (y.acceptItems items))
  have asked : ((coveredFrames y.issue items).foldl State.request (s.setTally k (some (y.acceptItems items)))).tally k
      = some (y.acceptItems items) := by
    rw [State.tally, State.requests_ru]
    exact written
  have leaves := State.leaveUplink_leavesUplink asked
  rw [coveredFrames_eq] at leaves
  simp only [State.uplinkAccepted, held, coveredFrames_eq]
  exact leaves

end Leaves

/-! ### The uplink ends (06 R127, R128, 09 R178) -/

section Ends

variable {s : State} {k : Nat} {y : Tally}

theorem State.endUplink_eq (marker : s.ml.uplinkMarker = some y.issue) (found : s.findTally y.issue = some k)
    (held : s.tally k = some y) (accepted : Bool) :
    s.endUplink accepted
      = (if accepted then s.uplinkOver.uplinkAccepted k y.digest else s.uplinkOver.uplinkFailed k).nextUplink := by
  have found' : s.clearUplink.findTally y.issue = some k := found
  have held' : s.clearUplink.tally k = some y := held
  simp only [State.endUplink, marker, found', held']
  rfl

/-- A record UPLINK_RESULT of an issuance, whatever the upper bits of its revision byte (11 R195). -/
theorem exec_uplinkResult (idle : s.ModemIdle) (issue : Issue) (upper : BitVec 4) {outcome : Byte}
    (read : outcome = 1 ∨ outcome = 2) :
    exec (.uplinkResult issue.key.origin issue.key.number (upper ++ issue.revision) outcome) s
      = .next (s.recordIn.uplinkAnswered issue (outcome == 1)) := by
  have revision : (upper ++ issue.revision : BitVec 8).extractLsb' 0 4 = issue.revision :=
    BitVec.extractLsb'_append_eq_right
  have good : modemRecord 6 (bytes16 issue.key.origin ++ bytes24 issue.key.number ++ [upper ++ issue.revision, outcome])
      = some (.uplinkResult issue (outcome == 1)) := by
    obtain rfl | rfl := read <;>
      simp [modemRecord, bytes16, bytes24, word16_of_bytes, word24_of_bytes, revision]
  exact congrArg Host.Outcome.next (State.fromModem_of_good idle (by simp [bytes16, bytes24]) good)

theorem State.uplinkAnswered_late {issue : Issue} (late : s.ml.uplinkMarker ≠ some issue) (accepted : Bool) :
    s.uplinkAnswered issue accepted = s.count .lateResult := by
  simp only [State.uplinkAnswered, late, if_false]

theorem State.uplinkAnswered_eq {issue : Issue} (marker : s.ml.uplinkMarker = some issue) (accepted : Bool) :
    s.uplinkAnswered issue accepted = s.endUplink accepted := by
  simp only [State.uplinkAnswered, marker, if_true]

end Ends

/-- Settles O13: the result and the timeout end the uplink outstanding, and the queue is served by its head. -/
theorem uplinkEnds : Obligations.UplinkEnds := by
  unfold Obligations.UplinkEnds
  refine ⟨fun s y upper outcome idle read => ?_, fun s k y tEnd marker found held uplinking timer inTime => ?_,
    fun s => ⟨State.nextUplink_of_idle, fun k rest y free queue held => ?_⟩⟩
  · have ran := exec_uplinkResult idle y.issue upper read
    refine ⟨fun late => ?_, fun k marker found held => ?_⟩
    · rw [ran, State.uplinkAnswered_late (s := s.recordIn) late]
    · have ends := State.endUplink_eq (s := s.recordIn) marker found held
      refine ⟨fun accepted => ⟨_, State.uplinkAccepted_acceptsUplink (s := s.recordIn.uplinkOver) held y.digest, ?_⟩,
        fun failed => ⟨_, State.uplinkFailed_failsUplink (s := s.recordIn.uplinkOver) held, ?_⟩⟩
      · rw [ran, State.uplinkAnswered_eq (s := s.recordIn) marker, ends, accepted]
        rfl
      · rw [ran, State.uplinkAnswered_eq (s := s.recordIn) marker, ends, failed]
        rfl
  · have fails := State.uplinkFailed_failsUplink (s := ((s.runTo tEnd).uplinkOver).flag .uplinkTimeout) held
    have ends := State.endUplink_eq (s := (s.runTo tEnd).flag .uplinkTimeout) marker found held false
    refine ⟨_, fails, ?_⟩
    have ran : exec .uplinkTimeoutEnd s
        = .next (s.tallyTimer k .uplinking fun s => (s.flag .uplinkTimeout).endUplink false) := by
      simp only [exec, execUplinkTimeoutEnd, marker, found]
    rw [ran, State.tallyTimer_eq held timer inTime uplinking]
    exact congrArg Host.Outcome.next ends
  · intro v service
    have serves : v.reportingService = true ↔ service := v.reportingService_iff
    rw [State.nextUplink_of_head free queue]
    refine ⟨fun none' => ⟨_, State.uplinkFailed_failsUplink (s := v) held, ?_⟩, fun some' none' =>
      ⟨_, State.uplinkAccepted_acceptsUplink (s := v) held [], ?_⟩, fun some' due => ?_⟩
    · rw [State.sendDigest_of_no_service (s := v) held (Bool.eq_false_iff.mpr (mt serves.mp none'))]
    · rw [State.sendDigest_of_none_due (s := v) held (serves.mpr some') none']
    · rw [State.sendDigest_of_due (s := v) held (serves.mpr some') due, State.digestSent_nextUplink]

end Sys2Proof.Machine

/-! The ends of an entry: to FREE (01 R12, R18), and at its expiry deadline (01 R17; 06 R134). -/

namespace Sys2Proof.Machine

/-! ### Time stands while an entry ends -/

theorem State.removePieces_now (s : State) (issue : Issue) (index : Option Nat) :
    (s.removePieces issue index).now = s.now := State.arbitrate_now (s.withCs _)

theorem State.releaseBody_now (s : State) (i : Nat) : (s.releaseBody i).now = s.now := by
  unfold State.releaseBody
  dsimp only
  split
  · rfl
  · split
    · exact State.removePieces_now _ _ _
    · rfl

theorem State.serveDeferred_now (s : State) (k : Nat) : (s.serveDeferred k).now = s.now := by
  unfold State.serveDeferred
  split
  · split
    · exact State.takeTally_now (s.withRu _) k _ _
    · rfl
  · rfl

theorem State.freeTally_now (s : State) (k : Nat) : (s.freeTally k).now = s.now :=
  State.serveDeferred_now (s.withoutTally k) k

theorem State.entryEnds_now (s : State) (issue : Issue) (superseded : Bool) :
    (s.entryEnds issue superseded).now = s.now := by
  unfold State.entryEnds
  dsimp only
  split
  · split
    · split
      · split
        · exact State.freeTally_now (s.withRu _) _
        · rfl
      · split
        · rfl
        · exact State.freeTally_now (s.withRu _) _
    · rfl
  · rfl

theorem State.tellEnded_now (s : State) (issue : Option Issue) (superseded : Bool) :
    (s.tellEnded issue superseded).now = s.now := by
  unfold State.tellEnded
  split
  · exact s.entryEnds_now _ _
  · rfl

theorem State.emptySlot_now (s : State) (i : Nat) : (s.emptySlot i).now = s.now :=
  congrArg TimeBase.ms (s.emptySlot_frame i .tb (by decide))

/-! ### An entry goes to FREE (01 R7, R12, R18) -/

/-- A body release gives the slots back to the tail of the free list (02 R43). -/
theorem State.releaseBody_free (s : State) (i : Nat) : (s.releaseBody i).free = s.free ++ (s.entry i).slots := by
  unfold State.releaseBody
  dsimp only
  split
  · next empty => rw [empty, List.append_nil]
  · split
    · exact State.removePieces_frame _ _ _ .free (by decide)
    · rfl

theorem Entry.released_claimSlot (e : Entry) : e.released.claimSlot = e.claimSlot := by
  unfold Entry.released; split <;> rfl

/-- The entry is in FREE, its body released and its claim slot emptied, and RU is not told yet. -/
def State.dissolved (s : State) (i : Nat) : State :=
  (((s.releaseBody i).emptySlot i).leaveWaiting i).modEntry i fun e => Entry.freed e.generation

theorem State.freeEntry_eq (s : State) (i : Nat) (superseded : Bool) :
    s.freeEntry i superseded = (s.dissolved i).tellEnded (s.entry i).issue superseded := rfl

/-- But for the table and the waiting set, the entry's claim slot and its body are all that goes. -/
theorem State.dissolved_after (s : State) (i : Nat) :
    ((s.releaseBody i).emptySlot i).onlyChanges [.table, .ar] (s.dissolved i) := by
  simp [State.dissolved, State.leaveWaiting]

theorem State.freeEntry_now (s : State) (i : Nat) (superseded : Bool) : (s.freeEntry i superseded).now = s.now := by
  have dissolved : (s.dissolved i).now = ((s.releaseBody i).emptySlot i).now :=
    congrArg TimeBase.ms (s.dissolved_after i .tb (by decide))
  rw [State.freeEntry_eq, State.tellEnded_now, dissolved, State.emptySlot_now, State.releaseBody_now]

theorem State.freeEntry_free (s : State) (i : Nat) (superseded : Bool) :
    (s.freeEntry i superseded).free = s.free ++ (s.entry i).slots := by
  have told : (s.freeEntry i superseded).free = (s.dissolved i).free := State.tellEnded_frame _ _ _ .free (by decide)
  have dissolved : (s.dissolved i).free = ((s.releaseBody i).emptySlot i).free := s.dissolved_after i .free (by decide)
  rw [told, dissolved, ← s.releaseBody_free i]
  exact State.emptySlot_frame _ i .free (by decide)

theorem State.freeEntry_pu {s : State} {i : Nat} (unclaimed : (s.entry i).claimSlot = none) (superseded : Bool) :
    (s.freeEntry i superseded).pu = s.pu := by
  have slot : ((s.releaseBody i).entry i).claimSlot = none := by
    rw [State.releaseBody_entry_self, Entry.released_claimSlot, unclaimed]
  have told : (s.freeEntry i superseded).pu = (s.dissolved i).pu := State.tellEnded_frame _ _ _ .pu (by decide)
  have dissolved : (s.dissolved i).pu = ((s.releaseBody i).emptySlot i).pu := s.dissolved_after i .pu (by decide)
  rw [told, dissolved, State.emptySlot_of_none slot]
  exact s.releaseBody_frame i .pu (by decide)

theorem exec_assemblyTimeout {s : State} {i tEnd : Nat} (assembling : (s.entry i).state = .assembling)
    (timer : (s.entry i).assemblyTimer = some tEnd) (inTime : tEnd ≤ lastMs) :
    exec (.assemblyTimeout i) s = .next ((s.runTo tEnd).freeEntry i false) := by
  simp only [exec, execAssemblyTimeout, assembling, timer, State.runsOut_eq _ _ inTime]

theorem exec_assemblyTimeout_of_idle {s : State} {i : Nat}
    (idle : (s.entry i).state ≠ .assembling ∨ (s.entry i).assemblyTimer = none) :
    exec (.assemblyTimeout i) s = .next s := by
  simp only [exec, execAssemblyTimeout]
  split
  · next assembling timer =>
    obtain other | none' := idle
    · exact absurd assembling other
    · cases none'.symm.trans timer
  · rfl

theorem Entry.isHusk_iff (e : Entry) : e.isHusk = true ↔ e.state = .closed ∧ e.bodyHeld = false := by
  simp [Entry.isHusk]

theorem exec_huskHoldEnd {s : State} {i : Nat} (husk : (s.entry i).isHusk = true)
    (inTime : (s.entry i).huskEnd s.settings.huskHold * 1000 ≤ lastMs) :
    exec (.huskHoldEnd i) s
      = .next ((s.runTo ((s.entry i).huskEnd s.settings.huskHold * 1000)).freeEntry i false) := by
  simp only [exec, execHuskHoldEnd, husk, if_true, State.runsOut_eq _ _ inTime]

theorem exec_huskHoldEnd_of_other {s : State} {i : Nat} (other : (s.entry i).isHusk = false) :
    exec (.huskHoldEnd i) s = .next s := by
  simp only [exec, execHuskHoldEnd, other, Bool.false_eq_true, if_false]

/-- Settles O44: both timers end in `State.freeEntry`. -/
theorem assemblyAndHuskEndFree : Obligations.AssemblyAndHuskEndFree := by
  unfold Obligations.AssemblyAndHuskEndFree
  intro s i inTable unclaimed e freed
  have ends (tEnd : Nat) {o : Host.Outcome State Fault Refusal} (ran : o = .next ((s.runTo tEnd).freeEntry i false)) :
      freed o tEnd := by
    have frame := (s.runTo tEnd).freeEntry_frame i false
    exact ⟨_, ran, (s.runTo tEnd).freeEntry_now i false, (s.runTo tEnd).freeEntry_table i false,
      (s.runTo tEnd).freeEntry_free i false, State.freeEntry_pu (s := s.runTo tEnd) unclaimed false,
      frame .au (by decide), frame .ml (by decide), frame .store (by decide), frame .flags (by decide)⟩
  refine ⟨fun tEnd assembling timer inTime => ends tEnd (exec_assemblyTimeout assembling timer inTime),
    exec_assemblyTimeout_of_idle, fun closed is bodiless at' => ?_, fun other => ?_⟩
  · intro tEnd inTime
    have husk : (s.entry i).isHusk = true := (Entry.isHusk_iff _).mpr ⟨is, bodiless⟩
    have holds : (s.entry i).huskEnd s.settings.huskHold * 1000 = tEnd := by
      rw [Entry.huskEnd, show (s.entry i).closureTime = some closed from at', Option.getD_some]
    have ran := exec_huskHoldEnd husk (holds.trans_le inTime)
    rw [holds] at ran
    exact ends tEnd ran
  · refine exec_huskHoldEnd_of_other ?_
    rw [Bool.eq_false_iff, Ne, Entry.isHusk_iff]
    rintro ⟨closed, bodiless⟩
    obtain unclosed | held := other
    · exact unclosed closed
    · exact Bool.false_ne_true (bodiless.symm.trans held)

end Sys2Proof.Machine

/-! The expiry deadline (01 R17; 06 R134). -/

namespace Sys2Proof.Machine

/-! ### RU is told that an entry has ended (06 R112, R134) -/

/-- What `State.served` reads: RU and the station tag before, and RU, time and what draws a delay after. -/
theorem State.served.congr {s s' t t' : State} {n k : Nat} {d : Deferred} (h : s.served t n k d) (ru : s'.ru = s.ru)
    (tag : s'.cs.tag = s.cs.tag) (ru' : t'.ru = t.ru) (now : t'.now = t.now) (settings : t'.settings = t.settings)
    (quality : t'.ar.quality = t.ar.quality) : s'.served t' n k d := by
  obtain ⟨item, first, delay, drawn, is⟩ := h
  refine ⟨by rw [ru]; exact item, by rw [ru]; exact first, delay,
    (State.delays_of_same settings quality 0 delay).mpr drawn, ?_⟩
  rw [ru', is, ru, tag, now]

section EntryEnds

variable {s : State} {issue : Issue}

/-- The deferred item of the issuance leaves the list (06 R112). -/
def State.undeferred (s : State) (issue : Issue) : State :=
  s.withRu { s.ru with deferred := s.ru.deferred.filter fun d => d.issue != issue }

theorem State.undeferred_of_absent (absent : s.isDeferred issue = false) : s.undeferred issue = s := by
  have all : s.ru.deferred.filter (fun d => d.issue != issue) = s.ru.deferred := by
    rw [List.filter_eq_self]
    intro d mem
    simpa using List.any_eq_false.mp absent d mem
  rw [State.undeferred, all]
  rfl

theorem State.entryEnds_of_no_tally (none' : s.findTally issue = none) (superseded : Bool) :
    s.entryEnds issue superseded = s.undeferred issue := by
  have none'' : (s.undeferred issue).findTally issue = none := none'
  rw [State.undeferred] at none''
  simp only [State.entryEnds, none'', State.undeferred]

variable {k : Nat} {y : Tally}

theorem State.entryEnds_of_uplinking (found : s.findTally issue = some k) (held : s.tally k = some y)
    (uplinking : y.state = .uplinking) :
    s.entryEnds issue false = (s.undeferred issue).setTally k (some { y with ended := true }) := by
  have found' : (s.undeferred issue).findTally issue = some k := found
  have held' : (s.undeferred issue).tally k = some y := held
  rw [State.undeferred] at found' held' ⊢
  simp only [State.entryEnds, found', held', Bool.false_eq_true, if_false, uplinking, if_true]

theorem State.entryEnds_of_other (found : s.findTally issue = some k) (held : s.tally k = some y)
    (other : y.state ≠ .uplinking) : s.entryEnds issue false = (s.undeferred issue).freeTally k := by
  have found' : (s.undeferred issue).findTally issue = some k := found
  have held' : (s.undeferred issue).tally k = some y := held
  rw [State.undeferred] at found' held' ⊢
  simp only [State.entryEnds, found', held', Bool.false_eq_true, if_false, other]

/-- A tally freed and given leaves no deferred item that was not there. -/
theorem State.freeTally_deferred (s : State) (k : Nat) : (s.freeTally k).ru.deferred ⊆ s.ru.deferred := by
  rw [State.freeTally_eq, State.serveDeferred]
  split
  · split
    · next n _ _ d item =>
      have kept : (((s.withoutTally k).withRu { (s.withoutTally k).ru with
          deferred := s.ru.deferred.eraseIdx n }).takeTally k d.issue d.level).ru.deferred = s.ru.deferred.eraseIdx n := by
        unfold State.takeTally State.enterWaiting
        split <;> rfl
      exact fun x mem => List.mem_of_mem_eraseIdx (kept ▸ mem)
    · exact fun _ mem => mem
  · exact fun _ mem => mem

theorem State.entryEnds_deferred (s : State) (issue : Issue) :
    ∀ d ∈ (s.entryEnds issue false).ru.deferred, d.issue ≠ issue := by
  have gone : ∀ d ∈ (s.undeferred issue).ru.deferred, d.issue ≠ issue := fun d mem => by
    simpa using (List.mem_filter.mp mem).2
  cases found : s.findTally issue with
  | none => rw [State.entryEnds_of_no_tally found]; exact gone
  | some k =>
    obtain ⟨y, held, -⟩ := State.findTally_some found
    by_cases uplinking : y.state = .uplinking
    · rw [State.entryEnds_of_uplinking found held uplinking]; exact gone
    · rw [State.entryEnds_of_other found held uplinking]
      exact fun d mem => gone d (State.freeTally_deferred _ k mem)

/-- What the end of an entry of the issuance makes of RU, in going from `s` to `t` (06 R112, R134). -/
structure State.Ended (s t : State) (issue : Issue) : Prop where
  gone : ∀ d ∈ t.ru.deferred, d.issue ≠ issue
  alone : s.findTally issue = none → t.ru = { s.ru with deferred := s.ru.deferred.filter fun d => d.issue != issue }
  marked : ∀ k y, s.findTally issue = some k → s.tally k = some y → y.state = .uplinking →
    t.tally k = some { y with ended := true } ∧ t.ru.uplinkQueue = s.ru.uplinkQueue
  freed : ∀ k y, s.findTally issue = some k → s.tally k = some y → y.state ≠ .uplinking → s.ru.deferred = [] →
    t.ru = { s.ru with tallies := s.ru.tallies.set k none, uplinkQueue := s.ru.uplinkQueue.filter fun n => n != k }
  given : ∀ k y, s.findTally issue = some k → s.tally k = some y → y.state ≠ .uplinking → s.ru.deferred ≠ [] →
    s.isDeferred issue = false → (∀ d ∈ s.ru.deferred, d.precedence ≤ 7) → ∃ n d, s.served t n k d

theorem State.entryEnds_ended (s : State) (issue : Issue) : s.Ended (s.entryEnds issue false) issue where
  gone := s.entryEnds_deferred issue
  alone none' := by rw [State.entryEnds_of_no_tally none']; rfl
  marked k y found held uplinking := by
    rw [State.entryEnds_of_uplinking found held uplinking]
    exact ⟨State.tally_setTally (s := s.undeferred issue) (State.inPool_of_tally held) _, rfl⟩
  freed k y found held other empty := by
    have same : s.undeferred issue = s := State.undeferred_of_absent (by simp [State.isDeferred, empty])
    rw [State.entryEnds_of_other found held other, same,
      (State.freeTally_tallyFreed (State.inPool_of_tally held)).1 empty]
    rfl
  given k y found held other items absent bounded := by
    rw [State.entryEnds_of_other found held other, State.undeferred_of_absent absent]
    obtain ⟨n, d, served, -⟩ := (State.freeTally_tallyFreed (State.inPool_of_tally held)).2 items bounded
    exact ⟨n, d, served⟩

/-- The end of an entry is read off RU, the station tag, and what draws a delay. -/
theorem State.Ended.congr {s s' t t' : State} (h : s.Ended t issue) (ru : s'.ru = s.ru) (tag : s'.cs.tag = s.cs.tag)
    (ru' : t'.ru = t.ru) (now : t'.now = t.now) (settings : t'.settings = t.settings)
    (quality : t'.ar.quality = t.ar.quality) : s'.Ended t' issue := by
  have found : s'.findTally issue = s.findTally issue := by rw [State.findTally, ru]; rfl
  have tally (k : Nat) : s'.tally k = s.tally k := by rw [State.tally, ru]; rfl
  have tally' (k : Nat) : t'.tally k = t.tally k := by rw [State.tally, ru']; rfl
  have deferred : s'.isDeferred issue = s.isDeferred issue := by rw [State.isDeferred, ru]; rfl
  refine ⟨?_, ?_, fun k y => ?_, fun k y => ?_, fun k y => ?_⟩
  · rw [ru']; exact h.gone
  · rw [found, ru', ru]; exact h.alone
  · rw [found, tally, tally', ru', ru]; exact h.marked k y
  · rw [found, tally, ru', ru]; exact h.freed k y
  · rw [found, tally, deferred, ru]
    intro found held other items absent bounded
    obtain ⟨n, d, served⟩ := h.given k y found held other items absent bounded
    exact ⟨n, d, served.congr ru tag ru' now settings quality⟩

end EntryEnds

/-! ### The uptime while a body is released -/

theorem State.contend_uptime (s : State) (q : Queue) : (s.contend q).uptime = s.uptime := by
  have clock : (s.contend q).tb = s.tb.afterDraw := State.tryHandOver_frame (s.drew.withCs _) .tb (by decide)
  rw [State.uptime, clock]
  rfl

theorem State.arbitrate_uptime (s : State) : s.arbitrate.uptime = s.uptime := by
  unfold State.arbitrate
  split
  · split
    · exact s.contend_uptime _
    · rfl
  · rfl

theorem State.releaseBody_uptime (s : State) (i : Nat) : (s.releaseBody i).uptime = s.uptime := by
  unfold State.releaseBody
  dsimp only
  split
  · rfl
  · split
    · exact State.arbitrate_uptime (State.withCs ((s.modEntry i _).withFree _) _)
    · rfl

/-! ### The expiry deadline (01 R17) -/

theorem exec_expiryDeadline {s : State} {i d : Nat} (deadline : (s.entry i).deadline = some d)
    (may : (s.entry i).mayExpire = true) (inTime : d * 1000 ≤ lastMs) :
    exec (.expiryDeadline i) s = .next ((s.runTo (d * 1000)).expire i) := by
  simp only [exec, execExpiryDeadline, deadline, may, if_true, State.runsOut_eq _ _ inTime]

theorem exec_expiryDeadline_of_stays {s : State} {i : Nat}
    (stays : (s.entry i).deadline = none ∨ (s.entry i).mayExpire = false) : exec (.expiryDeadline i) s = .next s := by
  simp only [exec, execExpiryDeadline]
  split
  · next d deadline =>
    obtain none' | not := stays
    · cases none'.symm.trans deadline
    · rw [not]; rfl
  · rfl

/-- The states of an entry that expires with a notice: its body not CLOSED yet, and whole. -/
def Entry.standing (e : Entry) : Prop :=
  e.state = .locating ∨ e.state = .outside ∨ e.state = .pending ∨ e.state = .claimed ∨ e.state = .shown

theorem Entry.mayExpire_of_standing {e : Entry} (standing : e.standing) : e.mayExpire = true := by
  obtain is | is | is | is | is := standing <;> simp [Entry.mayExpire, is]

/-- The entry expired, with its notice posted, its body released and the entry closed; RU and AU are not told yet. -/
def State.expired (s : State) (i : Nat) : State :=
  ((s.postIfHeld i .expired none).releaseBody i).closeEntry i .expired

/-- The state after an expiry, before AU is told. -/
def State.expiryTold (s : State) (i : Nat) : State := (s.expired i).tellEnded (s.entry i).issue false

theorem State.expire_of_standing {s : State} {i : Nat} (standing : (s.entry i).standing) :
    s.expire i = (s.expiryTold i).attend := by
  unfold State.expire
  obtain is | is | is | is | is := standing <;> rw [is] <;> rfl

theorem State.expire_of_closed {s : State} {i : Nat} (closed : (s.entry i).state = .closed) :
    s.expire i = s.releaseBody i := by
  unfold State.expire
  rw [closed]

section Expired

variable {s : State} {i : Nat}

theorem Entry.released_generation (e : Entry) : e.released.generation = e.generation := by
  unfold Entry.released; split <;> rfl

theorem State.postIfHeld_entry (s : State) (i : Nat) (kind : NoticeKind) (successor : Option Nat) (j : Nat) :
    (s.postIfHeld i kind successor).entry j = s.entry j :=
  State.entry_congr (s.postIfHeld_frame i kind successor .table (by decide)) j

theorem State.expired_frame (s : State) (i : Nat) :
    s.onlyChanges [.tb, .table, .free, .cs, .ar, .pu, .flags] (s.expired i) := by
  simp [State.expired]

theorem State.expired_now (s : State) (i : Nat) : (s.expired i).now = s.now := by
  have closed : (s.expired i).now = ((s.postIfHeld i .expired none).releaseBody i).now :=
    congrArg TimeBase.ms (State.closeEntry_frame _ i .expired .tb (by decide))
  rw [closed, State.releaseBody_now]
  exact congrArg TimeBase.ms (s.postIfHeld_frame i .expired none .tb (by decide))

theorem State.expired_entry_self (inTable : i < s.table.length) :
    (s.expired i).entry i = (s.entry i).released.close .expired s.uptime := by
  have uptime : (s.postIfHeld i .expired none).uptime = s.uptime :=
    congrArg TimeBase.uptime (s.postIfHeld_frame i .expired none .tb (by decide))
  have table : (s.postIfHeld i .expired none).table = s.table := s.postIfHeld_frame i .expired none .table (by decide)
  have stays : i < ((s.postIfHeld i .expired none).releaseBody i).table.length := by
    rw [State.releaseBody_table, List.length_set, table]; exact inTable
  rw [State.expired, State.closeEntry_entry_self stays, State.releaseBody_entry_self, State.postIfHeld_entry,
    State.releaseBody_uptime, uptime]

theorem State.expired_entry_ne {j : Nat} (other : j ≠ i) : (s.expired i).entry j = s.entry j := by
  rw [State.expired, State.closeEntry_entry_ne _ other, State.releaseBody_entry_ne _ other, State.postIfHeld_entry]

theorem State.expired_free (s : State) (i : Nat) : (s.expired i).free = s.free ++ (s.entry i).slots := by
  have closed : (s.expired i).free = ((s.postIfHeld i .expired none).releaseBody i).free :=
    State.closeEntry_frame _ i .expired .free (by decide)
  rw [closed, State.releaseBody_free, State.postIfHeld_entry, s.postIfHeld_frame i .expired none .free (by decide)]

theorem State.expired_waiting (s : State) (i : Nat) : i ∉ (s.expired i).ar.waiting := by
  intro mem
  have kept := (List.mem_filter.mp mem).2
  simp at kept

/-- PU once the entry is expired: the notice where the host holds it, and its claim slot emptied. -/
theorem State.expired_pu (s : State) (i : Nat) :
    (s.expired i).pu.notices = (s.postIfHeld i .expired none).pu.notices
      ∧ ∀ k, (s.entry i).claimSlot = some k → (s.expired i).pu.slots = s.pu.slots.set k none := by
  have released : ((s.postIfHeld i .expired none).releaseBody i).pu = (s.postIfHeld i .expired none).pu :=
    State.releaseBody_frame _ i .pu (by decide)
  have closed : (s.expired i).pu = (((s.postIfHeld i .expired none).releaseBody i).emptySlot i).pu := State.closeEntry_pu _
  have slots : (s.postIfHeld i .expired none).pu.slots = s.pu.slots := by
    rw [State.postIfHeld, State.post_pu]
  refine ⟨?_, fun k slot => ?_⟩
  · rw [closed, State.emptySlot_pu.1, released]
  · have slot' : (((s.postIfHeld i .expired none).releaseBody i).entry i).claimSlot = some k := by
      rw [State.releaseBody_entry_self, Entry.released_claimSlot, State.postIfHeld_entry, slot]
    rw [closed, State.emptySlot_of_slot slot', ← slots, ← released]
    rfl

theorem State.expired_flags (s : State) (i : Nat) : (s.expired i).flags = (s.postIfHeld i .expired none).flags := by
  have closed : (s.expired i).flags = ((s.postIfHeld i .expired none).releaseBody i).flags :=
    State.closeEntry_frame _ i .expired .flags (by decide)
  rw [closed]
  exact State.releaseBody_frame _ i .flags (by decide)

theorem State.releaseBody_sameLine (s : State) (i : Nat) : s.cs.SameLine (s.releaseBody i).cs := by
  unfold State.releaseBody
  dsimp only
  split
  · exact .refl _
  · split
    · exact State.removePieces_sameLine ((s.modEntry i _).withFree _) _ _
    · exact .refl _

theorem State.expired_tag (s : State) (i : Nat) : (s.expired i).cs.tag = s.cs.tag := by
  have closed : (s.expired i).cs = ((s.postIfHeld i .expired none).releaseBody i).cs :=
    State.closeEntry_frame _ i .expired .cs (by decide)
  have posted : (s.postIfHeld i .expired none).cs = s.cs := s.postIfHeld_frame i .expired none .cs (by decide)
  rw [closed, (State.releaseBody_sameLine _ i).tag, posted]

end Expired

theorem State.expiryTold_after (s : State) (i : Nat) : (s.expired i).onlyChanges [.tb, .ru] (s.expiryTold i) :=
  State.tellEnded_frame _ _ _

theorem State.expiryTold_entry (s : State) (i j : Nat) : (s.expiryTold i).entry j = (s.expired i).entry j :=
  State.entry_congr (s.expiryTold_after i .table (by decide)) j

/-- AU, told of the expiry, leaves the closed entry as it is. -/
theorem State.expiry_entry_self {s : State} {i : Nat} (inTable : i < s.table.length) :
    (s.expiryTold i).attend.entry i = (s.entry i).released.close .expired s.uptime := by
  have closed : (s.expiryTold i).entry i = (s.entry i).released.close .expired s.uptime :=
    (s.expiryTold_entry i i).trans (State.expired_entry_self inTable)
  refine (State.reevaluate_of_ineligible _ ?_).1.trans closed
  rw [closed]
  exact Entry.close_ineligible ..

/-- RU at the end of an expiry. -/
theorem State.expiry_ended {s : State} {i : Nat} {issue : Issue} (issued : (s.entry i).issue = some issue) :
    s.Ended (s.expiryTold i).attend issue := by
  have told : s.expiryTold i = (s.expired i).entryEnds issue false := by
    simp only [State.expiryTold, issued, State.tellEnded]
  have attended := (s.expiryTold i).attend_frame
  have ended := (s.expired i).entryEnds_ended issue
  rw [← told] at ended
  exact ended.congr (s.expired_frame i .ru (by decide)).symm (s.expired_tag i).symm (attended .ru (by decide))
    (congrArg TimeBase.ms (attended .tb (by decide))) (attended .settings (by decide))
    (congrArg Resolver.quality (attended .ar (by decide)))

theorem State.postIfHeld_pu (s : State) (i : Nat) (kind : NoticeKind) (successor : Option Nat) :
    (s.postIfHeld i kind successor).pu.notices
      = if (s.entry i).isHeld = true ∧ s.pu.notices.length < 16 then
          s.pu.notices ++ [⟨kind, s.handle i, successor⟩] else s.pu.notices := by
  rw [State.postIfHeld, State.post_pu]

theorem State.postIfHeld_flags (s : State) (i : Nat) (kind : NoticeKind) (successor : Option Nat) :
    (s.postIfHeld i kind successor).flags
      = if (s.entry i).isHeld = true ∧ 16 ≤ s.pu.notices.length then { s.flags with noticeLost := true } else s.flags := by
  rw [State.postIfHeld, State.post_flags]

/-- Settles O45: the entry expires by `State.expired`, of which RU and AU are then told. -/
theorem deadlineExpiresEntry : Obligations.DeadlineExpiresEntry := by
  unfold Obligations.DeadlineExpiresEntry
  intro s i inTable e
  refine ⟨fun stays => ?_, fun deadline is inTime => ⟨fun closed slots => ?_, fun standing => ?_⟩⟩
  · refine exec_expiryDeadline_of_stays ?_
    obtain none' | free | assembling := stays
    · exact .inl none'
    · exact .inr (by simp only [Entry.mayExpire, show (s.entry i).state = .free from free])
    · exact .inr (by simp only [Entry.mayExpire, show (s.entry i).state = .assembling from assembling])
  · have closed' : (s.entry i).state = .closed := closed
    have may : (s.entry i).mayExpire = true := by
      simp only [Entry.mayExpire, closed', bne_iff_ne]; exact slots
    have ran := exec_expiryDeadline is may inTime
    rw [State.expire_of_closed (s := s.runTo _) closed'] at ran
    have released : e.released = { e with map := emptyMap, offer := none } := if_neg slots
    refine ⟨_, ran, (State.releaseBody_table _ i).trans (congrArg (s.table.set i) released),
      State.releaseBody_free _ i, State.releaseBody_now _ i, ?_⟩
    exact ((s.runTo_frame _).mono (by decide)).step (State.releaseBody_frame _ i) (by decide)
  · have ran := exec_expiryDeadline is (Entry.mayExpire_of_standing standing) inTime
    rw [State.expire_of_standing (s := s.runTo _) standing] at ran
    generalize runs : s.runTo (deadline * 1000) = at' at ran
    have entry (j : Nat) : at'.entry j = s.entry j := by rw [← runs]; rfl
    have pu : at'.pu = s.pu := by rw [← runs]; rfl
    have flags : at'.flags = s.flags := by rw [← runs]; rfl
    have free : at'.free = s.free := by rw [← runs]; rfl
    have self := State.expiry_entry_self (s := at') (i := i) (by rw [← runs]; exact inTable)
    rw [entry] at self
    have attended := (at'.expiryTold i).attend_frame
    have told := at'.expiryTold_after i
    have pu' : (at'.expiryTold i).attend.pu = (at'.expired i).pu :=
      (attended .pu (by decide)).trans (told .pu (by decide))
    have flags' : (at'.expiryTold i).attend.flags = (at'.expired i).flags :=
      (attended .flags (by decide)).trans (told .flags (by decide))
    have free' : (at'.expiryTold i).attend.free = (at'.expired i).free :=
      (attended .free (by decide)).trans (told .free (by decide))
    have ar' : (at'.expiryTold i).attend.ar = (at'.expired i).ar :=
      (attended .ar (by decide)).trans (told .ar (by decide))
    have now' : (at'.expiryTold i).attend.now = at'.now :=
      ((congrArg TimeBase.ms (attended .tb (by decide))).trans (State.tellEnded_now _ _ _)).trans (at'.expired_now i)
    obtain ⟨notices, slots⟩ := at'.expired_pu i
    have notices' := notices.trans (at'.postIfHeld_pu i .expired none)
    have flags'' := (at'.expired_flags i).trans (at'.postIfHeld_flags i .expired none)
    rw [entry, pu] at notices' flags''
    rw [flags] at flags''
    refine ⟨_, ran, now', ?_, ?_, ?_, ?_, ?_, ?_, ?_, ?_, fun j other => ?_, fun k slot => ?_, fun held room => ⟨?_, ?_⟩,
      fun held full => ⟨?_, ?_⟩, fun unheld => ?_, fun issue issued => ?_⟩
    · exact congrArg Entry.state self
    · exact congrArg Entry.closureReason self
    · exact congrArg Entry.closureTime self
    · exact (congrArg Entry.slots self).trans (s.entry i).released_slots
    · exact (congrArg Entry.generation self).trans (s.entry i).released_generation
    · exact (congrArg Entry.issue self).trans (s.entry i).released_issue
    · rw [free', at'.expired_free, free, entry]
    · rw [ar']; exact at'.expired_waiting i
    · have sounds : ((at'.expiryTold i).attend.entry j).soundsLike ((at'.expiryTold i).entry j) :=
        State.reevaluate_soundsLike _ _ j
      rwa [State.expiryTold_entry, State.expired_entry_ne other, entry] at sounds
    · rw [pu', slots k (by rw [entry]; exact slot), pu]
    · rw [pu', notices', if_pos ⟨held, room⟩, State.handle, entry]
    · rw [flags', flags'', if_neg (by omega)]
    · rw [pu', notices', if_neg (by omega)]
    · rw [flags', flags'', if_pos ⟨held, full⟩]
    · rw [pu', notices', if_neg fun ⟨held, _⟩ => Bool.false_ne_true (unheld.symm.trans held)]
    · have ended := State.expiry_ended (s := at') (i := i) (issue := issue) (by rw [entry]; exact issued)
      rw [← runs] at ended ⊢
      exact ⟨ended.gone, ended.alone, fun k y found held =>
        ⟨ended.marked k y found held, ended.freed k y found held, ended.given k y found held⟩⟩

end Sys2Proof.Machine

/-! A verdict given to one entry (01 R19, R20), and how an area list matches a region code (03 R52, R53). -/

namespace Sys2Proof.Machine

/-! ### Matching (03 R52, R53) -/

/-- A descriptor compares the bits of its depth. -/
theorem Descriptor.covers_eq (d : Descriptor) (code : Word32) : d.covers code
    = (List.range 32).all fun b => b < 32 - 8 * d.depth || d.code.getLsbD b == code.getLsbD b := by
  rw [Bool.eq_iff_iff]
  simp only [Descriptor.covers, beq_iff_eq, List.all_eq_true, List.mem_range, Bool.or_eq_true, decide_eq_true_eq]
  constructor
  · intro same b inWord
    by_cases low : b < 32 - 8 * d.depth
    · exact .inl low
    · have bit := congrArg (fun x => x.getLsbD (b - (32 - 8 * d.depth))) same
      simp only [BitVec.getLsbD_ushiftRight] at bit
      rw [Nat.add_sub_cancel' (Nat.le_of_not_lt low)] at bit
      exact .inr bit
  · intro bits
    refine BitVec.eq_of_getLsbD_eq fun b _ => ?_
    rw [BitVec.getLsbD_ushiftRight, BitVec.getLsbD_ushiftRight]
    by_cases inWord : 32 - 8 * d.depth + b < 32
    · exact (bits _ inWord).resolve_left (by omega)
    · rw [BitVec.getLsbD_of_ge _ _ (Nat.le_of_not_lt inWord), BitVec.getLsbD_of_ge _ _ (Nat.le_of_not_lt inWord)]

theorem areaMatches_eq (areas : List Descriptor) (code : Word32) : areaMatches areas code
    = (areas.isEmpty || areas.any fun d =>
        (List.range 32).all fun b => b < 32 - 8 * d.depth || d.code.getLsbD b == code.getLsbD b) := by
  simp only [areaMatches, Descriptor.covers_eq]

theorem verdictBy_eq (areas : List Descriptor) (code : Word32) :
    verdictBy areas code = if areaMatches areas code = true then .inside else .outside := rfl

/-! ### An entry placed by a verdict (01 R19, 07 R136, R139) -/

/-- The entry as a verdict that is not OUTSIDE places it at a precedence. -/
def Entry.placedWith (e : Entry) (v : Verdict) (precedence now time : Nat) : Entry :=
  if precedence = 0 then { e with verdict := v }.close .withheld time
  else { e with
    verdict := v, state := .pending, precedence := some precedence, stamp := some now, sounded := false }

theorem Entry.placedWith_verdict (e : Entry) (v : Verdict) (precedence now time : Nat) :
    (e.placedWith v precedence now time).verdict = v ∧ (e.placedWith v precedence now time).map = e.map := by
  unfold Entry.placedWith
  split <;> exact ⟨rfl, rfl⟩

theorem Entry.placedWith_none (e : Entry) (v : Verdict) (now time : Nat) :
    (e.placedWith v 0 now time).state = .closed ∧ (e.placedWith v 0 now time).closureReason = some .withheld :=
  ⟨rfl, rfl⟩

theorem Entry.placedWith_some (e : Entry) (v : Verdict) {precedence : Nat} (some' : precedence ≠ 0) (now time : Nat) :
    (e.placedWith v precedence now time).state = .pending
      ∧ (e.placedWith v precedence now time).precedence = some precedence
      ∧ (e.placedWith v precedence now time).stamp = some now := by
  rw [Entry.placedWith, if_neg some']
  exact ⟨rfl, rfl, rfl⟩

section Place
variable {s : State} {i : Nat} (v : Verdict) (precedence : Nat)

theorem State.place_of_none : s.place i v 0 = (s.modEntry i fun e => { e with verdict := v }).closeEntry i .withheld := rfl

theorem State.place_of_some (some' : precedence ≠ 0) : s.place i v precedence
    = (s.modEntry i fun e => { e with verdict := v }).modEntry i fun e => { e with
        state := .pending, precedence := some precedence, stamp := some s.now, sounded := false } := by
  rw [State.place]
  exact if_neg some'

theorem State.place_entry_self (inTable : i < s.table.length) :
    (s.place i v precedence).entry i = (s.entry i).placedWith v precedence s.now s.uptime := by
  have judged := State.entry_setEntry inTable { s.entry i with verdict := v }
  have stays : i < (s.modEntry i fun e => { e with verdict := v }).table.length := inTable.trans_eq List.length_set.symm
  by_cases none' : precedence = 0
  · subst none'
    refine (State.closeEntry_entry_self stays .withheld).trans ?_
    exact congrArg (Entry.close · .withheld s.uptime) judged
  · rw [State.place_of_some v precedence none', Entry.placedWith, if_neg none']
    refine (State.entry_setEntry stays _).trans ?_
    exact congrArg (fun e : Entry => { e with
      state := .pending, precedence := some precedence, stamp := some s.now, sounded := false }) judged

theorem State.place_ar (left : i ∉ s.ar.waiting) : (s.place i v precedence).ar = s.ar := by
  by_cases none' : precedence = 0
  · subst none'
    have same : ((s.modEntry i fun e => { e with verdict := v }).emptySlot i).ar = s.ar := State.emptySlot_ar _ i
    have stays : s.ar.waiting.filter (fun n => n != i) = s.ar.waiting :=
      List.filter_eq_self.mpr fun n mem => by
        rw [bne_iff_ne]
        rintro rfl
        exact left mem
    change ({ ((s.modEntry i fun e => { e with verdict := v }).emptySlot i).ar with
      waiting := ((s.modEntry i fun e => { e with verdict := v }).emptySlot i).ar.waiting.filter fun n => n != i }
        : Resolver) = _
    rw [same, stays]
  · rw [State.place_of_some v precedence none']
    rfl

end Place

/-! ### One verdict (01 R19, 06 R110) -/

/-- The state with an entry placed by a verdict, before RU takes the receipt event. -/
def State.verdictPlaced (s : State) (i : Nat) (v : Verdict) : State :=
  (s.leaveWaiting i).place i v (s.precedenceFor i)

theorem State.verdictPlaced_frame (s : State) (i : Nat) (v : Verdict) :
    s.onlyChanges [.table, .pu, .ar] (s.verdictPlaced i v) := by
  simp [State.verdictPlaced]

theorem State.verdictPlaced_ar (s : State) (i : Nat) (v : Verdict) :
    (s.verdictPlaced i v).ar = { s.ar with waiting := s.ar.waiting.filter fun n => n != i } :=
  State.place_ar v _ (s.not_mem_leaveWaiting i)

theorem State.verdictPlaced_entry_self {s : State} {i : Nat} (inTable : i < s.table.length) (v : Verdict) :
    (s.verdictPlaced i v).entry i = (s.entry i).placedWith v (s.precedenceFor i) s.now s.uptime :=
  State.place_entry_self (s := s.leaveWaiting i) v _ inTable

section OneVerdict
variable {s : State} {i : Nat} {v : Verdict}

theorem State.applyVerdict_of_body (whole : (s.entry i).bodyHeld = true) (placing : v = .inside ∨ v = .unresolved) :
    s.applyVerdict i v = s.verdictPlaced i v := by
  obtain rfl | rfl := placing <;> exact if_pos whole

theorem State.receiptOf_of_body (whole : (s.entry i).bodyHeld = true) (placing : v = .inside ∨ v = .unresolved)
    {issue : Issue} (issued : (s.entry i).issue = some issue) :
    s.receiptOf i v = [(issue, s.precedenceFor i, i)] := by
  obtain rfl | rfl := placing <;> simp only [State.receiptOf, issued, whole, if_true]

theorem State.receiptOf_of_unissued (unissued : (s.entry i).issue = none) : s.receiptOf i v = [] := by
  cases v <;> simp only [State.receiptOf, unissued]

theorem State.receiptOf_of_partial (part : (s.entry i).bodyHeld = false) : s.receiptOf i v = [] := by
  cases v <;> cases issued : (s.entry i).issue <;> simp only [State.receiptOf, issued, part, Bool.false_eq_true, if_false]

theorem State.giveVerdicts_nil (s : State) : s.giveVerdicts [] = s.attend := rfl

theorem State.giveVerdicts_of_quiet (none' : s.receiptOf i v = []) :
    s.giveVerdicts [(i, v)] = (s.applyVerdict i v).attend := by
  simp only [State.giveVerdicts, List.flatMap_cons, List.flatMap_nil, none', List.append_nil]
  rfl

theorem State.giveVerdicts_of_receipt {issue : Issue} {precedence : Nat}
    (one : s.receiptOf i v = [(issue, precedence, i)]) :
    s.giveVerdicts [(i, v)] = ((s.applyVerdict i v).receiptEvent issue precedence).attend := by
  simp only [State.giveVerdicts, List.flatMap_cons, List.flatMap_nil, one, List.append_nil]
  rfl

theorem State.precedenceFor_of_category {category : Category} (known : (s.entry i).category = some category) :
    s.precedenceFor i = if s.pu.optout.getLsbD category.code then 0 else s.settings.configured category := by
  rw [State.precedenceFor, known]
  rfl

/-- The entry judged, before AU is told: `t` is `s` with one verdict given, but for AU and sounded flags. -/
structure State.Judged (s t : State) (i : Nat) (v : Verdict) (category : Category) : Prop where
  placed : s.placedAs t i v category
  map : (t.entry i).map = (s.entry i).map
  others : ∀ j, j ≠ i → (t.entry j).soundsLike (s.entry j)
  ar : t.ar = { s.ar with waiting := s.ar.waiting.filter fun n => n != i }
  ml : t.ml = s.ml
  flags : t.flags = s.flags
  now : t.now = s.now

/-- AU is told at the end of a verdict: nothing that is said of the verdict is changed. -/
theorem State.Judged.attend {t : State} {category : Category} (h : s.Judged t i v category) :
    s.Judged t.attend i v category := by
  obtain ⟨⟨verdict, out, place⟩, map, others, ar, ml, flags, now⟩ := h
  have same := t.attend_frame
  have sounds (j : Nat) : (t.attend.entry j).soundsLike (t.entry j) := t.reevaluate_soundsLike _ j
  have kept {α : Type} (f : Entry → α) (deaf : ∀ (e : Entry) (b : Bool), f { e with sounded := b } = f e) :
      f (t.attend.entry i) = f (t.entry i) := (deaf _ _).symm.trans (congrArg f (sounds i))
  have ru : t.attend.ru = t.ru := same .ru (by decide)
  have arSame : t.attend.ar = t.ar := same .ar (by decide)
  refine ⟨⟨(kept _ fun _ _ => rfl).trans verdict, fun isOut => ?_, fun isPlaced => ?_⟩, (kept _ fun _ _ => rfl).trans map,
    fun j other => (sounds j).trans (others j other), arSame.trans ar, (same .ml (by decide)).trans ml,
    (same .flags (by decide)).trans flags, (congrArg TimeBase.ms (same .tb (by decide))).trans now⟩
  · exact ⟨(kept Entry.state fun _ _ => rfl).trans (out isOut).1, ru.trans (out isOut).2⟩
  · obtain ⟨withheld, pending, receipt⟩ := place isPlaced
    refine ⟨fun none' => ?_, fun some' => ?_, fun issue issued => ?_⟩
    · obtain ⟨state, reason⟩ := withheld none'
      exact ⟨(kept Entry.state fun _ _ => rfl).trans state, (kept Entry.closureReason fun _ _ => rfl).trans reason⟩
    · obtain ⟨state, precedence, stamp⟩ := pending some'
      exact ⟨(kept Entry.state fun _ _ => rfl).trans state, (kept Entry.precedence fun _ _ => rfl).trans precedence,
        (kept Entry.stamp fun _ _ => rfl).trans stamp⟩
    · exact (receipt issue issued).congr (.refl s) (same .settings (by decide)) ru (congrArg Resolver.quality arSame)

/-- OUTSIDE is given with no receipt event. -/
theorem State.giveVerdicts_outside (s : State) (i : Nat) : s.giveVerdicts [(i, .outside)]
    = ((s.leaveWaiting i).setEntry i { s.entry i with state := .outside, verdict := .outside }).attend :=
  State.giveVerdicts_of_quiet (by unfold State.receiptOf; split <;> simp_all)

theorem State.Judged.outside {category : Category} (inTable : i < s.table.length) :
    s.Judged (s.giveVerdicts [(i, .outside)]) i .outside category := by
  rw [State.giveVerdicts_outside]
  refine State.Judged.attend ?_
  have self := State.entry_setEntry (s := s.leaveWaiting i) inTable
    { s.entry i with state := .outside, verdict := .outside }
  refine ⟨⟨?_, fun _ => ⟨?_, rfl⟩, fun placing => absurd rfl placing⟩, ?_, fun j other => ?_, rfl, rfl, rfl, rfl⟩
  · rw [self]
  · rw [self]
  · rw [self]
  · rw [State.entry_setEntry_ne _ other]; exact .refl _

/-- INSIDE and UNRESOLVED place an entry that has its body. -/
theorem State.Judged.place {category : Category} (inTable : i < s.table.length) (whole : (s.entry i).bodyHeld = true)
    (known : (s.entry i).category = some category) (placing : v = .inside ∨ v = .unresolved) :
    s.Judged (s.giveVerdicts [(i, v)]) i v category := by
  have self := State.verdictPlaced_entry_self inTable v
  have frame := s.verdictPlaced_frame i v
  have now : (s.verdictPlaced i v).now = s.now := congrArg TimeBase.ms (frame .tb (by decide))
  have quality : (s.verdictPlaced i v).ar.quality = s.ar.quality := by rw [State.verdictPlaced_ar]
  have same : (s.verdictPlaced i v).SameReport s :=
    ⟨(frame .tb (by decide)).symm, (frame .settings (by decide)).symm, (frame .cs (by decide)).symm,
      (frame .ru (by decide)).symm, (frame .counters (by decide)).symm, quality.symm⟩
  have told (t : State) (after : (s.verdictPlaced i v).onlyChanges [.tb, .ru] t) (ms : t.now = s.now)
      (receipt : ∀ issue, (s.entry i).issue = some issue → s.receiptTaken t issue (s.precedenceFor i)) :
      s.Judged t i v category := by
    have entry := State.entry_congr (after .table (by decide))
    have placedEntry := (entry i).trans self
    obtain ⟨verdict, map⟩ := (s.entry i).placedWith_verdict v (s.precedenceFor i) s.now s.uptime
    refine ⟨⟨by rw [placedEntry, verdict], fun isOut => ?_, fun _ => ⟨fun none' => ?_, fun some' => ?_, ?_⟩⟩,
      by rw [placedEntry, map], fun j other => ?_, (after .ar (by decide)).trans (s.verdictPlaced_ar i v),
      (after .ml (by decide)).trans (frame .ml (by decide)), (after .flags (by decide)).trans (frame .flags (by decide)), ms⟩
    · obtain rfl | rfl := placing <;> cases isOut
    · rw [placedEntry, State.precedenceFor_of_category known, none']
      exact Entry.placedWith_none _ _ _ _
    · rw [placedEntry, State.precedenceFor_of_category known]
      exact Entry.placedWith_some _ _ some' _ _
    · rw [State.precedenceFor_of_category known] at receipt
      exact receipt
    · rw [entry j, ← State.applyVerdict_of_body whole placing, State.applyVerdict_entry_ne s other v]
      exact .refl _
  cases issued : (s.entry i).issue with
  | none =>
    rw [State.giveVerdicts_of_quiet (State.receiptOf_of_unissued issued), State.applyVerdict_of_body whole placing]
    exact (told _ (.refl _ _) now fun issue' issued' => by rw [issued] at issued'; cases issued').attend
  | some issue =>
    rw [State.giveVerdicts_of_receipt (State.receiptOf_of_body whole placing issued),
      State.applyVerdict_of_body whole placing]
    refine (told _ (State.receiptEvent_frame _ issue _) ((State.receiptEvent_now _ issue _).trans now)
      fun issue' issued' => ?_).attend
    obtain rfl : issue = issue' := Option.some.inj (issued.symm.trans issued')
    exact (State.receiptEvent_receiptTaken (s.verdictPlaced i v) issue _).congr same rfl rfl rfl

end OneVerdict

end Sys2Proof.Machine

/-! The verdict procedure (03 R58; 01 R19, R20). -/

namespace Sys2Proof.Machine

/-! ### What a verdict is read off -/

theorem State.receiptTaken.rebase {s s' t : State} {issue : Issue} {precedence : Nat}
    (h : s.receiptTaken t issue precedence) (tb : s'.tb = s.tb) (cs : s'.cs = s.cs) (ru : s'.ru = s.ru) :
    s'.receiptTaken t issue precedence := by
  have now : s'.now = s.now := congrArg TimeBase.ms tb
  simp only [State.receiptTaken, State.findTally, State.tally, State.isDeferred, State.takesTally, State.tallyTaken,
    ru, cs, now] at h ⊢
  exact h

/-- The two states agree in all that a verdict of the entry reads before it is given. -/
structure State.SameJudge (s s' : State) (i : Nat) : Prop where
  tb : s'.tb = s.tb
  cs : s'.cs = s.cs
  ru : s'.ru = s.ru
  settings : s'.settings = s.settings
  pu : s'.pu = s.pu
  issue : (s'.entry i).issue = (s.entry i).issue

theorem State.onlyChanges.sameJudge {s s' : State} {ps : List Part} (h : s.onlyChanges ps s')
    (unread : .tb ∉ ps ∧ .cs ∉ ps ∧ .ru ∉ ps ∧ .settings ∉ ps ∧ .pu ∉ ps ∧ .table ∉ ps) (i : Nat) :
    s'.SameJudge s i := by
  obtain ⟨tb, cs, ru, settings, pu, table⟩ := unread
  exact ⟨(h .tb tb).symm, (h .cs cs).symm, (h .ru ru).symm, (h .settings settings).symm, (h .pu pu).symm,
    congrArg Entry.issue (State.entry_congr (h .table table) i).symm⟩

theorem State.placedAs.rebase {s s' t : State} {i : Nat} {v : Verdict} {category : Category}
    (h : s.placedAs t i v category) (same : s.SameJudge s' i) : s'.placedAs t i v category := by
  obtain ⟨tb, cs, ru, settings, pu, issue⟩ := same
  obtain ⟨verdict, out, place⟩ := h
  have now : s'.now = s.now := congrArg TimeBase.ms tb
  simp only [State.placedAs, settings, pu, now, ru, issue]
  exact ⟨verdict, out, fun placing => ⟨(place placing).1, (place placing).2.1, fun own issued =>
    ((place placing).2.2 own issued).rebase tb cs ru⟩⟩

/-! ### Steps 1 to 5 (03 R58) -/

section Steps
variable {s : State} {i : Nat}

/-- The entry has areas to check. -/
def State.checks (s : State) (i : Nat) : Prop := s.settings.areaCheck ≠ 0 ∧ (s.entry i).areas ≠ []

theorem State.looksUp_iff (s : State) (i : Nat) : s.looksUp i = true ↔ s.checks i ∧ s.ar.cell ≠ 0 := by
  simp [State.looksUp, State.checks]

theorem State.lookedUp_of_idle (idle : ¬ s.checks i ∨ s.ar.cell = 0) : s.lookedUp i = s := by
  rw [State.lookedUp, if_neg]
  rw [State.looksUp_iff]
  rintro ⟨checked, away⟩
  obtain none' | home := idle
  · exact none' checked
  · exact away home

theorem State.lookedUp_of_checks (checked : s.checks i) (away : s.ar.cell ≠ 0) :
    s.lookedUp i = s.withAr (s.ar.touched s.ar.cell) := by
  rw [State.lookedUp, if_pos ((s.looksUp_iff i).mpr ⟨checked, away⟩)]

theorem State.verdictFor_of_unchecked (unchecked : ¬ s.checks i) : s.verdictFor i = some .inside := by
  unfold State.verdictFor
  split
  · rfl
  · next on => rw [if_pos (by by_contra some'; exact unchecked ⟨on, some'⟩)]

theorem State.verdictFor_of_nowhere (checked : s.checks i) (nowhere : s.ar.cell = 0) :
    s.verdictFor i = some .unresolved := by
  rw [State.verdictFor, if_neg checked.1, if_neg checked.2, if_pos nowhere]

theorem State.verdictFor_of_checks (checked : s.checks i) (away : s.ar.cell ≠ 0) :
    s.verdictFor i = (s.ar.cached s.ar.cell).map (verdictBy (s.entry i).areas) := by
  rw [State.verdictFor, if_neg checked.1, if_neg checked.2, if_neg away]

theorem State.resolve_of_verdict {v : Verdict} (verdict : s.verdictFor i = some v) :
    s.resolve [i] = (s.lookedUp i).giveVerdicts [(i, v)] := by
  simp only [State.resolve, List.foldl_cons, List.foldl_nil, State.takeIn_of_verdict (p := (s, [])) verdict,
    List.nil_append]

theorem State.resolve_of_miss (miss : s.verdictFor i = none) :
    s.resolve [i] = ((s.lookedUp i).joinWaiting i).attend := by
  simp only [State.resolve, List.foldl_cons, List.foldl_nil, State.takeIn_of_miss (p := (s, [])) miss,
    State.giveVerdicts_nil]

theorem exec_verdictProcedure (locating : (s.entry i).state = .locating) (left : i ∉ s.ar.waiting) :
    exec (.verdictProcedure i) s = .next (s.resolve [i]) := by
  simp only [exec, execVerdictProcedure, locating, left, not_false_eq_true, and_self, if_true]

theorem State.leaveWaiting_of_notMem (left : i ∉ s.ar.waiting) : s.leaveWaiting i = s := by
  have stays : s.ar.waiting.filter (fun n => n != i) = s.ar.waiting :=
    List.filter_eq_self.mpr fun n mem => by
      rw [bne_iff_ne]
      rintro rfl
      exact left mem
  rw [State.leaveWaiting, stays]
  rfl

end Steps

/-! ### Attention rests (08 R160) -/

theorem State.Calm.attend_eq {s t : State} (h : s.Calm t) (law : s.OwnerLaw) : t.attend = t :=
  State.attend_of_ownerLaw (h.ownerLaw law)

theorem State.OwnerLaw.withAr {s : State} (law : s.OwnerLaw) (x : Resolver) : (s.withAr x).OwnerLaw := law

/-- The waiting set plays no part in the attention. -/
theorem State.attend_joinWaiting {s : State} (law : s.OwnerLaw) (i : Nat) :
    (s.joinWaiting i).attend = s.joinWaiting i :=
  (State.queryIfNone_calm _).attend_eq (law.withAr _)

theorem State.giveVerdicts_outside_of_law {s : State} {i : Nat} (law : s.OwnerLaw) (left : i ∉ s.ar.waiting)
    (locating : (s.entry i).state = .locating) : s.giveVerdicts [(i, .outside)]
      = s.setEntry i { s.entry i with state := .outside, verdict := .outside } := by
  rw [State.giveVerdicts_outside, State.leaveWaiting_of_notMem left]
  exact ((State.Calm.refl s).depart (i := i) (f := fun e => { e with state := .outside, verdict := .outside })
    (Entry.presented_eq_false locating (by decide)) left rfl).attend_eq law

/-! ### A query handed over (03 R60, 09 R177) -/

theorem State.query_eq (s : State) : s.query = (s.withAr { s.ar with
    queryTimer := some (s.now + s.settings.queryTimeout * 1000) }).withMl
      (({ s.ml with queryMarker := some s.ar.cell } : ModemLink).handed (.regionQuery s.ar.cell)) := by
  rw [← ModemLink.trySend_joined]
  rfl

theorem State.joinWaiting_of_outstanding {s : State} {other : Word32} (outstanding : s.ml.queryMarker = some other)
    (i : Nat) : s.joinWaiting i = s.withAr { s.ar with waiting := s.ar.waiting ++ [i] } := by
  simp only [State.joinWaiting, State.queryIfNone, State.withAr_ml, outstanding]

theorem State.joinWaiting_of_none {s : State} (none' : s.ml.queryMarker = none) (i : Nat) :
    s.joinWaiting i = (s.withAr { s.ar with waiting := s.ar.waiting ++ [i] }).query := by
  simp only [State.joinWaiting, State.queryIfNone, State.withAr_ml, none']

/-! ### An entry without its body goes back (01 R20, 05 R103, R104) -/

/-- With an empty map every index of the total is missing. -/
theorem Entry.missing_of_emptyMap {e : Entry} (empty : e.map = emptyMap) (few : e.total ≤ 16) :
    e.missing = BitVec.ofNat 16 (2 ^ e.total - 1) := by
  unfold Entry.missing
  rw [empty]
  generalize e.total = total at few
  interval_cases total <;> rfl

section Back
variable {s : State} {i : Nat} {v : Verdict}

theorem State.giveVerdicts_of_bodiless (part : (s.entry i).bodyHeld = false) (left : i ∉ s.ar.waiting)
    (going : v = .inside ∨ v = .unresolved) :
    s.giveVerdicts [(i, v)] = (s.returnToAssembling i).attend := by
  rw [State.giveVerdicts_of_quiet (State.receiptOf_of_partial part)]
  refine congrArg State.attend ?_
  obtain rfl | rfl := going <;>
    simp only [State.applyVerdict, part, Bool.false_eq_true, if_false, State.leaveWaiting_of_notMem left]

theorem State.returnToAssembling_calm (locating : (s.entry i).state = .locating) (left : i ∉ s.ar.waiting) :
    s.Calm (s.returnToAssembling i) := by
  have quiet : (s.entry i).presented = false := Entry.presented_eq_false locating (by decide)
  unfold State.returnToAssembling
  split
  · split
    · exact s.freeEntry_calm false quiet
    · exact ((State.Calm.refl s).depart quiet left rfl).trans (State.requestWant_calm _ i)
  · exact .refl s

theorem State.returnToAssembling_of_alone {issue : Issue} (inTable : i < s.table.length)
    (issued : (s.entry i).issue = some issue) (few : (s.entry i).total ≤ 16)
    (alone : ∀ j, (s.entry j).state = .assembling → (s.entry j).ofKey issue.key = false) :
    s.returnToAssembling i = (s.setEntry i ((s.entry i).returned s.assemblyEnd s.gapEnd)).request
      (.want issue (BitVec.ofNat 16 (2 ^ (s.entry i).total - 1))) := by
  have nobody : s.table.any (fun e => e.state == .assembling && e.ofKey issue.key) = false := by
    rw [List.any_eq_false]
    intro e mem
    obtain ⟨j, inTable, rfl⟩ := List.getElem_of_mem mem
    have own : s.entry j = s.table[j] := by simp [State.entry, inTable]
    simpa [own] using alone j
  have self : (s.modEntry i fun e => e.returned s.assemblyEnd s.gapEnd).entry i
      = (s.entry i).returned s.assemblyEnd s.gapEnd := State.entry_setEntry inTable _
  simp only [State.returnToAssembling, issued, nobody, Bool.false_eq_true, if_false, State.requestWant, self]
  rw [show ((s.entry i).returned s.assemblyEnd s.gapEnd).issue = some issue from issued,
    Entry.missing_of_emptyMap (e := (s.entry i).returned s.assemblyEnd s.gapEnd) rfl few]
  rfl

theorem State.returnToAssembling_of_other {issue : Issue} (issued : (s.entry i).issue = some issue)
    (other : ∃ j, (s.entry j).state = .assembling ∧ (s.entry j).ofKey issue.key = true) :
    s.returnToAssembling i = s.freeEntry i false := by
  obtain ⟨j, assembling, own⟩ := other
  have somebody : s.table.any (fun e => e.state == .assembling && e.ofKey issue.key) = true :=
    List.any_eq_true.mpr ⟨s.entry j, s.mem_table_entry (State.inTable_of_state assembling (by decide)), by
      simp [assembling, own]⟩
  simp only [State.returnToAssembling, issued, somebody, if_true]

theorem State.freeEntry_ar (left : i ∉ s.ar.waiting) (superseded : Bool) : (s.freeEntry i superseded).ar = s.ar := by
  have released : ((s.releaseBody i).emptySlot i).ar = s.ar :=
    (State.emptySlot_frame _ i .ar (by decide)).trans (s.releaseBody_frame i .ar (by decide))
  have told : (s.freeEntry i superseded).ar = (s.dissolved i).ar := State.tellEnded_frame _ _ _ .ar (by decide)
  have away : i ∉ ((s.releaseBody i).emptySlot i).ar.waiting := by rwa [released]
  rw [told, State.dissolved, State.leaveWaiting_of_notMem away]
  exact released

end Back

/-! ### The procedure -/

/-- An entry with its body. -/
theorem verdictProcedure_of_body {s : State} {i : Nat} {category : Category} (inTable : i < s.table.length)
    (locating : (s.entry i).state = .locating) (left : i ∉ s.ar.waiting) (whole : (s.entry i).bodyHeld = true)
    (known : (s.entry i).category = some category) {v : Verdict} (verdict : s.verdictFor i = some v)
    (placing : v = .inside ∨ v = .unresolved) :
    ∃ t, exec (.verdictProcedure i) s = .next t ∧ s.placedAs t i v category ∧ (t.entry i).map = (s.entry i).map
      ∧ (∀ j, j ≠ i → (t.entry j).soundsLike (s.entry j)) ∧ t.ar.waiting = s.ar.waiting := by
  have same := State.entry_congr (s.lookedUp_table i)
  have judged : (s.lookedUp i).Judged ((s.lookedUp i).giveVerdicts [(i, v)]) i v category :=
    .place (by rwa [s.lookedUp_table]) (by rwa [same]) (by rwa [same]) placing
  have frame : s.onlyChanges [.ar] (s.lookedUp i) := by
    obtain looked | unlooked := s.lookedUp_cases i
    · rw [looked]; exact State.withAr_frame _ _
    · rw [unlooked]; exact .refl _ _
  refine ⟨_, (exec_verdictProcedure locating left).trans (congrArg _ (State.resolve_of_verdict verdict)),
    judged.placed.rebase (frame.sameJudge (by decide) i), by rw [judged.map, same],
    fun j other => same j ▸ judged.others j other, ?_⟩
  have stays : i ∉ (s.lookedUp i).ar.waiting := by rwa [State.lookedUp_waiting]
  have filtered := congrArg (fun u : State => u.ar.waiting) (State.leaveWaiting_of_notMem stays)
  rw [judged.ar]
  exact filtered.trans (s.lookedUp_waiting i)

/-- An entry that a held code finds OUTSIDE, with its body or without. -/
theorem verdictProcedure_outside {s : State} {i : Nat} (locating : (s.entry i).state = .locating)
    (left : i ∉ s.ar.waiting) (law : s.OwnerLaw) (checked : s.checks i) (away : s.ar.cell ≠ 0)
    {code : Word32} (held : s.ar.cached s.ar.cell = some code)
    (outside : areaMatches (s.entry i).areas code = false) :
    exec (.verdictProcedure i) s = .next ((s.withAr (s.ar.touched s.ar.cell)).setEntry i
      { s.entry i with state := .outside, verdict := .outside }) := by
  have verdict : s.verdictFor i = some .outside := by
    simp only [State.verdictFor_of_checks checked away, held, Option.map_some, verdictBy_eq, outside,
      Bool.false_eq_true, if_false]
  have stays : i ∉ (s.withAr (s.ar.touched s.ar.cell)).ar.waiting := by
    rwa [State.withAr_ar, Resolver.touched_waiting]
  rw [exec_verdictProcedure locating left, State.resolve_of_verdict verdict, State.lookedUp_of_checks checked away]
  exact congrArg Host.Outcome.next (State.giveVerdicts_outside_of_law (law.withAr _) stays locating)

theorem verdictProcedure_of_miss {s : State} {i : Nat} (locating : (s.entry i).state = .locating)
    (left : i ∉ s.ar.waiting) (law : s.OwnerLaw) (checked : s.checks i) (away : s.ar.cell ≠ 0)
    (missed : s.ar.cached s.ar.cell = none) : exec (.verdictProcedure i) s = .next (s.joinWaiting i) := by
  have miss : s.verdictFor i = none := by rw [State.verdictFor_of_checks checked away, missed]; rfl
  have looked : s.lookedUp i = s := by
    rw [State.lookedUp_of_checks checked away, Resolver.touched_of_none missed]
    rfl
  rw [exec_verdictProcedure locating left, State.resolve_of_miss miss, looked, State.attend_joinWaiting law]

/-- An entry without its body that is INSIDE or UNRESOLVED goes back to ASSEMBLING. -/
theorem verdictProcedure_back {s : State} {i : Nat} {v : Verdict} (locating : (s.entry i).state = .locating)
    (left : i ∉ s.ar.waiting) (law : s.OwnerLaw) (part : (s.entry i).bodyHeld = false)
    (verdict : s.verdictFor i = some v) (going : v = .inside ∨ v = .unresolved) :
    exec (.verdictProcedure i) s = .next ((s.lookedUp i).returnToAssembling i) := by
  have same := State.entry_congr (s.lookedUp_table i) i
  have stays : i ∉ (s.lookedUp i).ar.waiting := by rwa [State.lookedUp_waiting]
  have locating' : ((s.lookedUp i).entry i).state = .locating := by rwa [same]
  rw [exec_verdictProcedure locating left, State.resolve_of_verdict verdict,
    State.giveVerdicts_of_bodiless (by rwa [same]) stays going,
    (State.returnToAssembling_calm locating' stays).attend_eq ((s.lookedUp_calm i).ownerLaw law)]

/-- Where the verdict is not OUTSIDE, and the state once AR has looked for it. -/
theorem verdictFor_of_going {s u : State} {i : Nat} (going : ((¬ s.checks i ∨ s.ar.cell = 0) ∧ u = s)
      ∨ (s.checks i ∧ s.ar.cell ≠ 0 ∧ u = s.withAr (s.ar.touched s.ar.cell)
          ∧ ∃ code, s.ar.cached s.ar.cell = some code ∧ areaMatches (s.entry i).areas code = true)) :
    s.lookedUp i = u ∧ ∃ v, s.verdictFor i = some v ∧ (v = .inside ∨ v = .unresolved) := by
  obtain ⟨idle, rfl⟩ | ⟨checked, away, rfl, code, held, inside⟩ := going
  · refine ⟨State.lookedUp_of_idle idle, ?_⟩
    by_cases checked : u.checks i
    · exact ⟨_, State.verdictFor_of_nowhere checked (idle.resolve_left fun none' => none' checked), .inr rfl⟩
    · exact ⟨_, State.verdictFor_of_unchecked checked, .inl rfl⟩
  · refine ⟨State.lookedUp_of_checks checked away, .inside, ?_, .inl rfl⟩
    rw [State.verdictFor_of_checks checked away, held, Option.map_some, verdictBy_eq, if_pos inside]

/-- Settles O46: each of the five steps by its own lemma. -/
theorem verdictProcedureDecides : Obligations.VerdictProcedureDecides := by
  unfold Obligations.VerdictProcedureDecides
  refine ⟨fun s i category inTable locating left whole known law => ?_,
    fun s i issue inTable locating left part issued some' few law => ?_⟩
  · intro e run placed checked
    have place {v : Verdict} (verdict : s.verdictFor i = some v) (placing : v = .inside ∨ v = .unresolved) : placed v :=
      verdictProcedure_of_body inTable locating left whole known verdict placing
    refine ⟨fun unchecked => place (State.verdictFor_of_unchecked unchecked) (.inl rfl),
      fun checked nowhere => place (State.verdictFor_of_nowhere checked nowhere) (.inr rfl),
      fun checked away code held => ⟨fun inside => place ?_ (.inl rfl),
        fun outside => verdictProcedure_outside locating left law checked away held outside⟩,
      fun checked away missed => ⟨fun other outstanding => ?_, fun none' => ?_⟩, areaMatches_eq _⟩
    · rw [State.verdictFor_of_checks checked away, held, Option.map_some, verdictBy_eq, if_pos inside]
    · rw [← State.joinWaiting_of_outstanding outstanding]
      exact verdictProcedure_of_miss locating left law checked away missed
    · refine (verdictProcedure_of_miss locating left law checked away missed).trans (congrArg _ ?_)
      rw [State.joinWaiting_of_none none', State.query_eq]
      rfl
  · intro e run checked looked
    refine ⟨fun code checked away held outside =>
      verdictProcedure_outside locating left law checked away held outside, fun u going => ?_⟩
    obtain ⟨lookedUp, v, verdict, returning⟩ := verdictFor_of_going going
    have back := verdictProcedure_back locating left law part verdict returning
    have table : u.table = s.table := lookedUp ▸ s.lookedUp_table i
    have same := State.entry_congr table
    have frame : s.onlyChanges [.ar] u := by
      obtain ⟨-, rfl⟩ | ⟨-, -, rfl, -⟩ := going
      · exact .refl _ _
      · exact State.withAr_frame _ _
    have settings : u.settings = s.settings := frame .settings (by decide)
    have now : u.now = s.now := congrArg TimeBase.ms (frame .tb (by decide))
    rw [lookedUp] at back
    refine ⟨fun alone => back.trans (congrArg _ ?_), fun other unclaimed => ⟨_, back, ?_⟩⟩
    · rw [State.returnToAssembling_of_alone (issue := issue) (by rwa [table]) (by rwa [same]) (by rwa [same])
        (by simpa only [same] using alone), same]
      simp only [State.assemblyEnd, State.gapEnd, settings, now]
      rfl
    · have left' : i ∉ u.ar.waiting := by rwa [← lookedUp, State.lookedUp_waiting]
      rw [State.returnToAssembling_of_other (issue := issue) (by rwa [same]) (by simpa only [same] using other)]
      refine ⟨by rw [State.freeEntry_table, table, same], ?_, ?_,
        (State.freeEntry_frame u i false .au (by decide)).trans (frame .au (by decide)), State.freeEntry_ar left' false⟩
      · rw [State.freeEntry_free, same]
        exact congrArg (· ++ _) (frame .free (by decide))
      · exact (State.freeEntry_pu (by rwa [same]) false).trans (frame .pu (by decide))

end Sys2Proof.Machine

/-! The ends of a query (03 R60 to R64). -/

namespace Sys2Proof.Machine

/-! ### Verdicts of one move: the clock and the Area Resolver -/

theorem State.place_now (s : State) (i : Nat) (v : Verdict) (precedence : Nat) :
    (s.place i v precedence).now = s.now :=
  congrArg TimeBase.ms (s.place_frame i v precedence .tb (by decide))

theorem State.returnToAssembling_now (s : State) (i : Nat) : (s.returnToAssembling i).now = s.now := by
  unfold State.returnToAssembling
  split
  · split
    · exact s.freeEntry_now i false
    · unfold State.requestWant
      split
      · exact State.request_now _ _
      · rfl
  · rfl

theorem State.returnToAssembling_ar {s : State} {i : Nat} (left : i ∉ s.ar.waiting) :
    (s.returnToAssembling i).ar = s.ar := by
  unfold State.returnToAssembling
  split
  · split
    · exact State.freeEntry_ar left false
    · exact State.requestWant_frame _ i .ar (by decide)
  · rfl

theorem State.applyVerdict_now (s : State) (i : Nat) (v : Verdict) : (s.applyVerdict i v).now = s.now := by
  have judged (v : Verdict) : (if (s.entry i).bodyHeld then (s.leaveWaiting i).place i v (s.precedenceFor i)
      else (s.leaveWaiting i).returnToAssembling i).now = s.now := by
    split
    · exact State.place_now _ i v _
    · exact State.returnToAssembling_now _ i
  cases v with
  | outside => rfl
  | inside => exact judged .inside
  | unresolved => exact judged .unresolved
  | undecided => rfl

theorem State.applyVerdict_ar (s : State) (i : Nat) (v : Verdict) : (s.applyVerdict i v).ar = (s.leaveWaiting i).ar := by
  have judged (v : Verdict) : (if (s.entry i).bodyHeld then (s.leaveWaiting i).place i v (s.precedenceFor i)
      else (s.leaveWaiting i).returnToAssembling i).ar = (s.leaveWaiting i).ar := by
    split
    · exact State.place_ar v _ (s.not_mem_leaveWaiting i)
    · exact State.returnToAssembling_ar (s.not_mem_leaveWaiting i)
  cases v with
  | outside => rfl
  | inside => exact judged .inside
  | unresolved => exact judged .unresolved
  | undecided => rfl

theorem State.receiptEvents_now (s : State) (rs : List Receipt) : (s.receiptEvents rs).now = s.now :=
  List.foldlRecOn (motive := fun t : State => t.now = s.now) _ _ rfl fun _ same _ _ =>
    (State.receiptEvent_now _ _ _).trans same

theorem State.attend_now (s : State) : s.attend.now = s.now := congrArg TimeBase.ms (s.attend_frame .tb (by decide))

theorem State.giveVerdicts_now (s : State) (vs : List (Nat × Verdict)) : (s.giveVerdicts vs).now = s.now := by
  refine (State.attend_now _).trans ((State.receiptEvents_now _ _).trans ?_)
  exact List.foldlRecOn (motive := fun t : State => t.now = s.now) _ _ rfl fun _ same _ _ =>
    (State.applyVerdict_now _ _ _).trans same

theorem State.giveVerdicts_ar {s : State} (nobody : s.ar.waiting = []) (vs : List (Nat × Verdict)) :
    (s.giveVerdicts vs).ar = s.ar := by
  refine (State.attend_frame _ .ar (by decide)).trans ((State.receiptEvents_frame _ _ .ar (by decide)).trans ?_)
  refine List.foldlRecOn (motive := fun t : State => t.ar = s.ar) _ _ rfl fun t same p _ =>
    (State.applyVerdict_ar t p.1 p.2).trans ?_
  rw [State.leaveWaiting_of_notMem (by rw [same, nobody]; exact List.not_mem_nil), same]

/-! ### The waiting entries are judged (03 R61 to R63) -/

theorem State.Judged.give {s : State} {i : Nat} {v : Verdict} {category : Category} (inTable : i < s.table.length)
    (whole : (s.entry i).bodyHeld = true) (known : (s.entry i).category = some category) (decided : v ≠ .undecided) :
    s.Judged (s.giveVerdicts [(i, v)]) i v category := by
  cases v with
  | undecided => exact absurd rfl decided
  | outside => exact .outside inTable
  | inside => exact .place inTable whole known (.inl rfl)
  | unresolved => exact .place inTable whole known (.inr rfl)

section Judge
variable (s : State) (verdict : List Descriptor → Verdict)

theorem State.judgeWaiting_ar : (s.judgeWaiting verdict).ar = { s.ar with waiting := [] } :=
  State.giveVerdicts_ar (s := s.withAr { s.ar with waiting := [] }) rfl _

theorem State.judgeWaiting_ml : (s.judgeWaiting verdict).ml = s.ml := s.judgeWaiting_frame verdict .ml (by decide)

theorem State.judgeWaiting_now : (s.judgeWaiting verdict).now = s.now :=
  State.giveVerdicts_now (s.withAr { s.ar with waiting := [] }) _

variable {s verdict}

/-- An entry that waits alone, with its body, gets its verdict. -/
theorem State.judgeWaiting_placedAs {i : Nat} {category : Category} (alone : s.ar.waiting = [i])
    (inTable : i < s.table.length) (whole : (s.entry i).bodyHeld = true) (known : (s.entry i).category = some category)
    (decided : verdict (s.entry i).areas ≠ .undecided) :
    s.placedAs (s.judgeWaiting verdict) i (verdict (s.entry i).areas) category := by
  have judged := State.Judged.give (s := s.withAr { s.ar with waiting := [] }) inTable whole known decided
  have one : s.judgeWaiting verdict
      = (s.withAr { s.ar with waiting := [] }).giveVerdicts [(i, verdict (s.entry i).areas)] := by
    rw [State.judgeWaiting, alone]
    rfl
  rw [one]
  exact judged.placed.rebase ⟨rfl, rfl, rfl, rfl, rfl, rfl⟩

end Judge

theorem verdictBy_decided (areas : List Descriptor) (code : Word32) : verdictBy areas code ≠ .undecided := by
  unfold verdictBy; split <;> nofun

/-! ### The follow-up (03 R62) -/

section FollowUp
variable {u : State}

theorem State.followUp_of_nobody (nobody : u.ar.waiting = []) : u.followUp = u := by
  rw [State.followUp, if_pos nobody]

theorem State.followUp_of_nowhere (somebody : u.ar.waiting ≠ []) (nowhere : u.ar.cell = 0) :
    u.followUp = u.judgeWaiting fun _ => .unresolved := by
  rw [State.followUp, if_neg somebody, if_pos nowhere]

theorem State.followUp_of_held (somebody : u.ar.waiting ≠ []) (away : u.ar.cell ≠ 0) {code : Word32}
    (held : u.ar.cached u.ar.cell = some code) : u.followUp
      = (u.withAr (u.ar.touched u.ar.cell)).judgeWaiting fun areas => verdictBy areas code := by
  simp only [State.followUp, if_neg somebody, if_neg away, held]

theorem State.followUp_of_miss (somebody : u.ar.waiting ≠ []) (away : u.ar.cell ≠ 0)
    (missed : u.ar.cached u.ar.cell = none) : u.followUp = u.query := by
  simp only [State.followUp, if_neg somebody, if_neg away, missed]

theorem State.followUp_followedUp (u : State) : u.followedUp u.followUp := by
  refine ⟨State.followUp_of_nobody, fun somebody away missed => ?_, fun i category alone inTable whole known =>
    ⟨fun nowhere => ?_, fun code away held => ?_⟩⟩
  · rw [State.followUp_of_miss somebody away missed]
    exact ⟨by rw [State.query_eq]; rfl, rfl, u.query_frame⟩
  all_goals have somebody : u.ar.waiting ≠ [] := by rw [alone]; exact List.cons_ne_nil _ _
  · rw [State.followUp_of_nowhere somebody nowhere, State.judgeWaiting_ml, State.judgeWaiting_ar]
    exact ⟨rfl, rfl, State.judgeWaiting_placedAs alone inTable whole known (by decide)⟩
  · rw [State.followUp_of_held somebody away held, State.judgeWaiting_ml, State.judgeWaiting_ar]
    have alone' : (u.withAr (u.ar.touched u.ar.cell)).ar.waiting = [i] := by
      rw [State.withAr_ar, Resolver.touched_waiting, alone]
    exact ⟨rfl, rfl, (State.judgeWaiting_placedAs (s := u.withAr (u.ar.touched u.ar.cell)) alone' inTable whole known
      (verdictBy_decided _ code)).rebase ⟨rfl, rfl, rfl, rfl, rfl, rfl⟩⟩

theorem State.followUp_now (u : State) : u.followUp.now = u.now := by
  unfold State.followUp
  split
  · rfl
  · split
    · exact u.judgeWaiting_now _
    · split
      · exact State.judgeWaiting_now _ _
      · rfl

end FollowUp

/-! ### The outstanding query ends (03 R63, R64) -/

section Ends
variable {s : State} {cell : Word32}

/-- The state in which the query has timed out, before AR acts on it. -/
def State.queryLate (s : State) : State := s.queryOver.flag .queryTimeout

theorem State.queryTimedOut_of_serving (outstanding : s.ml.queryMarker = some cell) (serving : cell = s.ar.cell) :
    s.queryTimedOut = s.queryLate.judgeWaiting fun _ => .unresolved := by
  simp only [State.queryTimedOut, outstanding, if_pos serving]
  rfl

theorem State.queryTimedOut_of_other (outstanding : s.ml.queryMarker = some cell) (other : cell ≠ s.ar.cell) :
    s.queryTimedOut = s.queryLate.followUp := by
  simp only [State.queryTimedOut, outstanding, if_neg other]
  rfl

theorem State.queryTimedOut_of_none (none' : s.ml.queryMarker = none) : s.queryTimedOut = s := by
  simp only [State.queryTimedOut, none']

theorem State.queryTimedOut_now (outstanding : s.ml.queryMarker = some cell) : s.queryTimedOut.now = s.now := by
  by_cases serving : cell = s.ar.cell
  · rw [State.queryTimedOut_of_serving outstanding serving]; exact State.judgeWaiting_now _ _
  · rw [State.queryTimedOut_of_other outstanding serving]; exact State.followUp_now _

theorem State.queryTimedOut_flags (outstanding : s.ml.queryMarker = some cell) :
    s.queryTimedOut.flags = { s.flags with queryTimeout := true } := by
  by_cases serving : cell = s.ar.cell
  · rw [State.queryTimedOut_of_serving outstanding serving]
    exact State.judgeWaiting_frame _ _ .flags (by decide)
  · rw [State.queryTimedOut_of_other outstanding serving]
    exact State.followUp_frame _ .flags (by decide)

/-- What follows where the query was for the serving cell. -/
theorem State.queryTimedOut_serving (outstanding : s.ml.queryMarker = some cell) (serving : cell = s.ar.cell) :
    s.queryTimedOut.ml = s.queryLate.ml ∧ s.queryTimedOut.ar = { s.queryLate.ar with waiting := [] }
      ∧ ∀ i category, s.ar.waiting = [i] → i < s.table.length → (s.entry i).bodyHeld = true →
        (s.entry i).category = some category → s.queryLate.placedAs s.queryTimedOut i .unresolved category := by
  rw [State.queryTimedOut_of_serving outstanding serving]
  exact ⟨State.judgeWaiting_ml _ _, State.judgeWaiting_ar _ _, fun i category alone inTable whole known =>
    State.judgeWaiting_placedAs (s := s.queryLate) alone inTable whole known (by decide)⟩

theorem State.queryTimedOut_other (outstanding : s.ml.queryMarker = some cell) (other : cell ≠ s.ar.cell) :
    s.queryLate.followedUp s.queryTimedOut := by
  rw [State.queryTimedOut_of_other outstanding other]
  exact State.followUp_followedUp _

end Ends

theorem exec_queryTimerEnd {s : State} {tEnd : Nat} (timer : s.ar.queryTimer = some tEnd) (inTime : tEnd ≤ lastMs) :
    exec .queryTimerEnd s = .next (s.runTo tEnd).queryTimedOut := by
  simp only [exec, execQueryTimerEnd, timer, State.runsOut_eq _ _ inTime]

/-- Settles O47. -/
theorem queryTimeoutEndsQuery : Obligations.QueryTimeoutEndsQuery := by
  unfold Obligations.QueryTimeoutEndsQuery
  intro s cell tEnd outstanding timer inTime ended
  have outstanding' : (s.runTo tEnd).ml.queryMarker = some cell := outstanding
  exact ⟨_, exec_queryTimerEnd timer inTime, State.queryTimedOut_flags outstanding',
    State.queryTimedOut_now outstanding', State.queryTimedOut_other outstanding',
    State.queryTimedOut_serving outstanding'⟩

/-! ### REGION (03 R61) -/

/-- The state with an answer's code, if it has one, in the cache. -/
def State.answerFilled (s : State) (cell : Word32) (code : Option Word32) : State :=
  match code with
  | some c => if cell = 0 then s else s.withAr (s.ar.filled cell c)
  | none => s

/-- The verdict of an answer for an area list. -/
def answerVerdict (code : Option Word32) (areas : List Descriptor) : Verdict :=
  match code with
  | some c => verdictBy areas c
  | none => .unresolved

theorem answerVerdict_decided (code : Option Word32) (areas : List Descriptor) :
    answerVerdict code areas ≠ .undecided := by
  cases code with
  | none => nofun
  | some c => exact verdictBy_decided areas c

theorem State.answerFilled_cases (s : State) (cell : Word32) (code : Option Word32) :
    ∃ x : Resolver, s.answerFilled cell code = s.withAr x ∧ x.cell = s.ar.cell ∧ x.waiting = s.ar.waiting := by
  have filledCell (c : Word32) : (s.ar.filled cell c).cell = s.ar.cell := by unfold Resolver.filled; split <;> rfl
  cases code with
  | none => exact ⟨s.ar, rfl, rfl, rfl⟩
  | some c =>
    by_cases none' : cell = 0
    · exact ⟨s.ar, if_pos none', rfl, rfl⟩
    · exact ⟨_, if_neg none', filledCell c, Resolver.filled_waiting _ _ _⟩

theorem State.regionAnswer_eq (s : State) (cell : Word32) (code : Option Word32) :
    s.regionAnswer cell code =
      if (s.answerFilled cell code).ml.queryMarker = some cell then
        if cell = (s.answerFilled cell code).ar.cell then
          (s.answerFilled cell code).queryOver.judgeWaiting (answerVerdict code)
        else (s.answerFilled cell code).queryOver.followUp
      else s.answerFilled cell code := rfl

/-- Settles O12. -/
theorem regionAnswersQuery : Obligations.RegionAnswersQuery := by
  unfold Obligations.RegionAnswersQuery
  intro s cell code answer idle known filled run
  obtain ⟨x, filledEq, servingCell, waiting⟩ :=
    s.recordIn.answerFilled_cases cell (if answer = 1 then some code else none)
  have isFilled : filled = s.recordIn.withAr x := by
    rw [← filledEq]
    simp only [filled, State.answerFilled]
    obtain rfl | rfl := known
    · rfl
    · by_cases none' : cell = 0
      · simp [none']
      · simp only [none', if_true, if_false, true_and, not_false_eq_true, ne_eq]
        rfl
  have ran : run = .next (s.recordIn.regionAnswer cell (if answer = 1 then some code else none)) :=
    exec_region idle cell code known
  rw [State.regionAnswer_eq, filledEq, ← isFilled] at ran
  have marker : filled.ml.queryMarker = s.ml.queryMarker := by rw [isFilled]; rfl
  have serving : filled.ar.cell = s.ar.cell := by rw [isFilled]; exact servingCell
  rw [marker, serving] at ran
  refine ⟨fun other => by rw [ran, if_neg other], fun outstanding home => ?_, fun outstanding away => ?_⟩
  · rw [if_pos outstanding, if_pos home] at ran
    refine ⟨_, ran, State.judgeWaiting_ml _ _, State.judgeWaiting_ar _ _, fun i category alone inTable whole known' => ?_⟩
    have alone' : filled.queryOver.ar.waiting = [i] := by rw [isFilled, ← alone]; exact waiting
    have table : filled.queryOver.table = s.table := by rw [isFilled]; rfl
    have same := State.entry_congr table i
    have verdict : (if answer = 0 then Verdict.unresolved
        else if areaMatches (s.entry i).areas code = true then .inside else .outside)
        = answerVerdict (if answer = 1 then some code else none) (filled.queryOver.entry i).areas := by
      rw [same]
      obtain rfl | rfl := known <;> rfl
    rw [verdict]
    refine (State.judgeWaiting_placedAs alone' (by rwa [table]) (by rwa [same]) (by rwa [same])
      (answerVerdict_decided _ _)).rebase ?_
    rw [isFilled]
    exact ⟨rfl, rfl, rfl, rfl, rfl, rfl⟩
  · rw [if_pos outstanding, if_neg away] at ran
    exact ⟨_, ran, State.followUp_followedUp _⟩

end Sys2Proof.Machine

/-! CELL: a new location, and a change of serving cell (03 R49, R50). -/

namespace Sys2Proof.Machine

/-! ### The location (03 R49) -/

/-- What CELL records set: serving cell, service and quality. -/
def Resolver.location (r : Resolver) : Word32 × Service × Nat := (r.cell, r.service, r.quality)

theorem Resolver.touched_location (r : Resolver) (cell : Word32) : (r.touched cell).location = r.location := by
  unfold Resolver.touched; split <;> rfl

theorem State.lookedUp_location (s : State) (i : Nat) : (s.lookedUp i).ar.location = s.ar.location := by
  obtain looked | same := s.lookedUp_cases i
  · rw [looked]; exact Resolver.touched_location _ _
  · rw [same]

theorem State.joinWaiting_location (s : State) (i : Nat) : (s.joinWaiting i).ar.location = s.ar.location := by
  cases marker : s.ml.queryMarker with
  | some other => rw [State.joinWaiting_of_outstanding marker]; rfl
  | none => rw [State.joinWaiting_of_none marker]; rfl

theorem State.takeIn_location (p : State × List (Nat × Verdict)) (i : Nat) :
    (State.takeIn p i).1.ar.location = p.1.ar.location := by
  cases verdict : p.1.verdictFor i with
  | some v => rw [State.takeIn_of_verdict verdict]; exact p.1.lookedUp_location i
  | none =>
    rw [State.takeIn_of_miss verdict]
    exact (State.joinWaiting_location _ i).trans (p.1.lookedUp_location i)

theorem State.giveVerdicts_location (s : State) (vs : List (Nat × Verdict)) :
    (s.giveVerdicts vs).ar.location = s.ar.location := by
  refine congrArg Resolver.location ((State.attend_frame _ .ar (by decide)).trans
    (State.receiptEvents_frame _ _ .ar (by decide))) |>.trans ?_
  exact List.foldlRecOn (motive := fun t : State => t.ar.location = s.ar.location) _ _ rfl fun t same p _ =>
    (congrArg Resolver.location (State.applyVerdict_ar t p.1 p.2)).trans same

theorem State.resolve_location (s : State) (is : List Nat) : (s.resolve is).ar.location = s.ar.location :=
  (State.giveVerdicts_location _ _).trans <|
    List.foldlRecOn (motive := fun p : State × List (Nat × Verdict) => p.1.ar.location = s.ar.location) is State.takeIn rfl
      fun p same i _ => (State.takeIn_location p i).trans same

theorem State.changeCell_location (s : State) : s.changeCell.ar.location = s.ar.location := by
  rw [State.changeCell_eq]
  exact State.resolve_location _ _

/-! ### An outstanding query goes on (03 R60) -/

theorem State.takeIn_ml {p : State × List (Nat × Verdict)} {other : Word32} (outstanding : p.1.ml.queryMarker = some other)
    (i : Nat) : (State.takeIn p i).1.ml = p.1.ml := by
  have looked : (p.1.lookedUp i).ml = p.1.ml := by
    obtain looked | same := p.1.lookedUp_cases i
    · rw [looked]; rfl
    · rw [same]
  cases verdict : p.1.verdictFor i with
  | some v => rw [State.takeIn_of_verdict verdict]; exact looked
  | none =>
    rw [State.takeIn_of_miss verdict, State.joinWaiting_of_outstanding (other := other) (by rwa [looked])]
    exact looked

theorem State.resolve_ml {s : State} {other : Word32} (outstanding : s.ml.queryMarker = some other) (is : List Nat) :
    (s.resolve is).ml = s.ml :=
  (State.giveVerdicts_frame _ _ .ml (by decide)).trans <|
    List.foldlRecOn (motive := fun p : State × List (Nat × Verdict) => p.1.ml = s.ml) is State.takeIn rfl
      fun _ same i _ => (State.takeIn_ml ((congrArg ModemLink.queryMarker same).trans outstanding) i).trans same

/-! ### Entries that get no verdict -/

theorem State.giveVerdicts_others {s : State} {j : Nat} {vs : List (Nat × Verdict)} (other : j ∉ vs.map Prod.fst) :
    ((s.giveVerdicts vs).entry j).soundsLike (s.entry j) := by
  have told : ∀ t : State, ((t.receiptEvents (vs.flatMap fun p => s.receiptOf p.1 p.2)).attend.entry j).soundsLike (t.entry j) :=
    fun t => State.entry_congr (State.receiptEvents_frame t _ .table (by decide)) j ▸ State.reevaluate_soundsLike _ _ j
  have judged : (vs.foldl (fun s p => s.applyVerdict p.1 p.2) s).entry j = s.entry j :=
    List.foldlRecOn (motive := fun t : State => t.entry j = s.entry j) _ _ rfl fun t same p mem =>
      (State.applyVerdict_entry_ne t (fun own => other (List.mem_map.mpr ⟨p, mem, own.symm⟩)) p.2).trans same
  exact judged ▸ told _

theorem State.resolve_others {s : State} {j : Nat} {is : List Nat} (other : j ∉ is) :
    ((s.resolve is).entry j).soundsLike (s.entry j) := by
  obtain ⟨l, sub, same⟩ := State.takeIn_verdicts is (s, [])
  have table : (is.foldl State.takeIn (s, [])).1.table = s.table :=
    List.foldlRecOn (motive := fun p : State × List (Nat × Verdict) => p.1.table = s.table) is State.takeIn rfl
      fun p same i _ => (State.takeIn_table p i).trans same
  have apart : j ∉ (is.foldl State.takeIn (s, [])).2.map Prod.fst := fun mem => by
    rw [same, List.map_nil, List.nil_append] at mem
    exact other (sub.subset mem)
  exact State.entry_congr table j ▸ State.giveVerdicts_others apart

/-! ### A change of serving cell (03 R50) -/

theorem Entry.relocated_keeps (e : Entry) : e.relocated.issue = e.issue ∧ e.relocated.category = e.category
    ∧ e.relocated.areas = e.areas ∧ e.relocated.map = e.map ∧ e.relocated.total = e.total := by
  unfold Entry.relocated
  split <;> exact ⟨rfl, rfl, rfl, rfl, rfl⟩

theorem Entry.relocated_locating (e : Entry) :
    e.relocated.state = .locating ↔ e.state = .locating ∨ e.state = .outside := by
  unfold Entry.relocated
  split
  · next outside => simp [outside]
  · next other => simp [other]

theorem Entry.relocated_of_other {e : Entry} (other : e.state ≠ .outside) : e.relocated = e := if_neg other

section ChangeCell
variable (s : State)

theorem State.relocated_entry (i : Nat) : s.relocated.entry i = (s.entry i).relocated :=
  s.entry_mapTable rfl i

theorem State.relocated_indexes : (s.relocated.indexes fun e => e.state == .locating)
    = (List.range s.table.length).filter fun i => (s.entry i).state = .locating || (s.entry i).state = .outside := by
  have length : s.relocated.table.length = s.table.length := List.length_map _
  rw [State.indexes, length]
  refine List.filter_congr fun i _ => ?_
  rw [State.relocated_entry, Bool.eq_iff_iff, beq_iff_eq, Entry.relocated_locating]
  simp

theorem State.mem_relocated_indexes {i : Nat} : (i ∈ s.relocated.indexes fun e => e.state == .locating)
    ↔ i < s.table.length ∧ ((s.entry i).state = .locating ∨ (s.entry i).state = .outside) := by
  rw [State.relocated_indexes]
  simp

/-- A change of cell moves no entry outside LOCATING and OUTSIDE. -/
theorem State.changeCell_others {s : State} {j : Nat} (apart : (s.entry j).state ≠ .locating)
    (inside : (s.entry j).state ≠ .outside) : (s.changeCell.entry j).soundsLike (s.entry j) := by
  have same : s.relocated.entry j = s.entry j := by rw [State.relocated_entry, Entry.relocated_of_other inside]
  rw [State.changeCell_eq, ← same]
  refine State.resolve_others fun mem => ?_
  exact (s.mem_relocated_indexes.mp mem).2.elim apart inside

end ChangeCell

/-! ### A record (03 R49) -/

theorem Service.ofCode_of_bad {service : Byte} (bad : 2 < service.toNat) : Service.ofCode service = Option.none := by
  have other (b : Byte) (low : b.toNat ≤ 2) : service ≠ b := fun same => by rw [same] at bad; omega
  simp only [Service.ofCode, other 0 (by decide), other 1 (by decide), other 2 (by decide), if_false]

theorem Service.ofCode_of_code {service : Byte} {sv : Service} (read : service.toNat = sv.code) :
    Service.ofCode service = some sv := by
  obtain rfl : service = BitVec.ofNat 8 sv.code := BitVec.eq_of_toNat_eq (by rw [read]; cases sv <;> rfl)
  cases sv <;> rfl

/-- The state with a new location. -/
def State.located (s : State) (cell : Word32) (sv : Service) (quality : Byte) : State :=
  s.withAr { s.ar with cell := cell, service := sv, quality := quality.toNat }

section Record
variable {s : State} {cell : Word32} {service quality : Byte}

theorem State.cellRecord_of_bad (bad : 2 < service.toNat ∨ 3 < quality.toNat) :
    s.cellRecord cell service quality = s.count .linkError := by
  unfold State.cellRecord
  obtain bad | bad := bad
  · rw [Service.ofCode_of_bad bad]
  · split
    · exact if_neg (by omega)
    · rfl

theorem State.cellRecord_of_good {sv : Service} (read : service.toNat = sv.code) (small : quality.toNat ≤ 3) :
    s.cellRecord cell service quality
      = if cell = s.ar.cell then s.located cell sv quality else (s.located cell sv quality).changeCell := by
  simp only [State.cellRecord, Service.ofCode_of_code read, if_pos small]
  rfl

end Record

/-! ### A cell the cache does not know (03 R58, step 5) -/

section Missing
variable {is : List Nat}

/-- All that comes to the lookup misses. -/
structure State.MissesAll (s : State) (is : List Nat) : Prop where
  away : s.ar.cell ≠ 0
  missed : s.ar.cached s.ar.cell = none
  checks : ∀ i ∈ is, s.checks i

theorem State.takeIn_of_misses {s : State} {i : Nat} {is : List Nat} (h : s.MissesAll (i :: is))
    (vs : List (Nat × Verdict)) : State.takeIn (s, vs) i = (s.joinWaiting i, vs) := by
  obtain ⟨away, missed, checks⟩ := h
  have checked := checks i List.mem_cons_self
  have miss : s.verdictFor i = none := by rw [State.verdictFor_of_checks checked away, missed]; rfl
  rw [State.takeIn_of_miss miss, State.lookedUp_of_checks checked away, Resolver.touched_of_none missed]
  rfl

theorem State.takeIns_of_outstanding {s : State} {other : Word32} (outstanding : s.ml.queryMarker = some other)
    (h : s.MissesAll is) : is.foldl State.takeIn (s, [])
      = (s.withAr { s.ar with waiting := s.ar.waiting ++ is }, []) := by
  induction is generalizing s with
  | nil => rw [List.append_nil]; rfl
  | cons i is ih =>
    rw [List.foldl_cons, State.takeIn_of_misses h, State.joinWaiting_of_outstanding outstanding]
    refine (ih (s := s.withAr { s.ar with waiting := s.ar.waiting ++ [i] }) outstanding
      ⟨h.away, h.missed, fun j mem => h.checks j (List.mem_cons_of_mem i mem)⟩).trans ?_
    simp only [State.withAr_ar, List.append_assoc, List.singleton_append]
    rfl

/-- A query is for the serving cell, whatever waits. -/
theorem State.query_withWaiting (s : State) (w : List Nat) :
    (s.withAr { s.ar with waiting := w }).query = s.query.withAr { s.query.ar with waiting := w } := rfl

theorem State.query_outstanding (s : State) : s.query.ml.queryMarker = some s.ar.cell := by
  change (ModemLink.trySend _).queryMarker = _
  unfold ModemLink.trySend
  split
  · split <;> rfl
  · rfl

theorem State.takeIns_of_none {s : State} (none' : s.ml.queryMarker = none) {i : Nat} (h : s.MissesAll (i :: is)) :
    (i :: is).foldl State.takeIn (s, [])
      = ((s.withAr { s.ar with waiting := s.ar.waiting ++ i :: is }).query, []) := by
  rw [List.foldl_cons, State.takeIn_of_misses h, State.joinWaiting_of_none none', State.query_withWaiting]
  refine (State.takeIns_of_outstanding (s := s.query.withAr { s.query.ar with waiting := s.ar.waiting ++ [i] })
    s.query_outstanding ⟨h.away, h.missed, fun j mem => h.checks j (List.mem_cons_of_mem i mem)⟩).trans ?_
  simp only [State.withAr_ar, List.append_assoc, List.singleton_append]
  rfl

end Missing

theorem Entry.soundsLike.verdict {e f : Entry} (h : e.soundsLike f) : e.verdict = f.verdict := by
  have same : { e with sounded := f.sounded } = f := h
  exact (congrArg Entry.verdict same :)

/-- A good record sets the location, goes on with an outstanding query, and judges no entry outside LOCATING and
OUTSIDE. -/
theorem cell_located {s : State} {cell : Word32} {service quality : Byte} {sv : Service} (idle : s.ModemIdle)
    (read : service.toNat = sv.code) (small : quality.toNat ≤ 3) :
    ∃ t, exec (.cell cell service quality) s = .next t
      ∧ t.ar.cell = cell ∧ t.ar.service = sv ∧ t.ar.quality = quality.toNat
      ∧ (s.ml.queryMarker ≠ none → t.ml.queryMarker = s.ml.queryMarker)
      ∧ ∀ i, (s.entry i).state ≠ .locating → (s.entry i).state ≠ .outside →
          (t.entry i).state = (s.entry i).state ∧ (t.entry i).verdict = (s.entry i).verdict := by
  have ran := exec_cell idle cell service quality
  rw [State.cellRecord_of_good read small] at ran
  refine ⟨_, ran, ?_⟩
  split
  · exact ⟨rfl, rfl, rfl, fun _ => rfl, fun _ _ _ => ⟨rfl, rfl⟩⟩
  · have location := (s.recordIn.located cell sv quality).changeCell_location
    simp only [Resolver.location, Prod.mk.injEq] at location
    obtain ⟨isCell, isService, isQuality⟩ := location
    refine ⟨isCell, isService, isQuality, fun outstanding => ?_, fun i apart inside => ?_⟩
    · obtain ⟨other, marker⟩ := Option.ne_none_iff_exists'.mp outstanding
      rw [State.changeCell_eq, State.resolve_ml (s := (s.recordIn.located cell sv quality).relocated) marker]
      rfl
    · have sounds := State.changeCell_others (s := s.recordIn.located cell sv quality) apart inside
      exact ⟨sounds.kept.1, sounds.verdict⟩

/-- To a cell that the cache does not know, the entries wait. -/
theorem changeCell_of_misses {u : State} (law : u.OwnerLaw) (away : u.ar.cell ≠ 0)
    (missed : u.ar.cached u.ar.cell = none) (checking : u.settings.areaCheck ≠ 0)
    (areas : ∀ e ∈ u.table, e.state = .locating ∨ e.state = .outside → e.areas ≠ []) :
    let is := (List.range u.table.length).filter fun i => (u.entry i).state = .locating || (u.entry i).state = .outside
    let joined := (u.withTable (u.table.map Entry.relocated)).withAr { u.ar with waiting := is }
    (∀ other, u.ml.queryMarker = some other → u.changeCell = joined)
    ∧ (u.ml.queryMarker = none → is ≠ [] → u.changeCell = joined.query) := by
  intro is joined
  have law' : u.relocated.OwnerLaw := u.relocated_calm.ownerLaw law
  have misses : u.relocated.MissesAll is := ⟨away, missed, fun i mem => ⟨checking, ?_⟩⟩
  · rw [State.changeCell_eq, State.relocated_indexes]
    refine ⟨fun other outstanding => ?_, fun none' some' => ?_⟩
    · rw [State.resolve, State.takeIns_of_outstanding (s := u.relocated) (other := other) outstanding misses]
      exact State.attend_of_ownerLaw (law'.withAr _)
    · obtain ⟨i, rest, split⟩ := List.exists_cons_of_ne_nil some'
      rw [State.resolve]
      change State.giveVerdicts (is.foldl State.takeIn _).1 (is.foldl State.takeIn _).2 = _
      rw [split] at misses
      have taken := State.takeIns_of_none (s := u.relocated) none' misses
      rw [← split] at taken
      rw [taken]
      exact (State.query_calm joined).attend_eq (law'.withAr _)
  · obtain ⟨inTable, apart⟩ := u.mem_relocated_indexes.mp (by rw [State.relocated_indexes]; exact mem)
    rw [State.relocated_entry, (u.entry i).relocated_keeps.2.2.1]
    exact areas _ (u.mem_table_entry inTable) apart

/-- A list without repetition whose one member is known. -/
theorem List.eq_singleton_of_nodup {l : List Nat} {i : Nat} (nodup : l.Nodup) (alone : ∀ j, j ∈ l ↔ j = i) : l = [i] :=
  List.perm_singleton.mp ((List.perm_ext_iff_of_nodup nodup (List.nodup_singleton i)).mpr fun j => by
    rw [alone, List.mem_singleton])

/-- To a cell whose code the cache holds, a lone entry with areas to check is judged. -/
theorem changeCell_of_alone {u : State} {i : Nat} {category : Category} {code : Word32} (away : u.ar.cell ≠ 0)
    (held : u.ar.cached u.ar.cell = some code) (checking : u.settings.areaCheck ≠ 0) (inTable : i < u.table.length)
    (own : (u.entry i).state = .locating ∨ (u.entry i).state = .outside)
    (alone : ∀ j, j ≠ i → (u.entry j).state ≠ .locating ∧ (u.entry j).state ≠ .outside)
    (areas : (u.entry i).areas ≠ []) (whole : (u.entry i).bodyHeld = true) (known : (u.entry i).category = some category) :
    u.changeCell.ar.waiting = [] ∧ u.changeCell.ml = u.ml
      ∧ u.placedAs u.changeCell i (if areaMatches (u.entry i).areas code = true then .inside else .outside) category := by
  obtain ⟨issue, categories, areaList, map, total⟩ := (u.entry i).relocated_keeps
  have entry := u.relocated_entry i
  have indexes : (u.relocated.indexes fun e => e.state == .locating) = [i] :=
    List.eq_singleton_of_nodup (State.indexes_nodup _ _) fun j => by
      rw [State.mem_relocated_indexes]
      refine ⟨fun ⟨_, apart⟩ => ?_, fun same => same ▸ ⟨inTable, own⟩⟩
      by_contra other
      exact apart.elim (alone j other).1 (alone j other).2
  have checked : u.relocated.checks i := ⟨checking, by rw [entry, areaList]; exact areas⟩
  have verdict : u.relocated.verdictFor i = some (verdictBy (u.entry i).areas code) := by
    rw [State.verdictFor_of_checks checked away, entry, areaList]
    exact congrArg (Option.map _) held
  have wholeRelocated : (u.relocated.entry i).bodyHeld = true := by
    rw [entry, ← whole]
    simp only [Entry.bodyHeld, map, total]
  have judged := State.Judged.give (s := u.relocated.withAr (u.relocated.ar.touched u.relocated.ar.cell))
    (i := i) (category := category) (v := verdictBy (u.entry i).areas code)
    (inTable.trans_eq (List.length_map _).symm) wholeRelocated
    ((congrArg Entry.category entry).trans (categories.trans known)) (verdictBy_decided _ _)
  rw [State.changeCell_eq, indexes, State.resolve_of_verdict verdict, State.lookedUp_of_checks checked away]
  refine ⟨?_, judged.ml, judged.placed.rebase ⟨rfl, rfl, rfl, rfl, rfl, ?_⟩⟩
  · rw [judged.ar]
    simp only [State.withAr_ar, Resolver.touched_waiting]
    rfl
  · exact ((congrArg Entry.issue entry).trans issue).symm

/-- Settles O10. -/
theorem cellReplacesLocation : Obligations.CellReplacesLocation := by
  unfold Obligations.CellReplacesLocation
  refine ⟨fun s cell service quality idle => ⟨fun bad => ?_, fun sv read small =>
      ⟨fun same => ?_, cell_located idle read small⟩⟩,
    fun s cell service quality sv idle law read small changed away missed checking areas => ?_,
    fun s cell code service quality sv i category idle read small changed away held checking inTable own alone areas
      whole known => ?_⟩
  · rw [exec_cell idle, State.cellRecord_of_bad bad]
  · rw [exec_cell idle, State.cellRecord_of_good read small]
    subst same
    exact congrArg Host.Outcome.next (if_pos rfl)
  · intro moved there
    have ran := exec_cell idle cell service quality
    rw [State.cellRecord_of_good read small, if_neg (show cell ≠ s.recordIn.ar.cell from changed)] at ran
    obtain ⟨waits, asks⟩ := changeCell_of_misses (u := s.recordIn.located cell sv quality) law away missed checking areas
    refine ⟨fun other outstanding => ran.trans (congrArg _ (waits other outstanding)), fun none' some' =>
      ran.trans (congrArg _ ((asks none' fun empty => ?_).trans (State.query_eq _)))⟩
    obtain ⟨e, mem, apart⟩ := some'
    obtain ⟨j, inTable, rfl⟩ := List.getElem_of_mem mem
    have own : s.entry j = s.table[j] := by simp [State.entry, inTable]
    rw [← State.relocated_indexes] at empty
    have member := (State.mem_relocated_indexes (s.recordIn.located cell sv quality) (i := j)).mpr
      ⟨inTable, by rw [← own] at apart; exact apart⟩
    rw [empty] at member
    cases member
  · have ran := exec_cell idle cell service quality
    rw [State.cellRecord_of_good read small, if_neg (show cell ≠ s.recordIn.ar.cell from changed)] at ran
    obtain ⟨nobody, ml, placed⟩ := changeCell_of_alone (u := s.recordIn.located cell sv quality) away held checking
      inTable own alone areas whole known
    exact ⟨_, ran, nobody, (congrArg ModemLink.queryMarker ml :), placed.rebase ⟨rfl, rfl, rfl, rfl, rfl, rfl⟩⟩

end Sys2Proof.Machine

/-! What no operation of a block touches: the clocks, the station tag and its mark, and TAG_CLASH (04 R74, R75;
09 R176). -/

namespace Sys2Proof.Machine

/-- Uptime and alert clock, the station tag and its mark, and the TAG_CLASH flag. -/
def State.standing (s : State) : (Nat × Nat × Option Nat) × (Word32 × Bool) × Bool :=
  ((s.tb.uptime, s.tb.milli, s.tb.alertClock), (s.cs.tag, s.cs.tagMarked), s.flags.tagClash)

theorem State.standing_parts {s t : State} (same : t.standing = s.standing) :
    (t.now = s.now ∧ t.tb.alertClock = s.tb.alertClock) ∧ (t.cs.tag = s.cs.tag ∧ t.cs.tagMarked = s.cs.tagMarked)
      ∧ t.flags.tagClash = s.flags.tagClash := by
  simp only [State.standing, Prod.mk.injEq] at same
  obtain ⟨⟨uptime, milli, clock⟩, tag, flag⟩ := same
  exact ⟨⟨by simp only [State.now, TimeBase.ms, uptime, milli], clock⟩, tag, flag⟩

/-- Moves of parts that it does not read. -/
theorem State.onlyChanges.standing {s t : State} {ps : List Part} (h : s.onlyChanges ps t)
    (unread : .tb ∉ ps ∧ .cs ∉ ps ∧ .flags ∉ ps) : t.standing = s.standing := by
  have tb : t.tb = s.tb := h .tb unread.1
  have cs : t.cs = s.cs := h .cs unread.2.1
  have flags : t.flags = s.flags := h .flags unread.2.2
  rw [State.standing, tb, cs, flags, State.standing]

/-- What stands through every step stands through a row of them. -/
theorem State.foldl_standing {α : Type} {f : State → α → State} (step : ∀ s a, (f s a).standing = s.standing)
    (l : List α) (s : State) : (l.foldl f s).standing = s.standing :=
  List.foldlRecOn (motive := fun t : State => t.standing = s.standing) l f rfl fun t same a _ => (step t a).trans same

section Parts
variable (s : State)

@[simp] theorem State.drew_standing : s.drew.standing = s.standing := rfl
@[simp] theorem State.withTable_standing (x) : (s.withTable x).standing = s.standing := rfl
@[simp] theorem State.withStore_standing (x) : (s.withStore x).standing = s.standing := rfl
@[simp] theorem State.withFree_standing (x) : (s.withFree x).standing = s.standing := rfl
@[simp] theorem State.withAr_standing (x) : (s.withAr x).standing = s.standing := rfl
@[simp] theorem State.withRu_standing (x) : (s.withRu x).standing = s.standing := rfl
@[simp] theorem State.withPu_standing (x) : (s.withPu x).standing = s.standing := rfl
@[simp] theorem State.withMl_standing (x) : (s.withMl x).standing = s.standing := rfl
@[simp] theorem State.count_standing (c : Counter) : (s.count c).standing = s.standing := rfl
@[simp] theorem State.setEntry_standing (i e) : (s.setEntry i e).standing = s.standing := rfl
@[simp] theorem State.modEntry_standing (i f) : (s.modEntry i f).standing = s.standing := rfl
@[simp] theorem State.setTally_standing (k y) : (s.setTally k y).standing = s.standing := rfl

theorem State.flag_standing {f : Flag} (other : f ≠ .tagClash) : (s.flag f).standing = s.standing := by
  cases f
  case tagClash => exact absurd rfl other
  all_goals rfl

/-- A station of the same line has the same tag. -/
theorem State.withCs_standing {c : Station} (line : s.cs.SameLine c) : (s.withCs c).standing = s.standing := by
  simp only [State.standing, State.withCs_cs, line.tag, line.tagMarked]
  rfl

end Parts

/-! ### The channel (04 R79 to R83) -/

section Channel
variable (s : State)

/-- Moves of the channel that keep its line. -/
theorem State.standing_of_line {t : State} (line : s.cs.SameLine t.cs) (tb : t.tb = s.tb) (flags : t.flags = s.flags) :
    t.standing = s.standing := by
  simp only [State.standing, line.tag, line.tagMarked, tb, flags]

@[simp] theorem State.contend_standing (q : Queue) : (s.contend q).standing = s.standing := by
  have frame := (s.drew.withCs { s.cs with contender := some ⟨q, s.draw s.cs.cw,
    if s.draw s.cs.cw = 0 ∨ s.cs.busy then none else some (s.now + s.settings.slotTime)⟩ }).tryHandOver_frame
  exact State.standing_of_line s.drew (t := s.contend q) (s.contend_sameLine q) (frame .tb (by decide))
    (frame .flags (by decide))

@[simp] theorem State.arbitrate_standing : s.arbitrate.standing = s.standing := by
  unfold State.arbitrate
  split
  · split
    · exact s.contend_standing _
    · rfl
  · rfl

@[simp] theorem State.request_standing (p : Payload) : (s.request p).standing = s.standing := by
  unfold State.request
  split
  · rfl
  · exact s.withCs_standing (Station.setWaiting_sameLine _ _ _)
  · rfl
  · exact (State.arbitrate_standing _).trans (s.withCs_standing (Station.setWaiting_sameLine _ _ _))

@[simp] theorem State.requests_standing (ps : List Payload) : (ps.foldl State.request s).standing = s.standing :=
  State.foldl_standing State.request_standing ps s

@[simp] theorem State.removePieces_standing (i : Issue) (index : Option Nat) :
    (s.removePieces i index).standing = s.standing :=
  (State.arbitrate_standing _).trans (s.withCs_standing ⟨rfl, rfl, rfl, rfl, rfl, rfl, rfl, rfl⟩)

end Channel

/-! ### Offer and want records, notices (05, 07) -/

section Records
variable (s : State) (i : Nat)

@[simp] theorem State.startOffer_standing : (s.startOffer i).standing = s.standing := rfl

@[simp] theorem State.resetOffer_standing : (s.resetOffer i).standing = s.standing := by
  unfold State.resetOffer; split <;> rfl

@[simp] theorem State.requestWant_standing : (s.requestWant i).standing = s.standing := by
  unfold State.requestWant
  split
  · exact s.request_standing _
  · rfl

@[simp] theorem State.askForAll_standing : (s.askForAll i).standing = s.standing := s.requestWant_standing i

@[simp] theorem State.post_standing (n : Notice) : (s.post n).standing = s.standing := by
  unfold State.post
  split
  · rfl
  · exact s.flag_standing nofun

@[simp] theorem State.postIfHeld_standing (kind : NoticeKind) (successor : Option Nat) :
    (s.postIfHeld i kind successor).standing = s.standing := by
  unfold State.postIfHeld
  split
  · exact s.post_standing _
  · rfl

@[simp] theorem State.attend_standing : s.attend.standing = s.standing := s.attend_frame.standing (by decide)

end Records

/-! ### Tallies (06) -/

section Tallies
variable (s : State) (k : Nat)

@[simp] theorem State.modTally_standing (f : Tally → Tally) : (s.modTally k f).standing = s.standing :=
  (s.modTally_frame k f).standing (by decide)

@[simp] theorem State.enterWaiting_standing : (s.enterWaiting k).standing = s.standing := by
  unfold State.enterWaiting; split <;> rfl

@[simp] theorem State.takeTally_standing (issue : Issue) (level : Level) :
    (s.takeTally k issue level).standing = s.standing := State.enterWaiting_standing _ k

@[simp] theorem State.freeTally_standing : (s.freeTally k).standing = s.standing := by
  unfold State.freeTally State.serveDeferred
  split
  · split
    · exact State.takeTally_standing _ k _ _
    · rfl
  · rfl

@[simp] theorem State.settle_standing : (s.settle k).standing = s.standing := by
  unfold State.settle; repeat' split
  · exact s.freeTally_standing k
  all_goals rfl

@[simp] theorem State.takeOrDefer_standing (issue : Issue) (precedence : Nat) (level : Level) :
    (s.takeOrDefer issue precedence level).standing = s.standing := by
  unfold State.takeOrDefer
  split
  · exact s.takeTally_standing _ _ _
  · rfl

@[simp] theorem State.receiptEvent_standing (issue : Issue) (precedence : Nat) :
    (s.receiptEvent issue precedence).standing = s.standing := by
  unfold State.receiptEvent; repeat' split
  · exact s.modTally_standing _ _
  · rfl
  · exact s.takeOrDefer_standing _ _ _

@[simp] theorem State.receiptEvents_standing (rs : List Receipt) : (s.receiptEvents rs).standing = s.standing :=
  State.foldl_standing (fun u (r : Receipt) => u.receiptEvent_standing r.1 r.2.1) _ s

@[simp] theorem State.requestTally_standing : (s.requestTally k).standing = s.standing := by
  unfold State.requestTally
  split
  · exact s.request_standing _
  · rfl

@[simp] theorem State.leaveUplink_standing : (s.leaveUplink k).standing = s.standing := by
  unfold State.leaveUplink; repeat' split
  all_goals simp

@[simp] theorem State.uplinkAccepted_standing (items : List Item) : (s.uplinkAccepted k items).standing = s.standing := by
  unfold State.uplinkAccepted
  split <;> simp

@[simp] theorem State.uplinkFailed_standing : (s.uplinkFailed k).standing = s.standing := by
  unfold State.uplinkFailed
  dsimp only
  repeat' split
  all_goals simp

@[simp] theorem State.sendDigest_standing : (s.sendDigest k).standing = s.standing := by
  unfold State.sendDigest State.sendUplink
  repeat' split
  all_goals simp

@[simp] theorem State.nextUplink_standing : s.nextUplink.standing = s.standing := by
  have serve (n : Nat) : ∀ u : State, (State.serveUplinks n u).standing = u.standing := by
    induction n with
    | zero => exact fun _ => rfl
    | succ n ih =>
      intro u
      unfold State.serveUplinks
      split
      · exact (ih _).trans (State.sendDigest_standing _ _)
      · rfl
  exact serve _ s

@[simp] theorem State.joinUplink_standing : (s.joinUplink k).standing = s.standing := by
  unfold State.joinUplink
  simp

theorem State.clearUplink_standing : s.clearUplink.standing = s.standing := rfl

@[simp] theorem State.endUplink_standing (accepted : Bool) : (s.endUplink accepted).standing = s.standing := by
  unfold State.endUplink
  dsimp only
  repeat' split
  all_goals simp [State.clearUplink_standing]

@[simp] theorem State.entryEnds_standing (issue : Issue) (superseded : Bool) :
    (s.entryEnds issue superseded).standing = s.standing := by
  unfold State.entryEnds
  dsimp only
  repeat' split
  all_goals simp

@[simp] theorem State.tellEnded_standing (issue : Option Issue) (superseded : Bool) :
    (s.tellEnded issue superseded).standing = s.standing := by
  unfold State.tellEnded
  split
  · exact s.entryEnds_standing _ _
  · rfl

end Tallies

/-! ### Entries (01) -/

section Entries
variable (s : State) (i : Nat)

@[simp] theorem State.releaseBody_standing : (s.releaseBody i).standing = s.standing := by
  unfold State.releaseBody
  dsimp only
  repeat' split
  all_goals simp

@[simp] theorem State.closeEntry_standing (reason : Reason) : (s.closeEntry i reason).standing = s.standing :=
  (s.closeEntry_frame i reason).standing (by decide)

@[simp] theorem State.freeEntry_standing (superseded : Bool) : (s.freeEntry i superseded).standing = s.standing := by
  rw [State.freeEntry_eq, State.tellEnded_standing]
  exact ((s.releaseBody i).emptySlot_frame i).standing (by decide) |>.trans (s.releaseBody_standing i)

@[simp] theorem State.place_standing (v : Verdict) (precedence : Nat) : (s.place i v precedence).standing = s.standing :=
  (s.place_frame i v precedence).standing (by decide)

@[simp] theorem State.returnToAssembling_standing : (s.returnToAssembling i).standing = s.standing := by
  unfold State.returnToAssembling
  repeat' split
  all_goals simp

@[simp] theorem State.applyVerdict_standing (v : Verdict) : (s.applyVerdict i v).standing = s.standing := by
  have left : (s.leaveWaiting i).standing = s.standing := rfl
  unfold State.applyVerdict
  dsimp only
  repeat' split
  all_goals simp [left]

@[simp] theorem State.giveVerdicts_standing (vs : List (Nat × Verdict)) : (s.giveVerdicts vs).standing = s.standing := by
  have given := State.foldl_standing (fun u (p : Nat × Verdict) => u.applyVerdict_standing p.1 p.2) vs s
  simp only [State.giveVerdicts, State.attend_standing, State.receiptEvents_standing, given]

@[simp] theorem State.judgeWaiting_standing (verdict : List Descriptor → Verdict) :
    (s.judgeWaiting verdict).standing = s.standing := State.giveVerdicts_standing _ _

@[simp] theorem State.followUp_standing : s.followUp.standing = s.standing := by
  have asked : s.query.standing = s.standing := s.query_frame.standing (by decide)
  unfold State.followUp
  repeat' split
  all_goals simp [asked]

@[simp] theorem State.queryTimedOut_standing : s.queryTimedOut.standing = s.standing := by
  have ended : s.queryLate.standing = s.standing := (State.flag_standing s.queryOver (f := .queryTimeout) nofun).trans rfl
  cases marker : s.ml.queryMarker with
  | none => rw [State.queryTimedOut_of_none marker]
  | some cell =>
    by_cases serving : cell = s.ar.cell
    · rw [State.queryTimedOut_of_serving marker serving, State.judgeWaiting_standing, ended]
    · rw [State.queryTimedOut_of_other marker serving, State.followUp_standing, ended]

end Entries

end Sys2Proof.Machine

/-! HELLO (09 R175; 03 R57, R64; 06 R127), and a fall of the modem ready line at its moment (09 R179). -/

namespace Sys2Proof.Machine

/-! ### Records owed to their markers (09 R177, R178) -/

namespace ModemLink
variable (m : ModemLink)

/-- The records being sent or in the hold, in order. -/
def records : List ModemRecord := m.sending.toList ++ m.hold

/-- The marker of its kind names the record. -/
def names (r : ModemRecord) : Bool :=
  match r with
  | .regionQuery cell => m.queryMarker == some cell
  | .uplink i _ _ => m.uplinkMarker == some i

/-- Every record is named by its marker, and no two are of one kind. -/
structure Owed : Prop where
  named : ∀ r ∈ m.records, m.names r = true
  apart : m.records.Pairwise fun a b => a.isQuery ≠ b.isQuery

theorem trySend_records : m.trySend.records = m.records := by
  unfold trySend
  split
  · next sending hold =>
    split
    · simp [records, sending, hold]
    · rfl
  · rfl

theorem trySend_names : m.trySend.names = m.names := by
  unfold trySend
  split
  · split <;> rfl
  · rfl

theorem trySend_partReady : m.trySend.partReady = m.partReady := by
  unfold trySend
  split
  · split <;> rfl
  · rfl

variable {m}

theorem Owed.trySend (h : m.Owed) : m.trySend.Owed := by
  refine ⟨fun r mem => ?_, ?_⟩
  · rw [trySend_names]
    exact h.named r (m.trySend_records ▸ mem)
  · rw [trySend_records]
    exact h.apart

theorem Owed.owes (h : m.Owed) {r : ModemRecord} (sending : m.sending = some r) : m.owes r = true := by
  obtain ⟨named, apart⟩ := h
  have all : m.records = r :: m.hold := by simp [records, sending]
  rw [all] at named apart
  have alone : m.hold.any (fun x => x.isQuery == r.isQuery) = false := by
    rw [List.any_eq_false]
    intro x mem same
    exact (List.pairwise_cons.mp apart).1 x mem (beq_iff_eq.mp same).symm
  have own := named r List.mem_cons_self
  unfold ModemLink.owes
  rw [alone]
  cases r <;> simpa [names] using own

/-- A record joins the tail of the hold of a link that names none of its kind. -/
theorem Owed.join {n : ModemLink} {r : ModemRecord} (h : m.Owed) (all : n.records = m.records ++ [r])
    (own : n.names r = true) (others : ∀ x ∈ m.records, x.isQuery ≠ r.isQuery ∧ n.names x = m.names x) : n.Owed := by
  refine ⟨fun x mem => ?_, ?_⟩
  · rw [all, List.mem_append, List.mem_singleton] at mem
    obtain mem | rfl := mem
    · rw [(others x mem).2]; exact h.named x mem
    · exact own
  · rw [all, List.pairwise_append]
    exact ⟨h.apart, List.pairwise_singleton _ _, fun a mem b single => by
      rw [List.mem_singleton.mp single]; exact (others a mem).1⟩

theorem Owed.sendUplink (h : m.Owed) (none' : m.uplinkMarker = none) (i : Issue) (reporter : Word32) (items : List Item) :
    (ModemLink.trySend { m with uplinkMarker := some i, hold := m.hold ++ [.uplink i reporter items] }).Owed := by
  refine (h.join (r := .uplink i reporter items) (List.append_assoc ..).symm (by simp [names]) fun x mem => ?_).trySend
  cases x with
  | regionQuery cell => exact ⟨nofun, rfl⟩
  | uplink i' reporter' items' => simpa [names, none'] using h.named _ mem

/-- Every record is a query that is owed: an uplink marker that is cleared leaves all named. -/
structure QueriesOwed (m : ModemLink) : Prop where
  owed : m.Owed
  queries : ∀ r ∈ m.records, r.isQuery = true

theorem QueriesOwed.of_empty (empty : m.records = []) : m.QueriesOwed :=
  ⟨⟨by rw [empty]; nofun, by rw [empty]; exact .nil⟩, by rw [empty]; nofun⟩

theorem QueriesOwed.of_query {cell : Word32} (alone : m.records = [.regionQuery cell]) (marker : m.queryMarker = some cell) :
    m.QueriesOwed := by
  refine ⟨⟨fun r mem => ?_, by rw [alone]; exact List.pairwise_singleton _ _⟩, fun r mem => ?_⟩
  all_goals
    rw [alone, List.mem_singleton] at mem
    subst mem
  · simp [names, marker]
  · rfl

theorem QueriesOwed.clearUplink (h : m.QueriesOwed) :
    ({ m with uplinkMarker := none, hold := m.hold.filter fun r => r.isQuery } : ModemLink).Owed := by
  have stays : m.hold.filter (fun r => r.isQuery) = m.hold :=
    List.filter_eq_self.mpr fun r mem => h.queries r (List.mem_append_right _ mem)
  rw [stays]
  refine ⟨fun r mem => ?_, h.owed.apart⟩
  have query := h.queries r mem
  cases r with
  | regionQuery cell => exact h.owed.named _ mem
  | uplink i reporter items => cases query

end ModemLink

/-! ### The uplink queue and the link (06 R125) -/

section Served
variable {P : ModemLink → Prop} (send : ∀ m i reporter items, m.uplinkMarker = none → P m →
  P (ModemLink.trySend { m with uplinkMarker := some i, hold := m.hold ++ [.uplink i reporter items] }))
include send

/-- What each uplink sent keeps of the link, the service of the queue keeps. -/
theorem State.nextUplink_ml (s : State) (h : P s.ml) : P s.nextUplink.ml := by
  have served (n : Nat) : ∀ u : State, P u.ml → P (State.serveUplinks n u).ml := by
    induction n with
    | zero => exact fun _ h => h
    | succ n ih =>
      intro u h
      unfold State.serveUplinks
      split
      · next k rest marker queue =>
        refine ih _ ?_
        unfold State.sendDigest
        split
        · split
          · rwa [State.uplinkFailed_frame _ _ .ml (by decide)]
          · split
            · rwa [State.uplinkAccepted_frame _ _ _ .ml (by decide)]
            · exact send _ _ _ _ marker h
        · exact h
      · exact h
  exact served _ s h

theorem State.endUplink_ml (s : State) (accepted : Bool) (stands : P s.ml)
    (h : P { s.ml with uplinkMarker := none, hold := s.ml.hold.filter fun r => r.isQuery }) :
    P (s.endUplink accepted).ml := by
  unfold State.endUplink
  split
  · dsimp only
    split
    · split
      · refine State.nextUplink_ml send _ ?_
        cases accepted with
        | true => exact (State.uplinkAccepted_frame s.clearUplink _ _ .ml (by decide)).symm ▸ h
        | false => exact (State.uplinkFailed_frame s.clearUplink _ .ml (by decide)).symm ▸ h
      · exact State.nextUplink_ml send _ h
    · exact State.nextUplink_ml send _ h
  · exact stands

end Served

/-! ### HELLO: what each part leaves (09 R175) -/

section Hello
variable {s : State}

/-- The state with every cache entry invalid, before the query and the uplink end. -/
def State.forgotten (s : State) : State := s.recordIn.withAr s.recordIn.ar.invalidated

theorem State.forgotten_missed (cell : Word32) : s.forgotten.ar.cached cell = none := by
  rw [Resolver.cached_eq_none_iff]
  intro c mem
  obtain ⟨d, -, rfl⟩ := List.mem_map.mp mem
  rfl

/-- The query that ends finds no code in a cache without valid entries. -/
theorem State.queryTimedOut_cases {cell : Word32} (outstanding : s.ml.queryMarker = some cell)
    (missed : s.ar.cached s.ar.cell = none) :
    (s.queryTimedOut.ml = s.queryLate.ml ∧ (s.queryTimedOut.ar = s.queryLate.ar
        ∨ s.queryTimedOut.ar = { s.queryLate.ar with waiting := [] }))
      ∨ s.queryTimedOut = s.queryLate.query := by
  by_cases serving : cell = s.ar.cell
  · obtain ⟨ml, ar, -⟩ := State.queryTimedOut_serving outstanding serving
    exact .inl ⟨ml, .inr ar⟩
  · rw [State.queryTimedOut_of_other outstanding serving]
    by_cases nobody : s.queryLate.ar.waiting = []
    · rw [State.followUp_of_nobody nobody]
      exact .inl ⟨rfl, .inl rfl⟩
    by_cases nowhere : s.queryLate.ar.cell = 0
    · rw [State.followUp_of_nowhere nobody nowhere, State.judgeWaiting_ml, State.judgeWaiting_ar]
      exact .inl ⟨rfl, .inr rfl⟩
    · exact .inr (State.followUp_of_miss nobody nowhere missed)

theorem State.queryTimedOut_ar (missed : s.ar.cached s.ar.cell = none) :
    s.queryTimedOut.ar.cache = s.ar.cache ∧ s.queryTimedOut.ar.location = s.ar.location := by
  cases marker : s.ml.queryMarker with
  | none => rw [State.queryTimedOut_of_none marker]; exact ⟨rfl, rfl⟩
  | some cell =>
    obtain ⟨-, ar | ar⟩ | asked := State.queryTimedOut_cases marker missed
    · rw [ar]; exact ⟨rfl, rfl⟩
    · rw [ar]; exact ⟨rfl, rfl⟩
    · rw [asked]; exact ⟨rfl, rfl⟩

theorem State.queryTimedOut_ml (missed : s.ar.cached s.ar.cell = none) :
    s.queryTimedOut.ml.uplinkMarker = s.ml.uplinkMarker ∧ s.queryTimedOut.ml.partReady = s.ml.partReady := by
  cases marker : s.ml.queryMarker with
  | none => rw [State.queryTimedOut_of_none marker]; exact ⟨rfl, rfl⟩
  | some cell =>
    obtain ⟨ml, -⟩ | asked := State.queryTimedOut_cases marker missed
    · rw [ml]; exact ⟨rfl, rfl⟩
    · rw [asked]
      exact ⟨ModemLink.trySend_uplinkMarker _, ModemLink.trySend_partReady _⟩

/-- From a link with no record a query that ends leads to a link with at most the fresh one. -/
theorem State.queryTimedOut_owed (missed : s.ar.cached s.ar.cell = none) (empty : s.ml.records = []) :
    s.queryTimedOut.ml.QueriesOwed := by
  cases marker : s.ml.queryMarker with
  | none => rw [State.queryTimedOut_of_none marker]; exact .of_empty empty
  | some cell =>
    obtain ⟨sending, hold⟩ := List.append_eq_nil_iff.mp empty
    have late : s.queryLate.ml.records = [] := by
      change s.ml.sending.toList ++ s.ml.hold.filter _ = []
      rw [sending, hold]
      rfl
    obtain ⟨ml, -⟩ | asked := State.queryTimedOut_cases marker missed
    · rw [ml]; exact .of_empty late
    · rw [asked]
      refine .of_query (cell := s.queryLate.ar.cell) ?_ (ModemLink.trySend_queryMarker _)
      refine (ModemLink.trySend_records _).trans ?_
      change s.queryLate.ml.sending.toList ++ (s.queryLate.ml.hold ++ [_]) = _
      rw [← List.append_assoc]
      exact congrArg (· ++ [_]) late

theorem State.helloUplink_of_none (none' : s.ml.uplinkMarker = none) : s.helloUplink = s := by
  simp only [State.helloUplink, none']

theorem State.helloUplink_of_some {issue : Issue} (outstanding : s.ml.uplinkMarker = some issue) :
    s.helloUplink = (s.flag .uplinkTimeout).endUplink false := by
  simp only [State.helloUplink, outstanding]

theorem State.helloUplink_standing (s : State) : s.helloUplink.standing = s.standing := by
  cases marker : s.ml.uplinkMarker with
  | none => rw [State.helloUplink_of_none marker]
  | some issue =>
    rw [State.helloUplink_of_some marker, State.endUplink_standing]
    exact s.flag_standing nofun

theorem State.helloUplink_flags (s : State) : s.helloUplink.flags
    = if s.ml.uplinkMarker = none then s.flags else { s.flags with uplinkTimeout := true } := by
  cases marker : s.ml.uplinkMarker with
  | none => rw [State.helloUplink_of_none marker]; rfl
  | some issue =>
    rw [State.helloUplink_of_some marker]
    exact State.endUplink_frame _ _ .flags (by decide)

theorem State.helloUplink_partReady (s : State) : s.helloUplink.ml.partReady = s.ml.partReady := by
  cases marker : s.ml.uplinkMarker with
  | none => rw [State.helloUplink_of_none marker]
  | some issue =>
    rw [State.helloUplink_of_some marker]
    exact State.endUplink_ml (P := fun m => m.partReady = s.ml.partReady)
      (fun m i reporter items _ h => (ModemLink.trySend_partReady _).trans h) (s.flag .uplinkTimeout) false rfl rfl

theorem State.helloUplink_owed (owed : s.ml.QueriesOwed) : s.helloUplink.ml.Owed := by
  cases marker : s.ml.uplinkMarker with
  | none => rw [State.helloUplink_of_none marker]; exact owed.owed
  | some issue =>
    rw [State.helloUplink_of_some marker]
    exact State.endUplink_ml (fun m i reporter items none' h => h.sendUplink none' i reporter items)
      (s.flag .uplinkTimeout) false owed.owed owed.clearUplink

/-- The state once query and uplink have ended, before the moment is noted. -/
def State.helloEnded (s : State) : State := s.forgotten.queryTimedOut.helloUplink

theorem exec_hello_eq (idle : s.ModemIdle) :
    exec .hello s = .next (s.helloEnded.withMl (s.helloEnded.ml.noteHello s.ml s.now)) := exec_hello idle

theorem State.helloEnded_standing (s : State) : s.helloEnded.standing = s.standing := by
  rw [State.helloEnded, State.helloUplink_standing, State.queryTimedOut_standing]
  rfl

theorem State.helloEnded_ar (s : State) : s.helloEnded.ar = s.forgotten.queryTimedOut.ar :=
  State.helloUplink_frame _ .ar (by decide)

end Hello

/-- With no marker present HELLO empties the cache. -/
theorem hello_of_unmarked {s : State} (idle : s.ModemIdle) (noQuery : s.ml.queryMarker = none)
    (noUplink : s.ml.uplinkMarker = none) : exec .hello s = .next s.forgotten := by
  have ended : s.helloEnded = s.forgotten := by
    rw [State.helloEnded, State.queryTimedOut_of_none (s := s.forgotten) noQuery,
      State.helloUplink_of_none (s := s.forgotten) noUplink]
  have quiet : s.forgotten.ml.noteHello s.ml s.now = s.forgotten.ml := by
    unfold ModemLink.noteHello
    exact if_neg fun ⟨still, begun⟩ => begun still
  rw [exec_hello_eq idle, ended, quiet]
  rfl

theorem ModemLink.noteHello_partReady (m before : ModemLink) (now : Nat) :
    (m.noteHello before now).partReady = m.partReady := by
  unfold ModemLink.noteHello; split <;> rfl

/-- What is set and what stands. -/
theorem hello_sets (s : State) :
    let t := s.helloEnded.withMl (s.helloEnded.ml.noteHello s.ml s.now)
    (∀ c ∈ t.ar.cache, c.valid = false)
      ∧ (s.ml.queryMarker ≠ none → t.flags.queryTimeout = true)
      ∧ (s.ml.uplinkMarker ≠ none → t.flags.uplinkTimeout = true)
      ∧ t.ar.cell = s.ar.cell ∧ t.ar.service = s.ar.service ∧ t.ar.quality = s.ar.quality
      ∧ t.tb.alertClock = s.tb.alertClock ∧ t.ml.partReady = s.ml.partReady := by
  intro t
  have missed := s.forgotten_missed s.forgotten.ar.cell
  obtain ⟨cache, location⟩ := State.queryTimedOut_ar missed
  obtain ⟨uplinkMarker, partReady⟩ := State.queryTimedOut_ml missed
  have ar : t.ar = s.forgotten.queryTimedOut.ar := s.helloEnded_ar
  have flags : t.flags = s.helloEnded.flags := rfl
  have later := State.helloUplink_flags s.forgotten.queryTimedOut
  simp only [Resolver.location, Prod.mk.injEq] at location
  obtain ⟨isCell, isService, isQuality⟩ := location
  refine ⟨fun c mem => ?_, fun outstanding => ?_, fun outstanding => ?_, by rw [ar]; exact isCell,
    by rw [ar]; exact isService, by rw [ar]; exact isQuality, (State.standing_parts s.helloEnded_standing).1.2,
    (ModemLink.noteHello_partReady _ _ _).trans ((State.helloUplink_partReady _).trans partReady)⟩
  · rw [ar, cache] at mem
    obtain ⟨d, -, rfl⟩ := List.mem_map.mp mem
    rfl
  · obtain ⟨cell, marker⟩ := Option.ne_none_iff_exists'.mp outstanding
    have set' := State.queryTimedOut_flags (s := s.forgotten) marker
    rw [flags, State.helloEnded, later, set']
    split <;> rfl
  · rw [flags, State.helloEnded, later, if_neg (by rw [uplinkMarker]; exact outstanding)]

/-- The query ends as if timed out, as seen from before the record. -/
theorem hello_query {s : State} {cell : Word32} (outstanding : s.ml.queryMarker = some cell) :
    (cell ≠ s.ar.cell → s.forgotten.queryLate.followedUp s.forgotten.queryTimedOut)
      ∧ (cell = s.ar.cell → s.forgotten.queryTimedOut.ml = s.forgotten.queryLate.ml
        ∧ s.forgotten.queryTimedOut.ar = { s.forgotten.queryLate.ar with waiting := [] }
        ∧ ∀ i category, s.ar.waiting = [i] → i < s.table.length → (s.entry i).bodyHeld = true →
          (s.entry i).category = some category → s.placedAs s.forgotten.queryTimedOut i .unresolved category) := by
  refine ⟨State.queryTimedOut_other (s := s.forgotten) outstanding, fun serving => ?_⟩
  obtain ⟨ml, ar, placed⟩ := State.queryTimedOut_serving (s := s.forgotten) outstanding serving
  exact ⟨ml, ar, fun i category alone inTable whole known =>
    (placed i category alone inTable whole known).rebase ⟨rfl, rfl, rfl, rfl, rfl, rfl⟩⟩

/-- The uplink fails, and the queue is served. -/
theorem helloUplink_fails {mid : State} {k : Nat} {y : Tally} (outstanding : mid.ml.uplinkMarker = some y.issue)
    (found : mid.findTally y.issue = some k) (held : mid.tally k = some y) :
    ∃ w, (mid.uplinkOver.flag .uplinkTimeout).failsUplink w k y ∧ mid.helloUplink = w.nextUplink := by
  have ends := State.endUplink_eq (s := mid.flag .uplinkTimeout) outstanding found held false
  exact ⟨_, State.uplinkFailed_failsUplink (s := mid.uplinkOver.flag .uplinkTimeout) held,
    (State.helloUplink_of_some outstanding).trans ends⟩

/-- A record that HELLO has had begun waits in the hold where the line falls at that moment. -/
theorem hello_fall {s t : State} {r : ModemRecord} (idle : s.ModemIdle) (hello : exec .hello s = .next t)
    (still : s.ml.sending = none) (empty : s.ml.hold = []) (sending : t.ml.sending = some r) :
    exec .modemReadyFall t = .next (t.withMl
      { t.ml with modemReady := false, sending := none, hold := r :: t.ml.hold, helloBegan := none }) := by
  have none' : s.forgotten.ml.records = [] := by
    change s.ml.sending.toList ++ s.ml.hold = []
    rw [still, empty]
    rfl
  have owed : s.helloEnded.ml.Owed :=
    State.helloUplink_owed (State.queryTimedOut_owed (s.forgotten_missed _) none')
  rw [exec_hello_eq idle] at hello
  obtain rfl := Host.Outcome.next.inj hello
  have begun : s.helloEnded.ml.sending = some r := by
    rw [State.withMl_ml, ModemLink.noteHello] at sending
    split at sending <;> exact sending
  have noted : s.helloEnded.ml.noteHello s.ml s.now = { s.helloEnded.ml with helloBegan := some s.now } :=
    if_pos ⟨still, by rw [begun]; nofun⟩
  have now : s.helloEnded.now = s.now := (State.standing_parts s.helloEnded_standing).1.1
  rw [noted]
  have falls : ({ s.helloEnded.ml with helloBegan := some s.now } : ModemLink).lineFalls s.helloEnded.now
      = { s.helloEnded.ml with modemReady := false, sending := none, hold := r :: s.helloEnded.ml.hold, helloBegan := none } := by
    simp only [ModemLink.lineFalls, begun, now]
    exact if_pos ⟨trivial, owed.owes begun⟩
  exact congrArg (fun m => Host.Outcome.next (s.helloEnded.withMl m)) falls

/-- Settles O9: the query ends, then the uplink, and where a record is begun the moment is noted. -/
theorem helloForgets : Obligations.HelloForgets := by
  unfold Obligations.HelloForgets
  intro s idle emptied noted
  have ran := exec_hello_eq idle
  obtain ⟨uplinkMarker, -⟩ := State.queryTimedOut_ml (s.forgotten_missed s.forgotten.ar.cell)
  refine ⟨?_, ?_, ?_, ?_⟩
  · exact hello_of_unmarked idle
  · exact ⟨_, ran, hello_sets s⟩
  · refine ⟨s.forgotten.queryTimedOut, s.helloEnded, ?_, ?_, ?_, ?_, ?_, ?_⟩
    · exact ran
    · exact uplinkMarker
    · exact State.queryTimedOut_of_none (s := s.forgotten)
    · exact fun cell outstanding => hello_query outstanding
    · exact fun none' => State.helloUplink_of_none (uplinkMarker.trans none')
    · exact fun k y outstanding found held => helloUplink_fails (uplinkMarker.trans outstanding) found held
  · exact fun t r hello still empty sending => hello_fall idle hello still empty sending

end Sys2Proof.Machine

/-! A frame heard leaves the tag as it stands (04 R77), and a clash draws another (04 R74, R75). -/

namespace Sys2Proof.Machine

/-! ### What Fragment Intake leaves (01, 02) -/

section Intake
variable (s : State) (i : Nat)

@[simp] theorem State.useEntry_standing (issue : Issue) (total : Nat) (cat : Category) (provisional : Bool) :
    (s.useEntry i issue total cat provisional).standing = s.standing := rfl

theorem State.takeEntry_standing {s t : State} {issue : Issue} {total : Nat} {cat : Category} {forOffer : Bool} {i : Nat}
    (taken : s.takeEntry issue total cat forOffer = some (i, t)) : t.standing = s.standing := by
  unfold State.takeEntry at taken
  split at taken
  · cases taken; rfl
  · split at taken
    · cases taken
      exact (State.useEntry_standing _ _ _ _ _ _).trans (s.freeEntry_standing _ _)
    · cases taken

@[simp] theorem State.retarget_standing (issue : Issue) (total : Nat) (cat : Category) (provisional : Bool) :
    (s.retarget i issue total cat provisional).standing = s.standing := s.releaseBody_standing i

theorem State.makeRoom_standing {s t : State} {key : Key} {cat : Category} (made : s.makeRoom key cat = some t) :
    t.standing = s.standing := by
  unfold State.makeRoom at made
  repeat' split at made
  all_goals cases made
  all_goals simp

theorem State.popSlot_standing {s t : State} {slot : Nat} (popped : s.popSlot = some (slot, t)) :
    t.standing = s.standing := by
  unfold State.popSlot at popped
  split at popped
  · cases popped; rfl
  · cases popped

theorem State.findSlot_standing {s t : State} {key : Key} {cat : Category} {slot : Nat}
    (found : s.findSlot key cat = some (slot, t)) : t.standing = s.standing := by
  unfold State.findSlot at found
  split at found
  · next popped => cases found; exact State.popSlot_standing popped
  · split at found
    · next made => exact (State.popSlot_standing found).trans (State.makeRoom_standing made)
    · cases found

@[simp] theorem State.supersede_standing (key : Key) (kind : NoticeKind) (successor : Option Nat) :
    (s.supersede i key kind successor).standing = s.standing :=
  State.foldl_standing (fun u j => (State.freeEntry_standing _ j true).trans (u.postIfHeld_standing j kind successor)) _ s

@[simp] theorem State.cancelOthers_standing (key : Key) : (s.cancelOthers i key).standing = s.standing := by
  refine State.foldl_standing (fun u j => (State.freeEntry_standing _ j false).trans ?_) _ s
  split
  · exact u.post_standing _
  · rfl

@[simp] theorem State.checkFailed_standing : (s.checkFailed i).standing = s.standing := by
  unfold State.checkFailed State.restartGap
  dsimp only
  split <;> simp

@[simp] theorem State.malformedBody_standing : (s.malformedBody i).standing = s.standing := by
  simp [State.malformedBody]

@[simp] theorem State.completeCancel_standing (issue : Issue) (life : Nat) :
    (s.completeCancel i issue life).standing = s.standing := by
  unfold State.completeCancel
  dsimp only
  split <;> simp

@[simp] theorem State.completeLive_standing (issue : Issue) : (s.completeLive i issue).standing = s.standing := by
  simp [State.completeLive]

@[simp] theorem State.completeExpired_standing (issue : Issue) : (s.completeExpired i issue).standing = s.standing := by
  simp [State.completeExpired]

@[simp] theorem State.completeEntry_standing (length : Nat) : (s.completeEntry i length).standing = s.standing := by
  unfold State.completeEntry
  dsimp only
  repeat' split
  all_goals simp

@[simp] theorem State.checkBody_standing : (s.checkBody i).standing = s.standing := by
  unfold State.checkBody
  dsimp only
  repeat' split
  all_goals simp

@[simp] theorem State.takeInto_standing (source : Source) (f : Fragment) (slot : Nat) :
    (s.takeInto source f slot i).standing = s.standing := by
  unfold State.takeInto State.restartGap
  dsimp only
  split <;> simp

theorem State.intakeAssembling_standing (source : Source) (f : Fragment) :
    (s.intakeAssembling source f i).standing = s.standing := by
  have full : (s.flag .storeFull).standing = s.standing := s.flag_standing nofun
  unfold State.intakeAssembling
  dsimp only
  repeat' split
  all_goals simp [full]
  all_goals
    next found => exact State.findSlot_standing found

theorem State.intakeNew_standing (source : Source) (f : Fragment) : (s.intakeNew source f).standing = s.standing := by
  unfold State.intakeNew
  split
  · next found =>
    have popped := State.findSlot_standing found
    split
    · next taken => exact (State.takeInto_standing _ _ _ _ _).trans ((State.takeEntry_standing taken).trans popped)
    · exact (State.flag_standing (f := .tableFull) _ nofun).trans popped
  · exact s.flag_standing nofun

@[simp] theorem State.intake_standing (source : Source) (record : List Byte) :
    (s.intake source record).standing = s.standing := by
  unfold State.intake
  repeat' split
  all_goals simp [State.intakeAssembling_standing, State.intakeNew_standing]

end Intake

/-! ### What a frame heard leaves (04 R77) -/

section Heard
variable (s : State)

@[simp] theorem State.offerBeyond_standing (issue : Issue) (total : Nat) (cat : Category) :
    (s.offerBeyond issue total cat).standing = s.standing := by
  unfold State.offerBeyond State.offerAssembling State.offerNew
  repeat' split
  all_goals simp
  next taken => exact State.takeEntry_standing taken

@[simp] theorem State.settleOffer_standing (issue : Issue) (total : Nat) (cat : Category) :
    (s.settleOffer issue total cat).standing = s.standing := by
  unfold State.settleOffer State.heardOffer
  repeat' split
  all_goals simp

theorem State.supplyIndex_standing (i : Nat) (issue : Issue) (index : Nat) :
    (s.supplyIndex i issue index).standing = s.standing := by
  unfold State.supplyIndex
  split
  · exact s.request_standing _
  · rfl

@[simp] theorem State.settleWant_standing (issue : Issue) (wanted : Word16) :
    (s.settleWant issue wanted).standing = s.standing := by
  unfold State.settleWant
  dsimp only
  repeat' split
  · exact (State.foldl_standing (fun u k => u.supplyIndex_standing _ issue k) _ _).trans (s.resetOffer_standing _)
  · exact State.foldl_standing (fun u k => u.supplyIndex_standing _ issue k) _ _
  all_goals simp

@[simp] theorem State.heardStand_standing (sender : Word32) (issue : Issue) (bid size : Nat) :
    (s.heardStand sender issue bid size).standing = s.standing := by
  unfold State.heardStand
  dsimp only
  repeat' split
  all_goals simp

@[simp] theorem State.heardTally_standing (issue : Issue) (items : List Item) :
    (s.heardTally issue items).standing = s.standing := by
  unfold State.heardTally
  dsimp only
  repeat' split
  all_goals simp

@[simp] theorem State.heardCovered_standing (issue : Issue) (level : Level) (tags : List Word32) :
    (s.heardCovered issue level tags).standing = s.standing := by
  unfold State.heardCovered
  dsimp only
  repeat' split
  all_goals simp

@[simp] theorem State.heardYield_standing (sender : Word32) (issue : Issue) :
    (s.heardYield sender issue).standing = s.standing := by
  unfold State.heardYield
  repeat' split
  all_goals simp

@[simp] theorem State.hearOffer_standing (body : List Byte) : (s.hearOffer body).standing = s.standing := by
  unfold State.hearOffer
  split <;> simp

@[simp] theorem State.hearWant_standing (body : List Byte) : (s.hearWant body).standing = s.standing := by
  unfold State.hearWant
  split <;> simp

@[simp] theorem State.hearPiece_standing (body : List Byte) : (s.hearPiece body).standing = s.standing := by
  unfold State.hearPiece
  dsimp only
  split <;> simp

@[simp] theorem State.hearTally_standing (body : List Byte) : (s.hearTally body).standing = s.standing := by
  unfold State.hearTally
  split <;> simp

@[simp] theorem State.hearStand_standing (sender : Word32) (body : List Byte) : (s.hearStand sender body).standing = s.standing := by
  unfold State.hearStand
  split <;> simp

@[simp] theorem State.hearCovered_standing (body : List Byte) : (s.hearCovered body).standing = s.standing := by
  unfold State.hearCovered
  split <;> simp

@[simp] theorem State.hearYield_standing (sender : Word32) (body : List Byte) : (s.hearYield sender body).standing = s.standing := by
  unfold State.hearYield
  split <;> simp

/-- A frame that is delivered leaves tag, mark and TAG_CLASH as they stand. -/
theorem State.deliver_standing (kind : FrameKind) (sender : Word32) (body : List Byte) :
    (s.deliver kind sender body).standing = s.standing := by
  cases kind <;> simp [State.deliver]

end Heard

/-! ### A clash (04 R74, R75) -/

section Clash
variable {s : State}

/-- TAG_CLASH is set and a new tag marked to be drawn. -/
def State.clashMarked (s : State) : State := (s.flag .tagClash).withCs { s.cs with tagMarked := true }

theorem State.clash_of_runs (runs : s.roundRuns = true) : s.clash = s.clashMarked := if_pos runs

theorem State.clash_of_rests (rests : s.roundRuns = false) : s.clash = s.clashMarked.drawTag := by
  have same : s.clashMarked.roundRuns = s.roundRuns := rfl
  exact if_neg (by rw [← State.clashMarked, same, rests]; nofun)

theorem State.newTag_ne (s : State) : s.newTag ≠ s.cs.tag := by
  have allowed := s.newTag_allowed
  simp only [tagAllowed, Bool.and_eq_true, bne_iff_ne] at allowed
  exact allowed.2

theorem State.drawTag_tag (s : State) :
    tagGood s.drawTag.cs.tag = true ∧ s.drawTag.cs.tag ≠ s.cs.tag
      ∧ s.drawTag.cs = { s.cs with tag := s.drawTag.cs.tag, tagMarked := false } := by
  rw [State.drawTag_cs]
  exact ⟨s.newTag_good, s.newTag_ne, rfl⟩

/-- What a clash leads to. -/
theorem State.clash_cs (s : State) :
    s.clash.flags = { s.flags with tagClash := true } ∧ s.clash.cs = { s.cs with tag := s.clash.cs.tag, tagMarked := s.roundRuns }
      ∧ (s.roundRuns = true → s.clash.cs.tag = s.cs.tag)
      ∧ (s.roundRuns = false → tagGood s.clash.cs.tag = true ∧ s.clash.cs.tag ≠ s.cs.tag)
      ∧ s.clash.now = s.now ∧ s.onlyChanges [.tb, .cs, .flags] s.clash := by
  cases runs : s.roundRuns with
  | true =>
    rw [State.clash_of_runs runs]
    exact ⟨rfl, rfl, fun _ => rfl, nofun, rfl, by simp [State.clashMarked]⟩
  | false =>
    obtain ⟨isGood, other, cs⟩ := s.clashMarked.drawTag_tag
    rw [State.clash_of_rests runs]
    refine ⟨s.clashMarked.drawTag_frame .flags (by decide), cs, nofun, fun _ => ⟨isGood, other⟩,
      s.clashMarked.drawTag_now, by simp [State.clashMarked]⟩

end Clash

/-- Settles O36: a clash leads to a state that hears the frame, and the frame leaves the tag as it is there. -/
theorem clashDrawsNewTag : Obligations.ClashDrawsNewTag := by
  unfold Obligations.ClashDrawsNewTag
  intro s
  refine ⟨fun c kind body frame up good tag fresh => ?_, fun quiet => ?_, fun marked rests => ?_⟩
  · obtain ⟨flags, cs, stays, draws, now, apart⟩ := s.clash_cs
    have ru : s.clash.ru = s.ru := apart .ru (by decide)
    have roundRuns : s.clash.roundRuns = s.roundRuns := by simp only [State.roundRuns, ru]
    have set' : s.clash.flags.tagClash = true := by rw [flags]
    have hears : s.clash.Hears kind s.cs.tag body := by
      refine ⟨by rw [cs]; exact up, good, tag, ?_, by rw [cs]; exact fresh⟩
      cases runs : s.roundRuns with
      | true => exact .inr ⟨set', by rw [cs]; exact runs, roundRuns.trans runs⟩
      | false => exact .inl (draws runs).2.symm
    have ran : exec c s = .next (s.clash.deliver kind s.cs.tag body) := by
      rw [exec_relayFrame frame, State.hearFrame_of_good up good tag, State.takeFrame]
      simp only [fresh, Bool.false_eq_true, if_false, if_true]
    have same : exec c s = exec c s.clash := by
      rw [ran, exec_relayFrame frame, State.hearFrame_of_hears hears]
    obtain ⟨-, ⟨tagStands, markStands⟩, flagStands⟩ :=
      State.standing_parts (s.clash.deliver_standing kind s.cs.tag body)
    have mark : s.clash.cs.tagMarked = s.roundRuns := by rw [cs]
    exact ⟨_, ran, flagStands.trans set', fun runs => ⟨tagStands.trans (stays runs), markStands.trans (mark.trans runs)⟩,
      fun rests => ⟨by rw [tagStands]; exact (draws rests).1, by rw [tagStands]; exact (draws rests).2,
        markStands.trans (mark.trans rests)⟩, s.clash, same, hears, flags, cs, stays, draws, now, apart⟩
  · obtain unmarked | runs := quiet
    · simp [exec, execTagRedraw, unmarked]
    · simp [exec, execTagRedraw, runs]
  · obtain ⟨isGood, other, cs⟩ := s.drawTag_tag
    refine ⟨s.drawTag, ?_, isGood, other, cs, s.drawTag_frame⟩
    simp [exec, execTagRedraw, marked, rests]

end Sys2Proof.Machine

/-! PIECE frames removed (04 R81), bodies released (02 R43), and room made in the store (02 R41, R42). -/

namespace Sys2Proof.Machine

/-! ### PIECE frames removed, before the arbiter (04 R81) -/

section Removal
variable {s : State} {issue : Issue} {index : Option Nat}

/-- The state with the PIECE frames removed, before the arbiter chooses anew. -/
def State.piecesGone (s : State) (issue : Issue) (index : Option Nat) : State :=
  s.withCs { s.cs with
    bulk := s.cs.bulk.filter fun p => !p.isPieceOf issue index
    inFlight := s.cs.inFlight.map fun f => if f.payload.isPieceOf issue index then { f with withdrawn := true } else f
    contender := if s.cs.contenderNamed issue index then none else s.cs.contender }

theorem State.removePieces_eq (s : State) (issue : Issue) (index : Option Nat) :
    s.removePieces issue index = (s.piecesGone issue index).arbitrate := rfl

/-- The frame in flight is withdrawn where it is named. -/
theorem InFlight.withdrawn_eq (f : InFlight) (named : Payload → Bool) :
    (if named f.payload then { f with withdrawn := true } else f)
      = { f with withdrawn := f.withdrawn || named f.payload } := by
  obtain ⟨payload, withdrawn, timerEnd, wire⟩ := f
  cases named payload <;> simp

theorem State.arbitrate_of_flight {f : InFlight} (flight : s.cs.inFlight = some f) : s.arbitrate = s :=
  State.arbitrate_of_occupied (.inr (by rw [flight]; nofun))

/-- The arbiter takes frames out of the bulk queue at most. -/
theorem State.arbitrate_bulk (s : State) : s.arbitrate.cs.bulk.Sublist s.cs.bulk := by
  have handOver (t : State) (q : Queue) : (t.handOver q).cs.bulk.Sublist t.cs.bulk := by
    unfold State.handOver
    split
    · exact .refl _
    · next p rest waits =>
      cases q with
      | control => exact .refl _
      | bulk =>
        have bulk : t.cs.bulk = p :: rest := waits
        exact bulk ▸ List.sublist_cons_self p rest
  have tryHandOver (t : State) : t.tryHandOver.cs.bulk.Sublist t.cs.bulk := by
    unfold State.tryHandOver
    split
    · split
      · exact handOver t _
      · exact .refl _
    · exact .refl _
  unfold State.arbitrate
  split
  · split
    · exact tryHandOver _
    · exact .refl _
  · exact .refl _

/-- A frame in flight after the arbiter was so before, or is one of those that waited. -/
theorem State.arbitrate_flight {g : InFlight} (flight : s.arbitrate.cs.inFlight = some g) :
    s.cs.inFlight = some g ∨ (s.cs.inFlight = none ∧ (g.payload ∈ s.cs.bulk ∨ g.payload ∈ s.cs.control)) := by
  have handOver (t : State) (q : Queue) (none' : t.cs.inFlight = none) (flight : (t.handOver q).cs.inFlight = some g) :
      g.payload ∈ t.cs.bulk ∨ g.payload ∈ t.cs.control := by
    unfold State.handOver at flight
    split at flight
    · exact nomatch none'.symm.trans flight
    · next p rest waits =>
      have own : g.payload = p := by cases flight; rfl
      have mem : p ∈ t.cs.waiting q := by rw [waits]; exact List.mem_cons_self
      rw [own]
      cases q with
      | control => exact .inr mem
      | bulk => exact .inl mem
  have tryHandOver (t : State) (none' : t.cs.inFlight = none) (flight : t.tryHandOver.cs.inFlight = some g) :
      g.payload ∈ t.cs.bulk ∨ g.payload ∈ t.cs.control := by
    unfold State.tryHandOver at flight
    split at flight
    · split at flight
      · exact handOver t _ none' flight
      · exact nomatch none'.symm.trans flight
    · exact nomatch none'.symm.trans flight
  cases before : s.cs.inFlight with
  | some f => rw [State.arbitrate_of_flight before, before] at flight; exact .inl flight
  | none =>
    refine .inr ⟨rfl, ?_⟩
    unfold State.arbitrate at flight
    split at flight
    · split at flight
      · next q _ => exact tryHandOver (s.drew.withCs { s.cs with contender := some ⟨q, s.draw s.cs.cw,
          if s.draw s.cs.cw = 0 ∨ s.cs.busy then none else some (s.now + s.settings.slotTime)⟩ }) before flight
      · exact nomatch before.symm.trans flight
    · exact nomatch before.symm.trans flight

theorem State.removePieces_bulk (s : State) (issue : Issue) (index : Option Nat) :
    ∀ p ∈ (s.removePieces issue index).cs.bulk, p.isPieceOf issue index = false := by
  intro p mem
  have kept := (s.piecesGone issue index).arbitrate_bulk.subset mem
  simpa using (List.mem_filter.mp kept).2

theorem State.removePieces_flight {f : InFlight} (flight : s.cs.inFlight = some f) :
    (s.removePieces issue index).cs.inFlight
      = some { f with withdrawn := f.withdrawn || f.payload.isPieceOf issue index } := by
  have gone : (s.piecesGone issue index).cs.inFlight
      = some { f with withdrawn := f.withdrawn || f.payload.isPieceOf issue index } := by
    rw [← InFlight.withdrawn_eq f fun p => p.isPieceOf issue index]
    simp only [State.piecesGone, State.withCs_cs, flight, Option.map_some]
  rw [State.removePieces_eq, State.arbitrate_of_flight gone, gone]

/-- A named frame in flight is withdrawn. -/
theorem State.removePieces_withdrawn (control : ∀ p ∈ s.cs.control, p.isPieceOf issue index = false) {g : InFlight}
    (flight : (s.removePieces issue index).cs.inFlight = some g) (named : g.payload.isPieceOf issue index = true) :
    g.withdrawn = true := by
  obtain before | ⟨none', waited⟩ := State.arbitrate_flight flight
  · obtain ⟨f, own, rfl⟩ := Option.map_eq_some_iff.mp before
    split
    · rfl
    · next unnamed => rw [if_neg unnamed] at named; exact absurd named unnamed
  · obtain bulk | control' := waited
    · have kept := (List.mem_filter.mp bulk).2
      rw [named] at kept
      cases kept
    · rw [control _ control'] at named; cases named

/-- No contender goes: the arbiter has nothing to choose. -/
theorem State.removePieces_of_rests (unnamed : s.cs.contenderNamed issue index = false)
    (rests : s.cs.port ≠ .up ∨ s.cs.inFlight ≠ none ∨ s.cs.contender ≠ none
      ∨ (s.cs.control = [] ∧ (s.cs.bulk.filter fun p => !p.isPieceOf issue index) = [])) :
    s.removePieces issue index = s.withCs { s.cs with
      bulk := s.cs.bulk.filter fun p => !p.isPieceOf issue index
      inFlight := s.cs.inFlight.map fun f => { f with withdrawn := f.withdrawn || f.payload.isPieceOf issue index } } := by
  have quiet : (s.piecesGone issue index).ArbiterRests := by
    intro up flight contender
    have flight : s.cs.inFlight = none := Option.map_eq_none_iff.mp flight
    have contender : s.cs.contender = none := by
      simpa only [State.piecesGone, State.withCs_cs, unnamed, Bool.false_eq_true, if_false] using contender
    obtain down | flies | stands | empty := rests
    · exact absurd up down
    · exact absurd flight flies
    · exact absurd contender stands
    · exact empty
  rw [State.removePieces_eq, State.arbitrate_of_rests quiet]
  simp only [State.piecesGone, unnamed, Bool.false_eq_true, if_false]
  exact congrArg (fun l => s.withCs { s.cs with bulk := _, inFlight := l })
    (congrArg (Option.map · _) (funext fun f => InFlight.withdrawn_eq f fun p => p.isPieceOf issue index))

/-- The contender is named exactly where it stands for the bulk queue, whose head is named. -/
theorem Station.contenderNamed_iff (c : Station) : c.contenderNamed issue index = true
    ↔ ∃ k p, c.contender = some k ∧ k.queue = .bulk ∧ c.bulk.head? = some p ∧ p.isPieceOf issue index = true := by
  unfold Station.contenderNamed
  cases contender : c.contender with
  | none => simp
  | some k => cases bulk : c.bulk <;> simp

end Removal

/-! ### A body released (02 R43) -/

section Release
variable {s : State} {i : Nat}

/-- The state with the body gone from entry and store, before our PIECE frames go. -/
def State.bodyGone (s : State) (i : Nat) : State :=
  (s.modEntry i fun e => { e with map := emptyMap, offer := none }).withFree (s.free ++ (s.entry i).slots)

theorem State.releaseBody_of_issue {issue : Issue} (some' : (s.entry i).slots ≠ []) (own : (s.entry i).issue = some issue) :
    s.releaseBody i = (s.bodyGone i).removePieces issue none := by
  simp only [State.releaseBody, if_neg some', own]
  rfl

theorem Entry.released_of_slots {e : Entry} (some' : e.slots ≠ []) :
    e.released = { e with map := emptyMap, offer := none } := if_neg some'

end Release

end Sys2Proof.Machine

/-! A PIECE heard and a PIECE of ours that stands in the control queue (04 R78, R81): the removal does not look there. -/

namespace Sys2Proof.Machine

/-- An issuance of which one entry collects three fragments. -/
def straySample : Issue := ⟨⟨1, 1⟩, 1⟩

/-- The second of its three fragments. -/
def strayFragment : Fragment where
  issue := straySample
  index := 1
  total := 3
  kind := .new
  category := .severe
  issueTime := 1000
  duration := 30
  bodyCheck := 0
  areas := []
  payload := [0x42]

/-- Our PIECE of that fragment. -/
def strayPiece : Payload := .piece straySample 1 []

/-- Entry 0 collects the issuance, and our PIECE waits in the control queue, where 04 R78 puts none; the arbiter has not
chosen yet, and a draw of 0 lets the frame it chooses go at once. -/
def strayState : State :=
  ((State.reset.withTb { State.reset.tb with draws := [0] }).withCs { State.reset.cs with
    port := .up, ready := true, tag := 5, cw := 1, control := [strayPiece] }).setEntry 0
      { Entry.freed 1 with state := .assembling, issue := some straySample, category := some .severe, total := 3 }

/-- What the record heard leaves in flight. -/
def strayFlight (o : Host.Outcome State Fault Refusal) : Option (Payload × Bool) :=
  match o with
  | .next t => t.cs.inFlight.map fun g => (g.payload, g.withdrawn)
  | _ => none

theorem strayState_hears : strayState.Hears .piece 9 strayFragment.bytes
    ∧ pieceName strayFragment.bytes = some (straySample, 1)
    ∧ parseFragment strayFragment.bytes = some strayFragment := by
  unfold State.Hears; decide +kernel

theorem strayState_admits : strayState.Admits strayFragment := by
  refine ⟨fun now clock => (nomatch clock), ?_⟩
  have none' : ∀ e ∈ strayState.table, e.isComplete = false := by decide +kernel
  intro e mem complete
  rw [none' e mem] at complete
  cases complete

theorem strayState_meets : strayState.assemblingOf straySample.key = some 0
    ∧ strayState.free = 0 :: (List.range 159).map (· + 1) ∧ (strayState.entry 0).map.length = 16
    ∧ (strayState.entry 0).map.getD 1 none = none ∧ (strayState.entry 0).map.getD 0 none = none := by decide +kernel

/-- The removal leaves the control queue alone, and the arbiter hands our PIECE over. -/
theorem strayState_sends : strayFlight (exec (.piece 9 strayFragment.bytes) strayState) = some (strayPiece, false) := by
  decide +kernel

/-- Refutes O40: the statement asks nothing of the control queue, and a PIECE of ours that stood there is in flight after
the removal, not withdrawn. -/
theorem not_pieceSuppressesOurs : ¬ Obligations.PieceSuppressesOurs := by
  unfold Obligations.PieceSuppressesOurs
  rintro ⟨holds, -⟩
  obtain ⟨hears, name, parsed⟩ := strayState_hears
  obtain ⟨found, free, positions, empty, missing⟩ := strayState_meets
  obtain ⟨-, taken⟩ := (holds strayState 9 strayFragment.bytes straySample 1 hears name).2.2 strayFragment parsed
  obtain ⟨t, ran, -, -, -, -, -, -, -, -, withdrawn⟩ := taken 0 0 _ strayState_admits found free positions rfl rfl rfl empty
    ⟨0, by decide, by decide, missing⟩
  have sends := strayState_sends
  rw [ran] at sends
  obtain ⟨g, flight, same⟩ := Option.map_eq_some_iff.mp (show t.cs.inFlight.map _ = _ from sends)
  obtain ⟨own, standing⟩ := Prod.mk.inj same
  have withdrawn := withdrawn g flight (by rw [own]; decide)
  rw [standing] at withdrawn
  cases withdrawn

end Sys2Proof.Machine

/-! The modem link plays no part in what the table, the store and the channel do. -/

namespace Sys2Proof.Machine

/-- An update of a part that the channel station neither reads nor writes. -/
structure State.Beside (g : State → State) : Prop where
  cs : ∀ s, (g s).cs = s.cs
  tb : ∀ s, (g s).tb = s.tb
  settings : ∀ s, (g s).settings = s.settings
  withCs : ∀ s c, (g s).withCs c = g (s.withCs c)
  drew : ∀ s, (g s).drew = g s.drew

theorem State.withMl_beside (x : ModemLink) : State.Beside fun s => s.withMl x :=
  ⟨fun _ => rfl, fun _ => rfl, fun _ => rfl, fun _ _ => rfl, fun _ => rfl⟩

theorem State.withFree_beside (x : List Nat) : State.Beside fun s => s.withFree x :=
  ⟨fun _ => rfl, fun _ => rfl, fun _ => rfl, fun _ _ => rfl, fun _ => rfl⟩

section Beside
variable {g : State → State} (h : State.Beside g) (s : State)
include h

theorem State.Beside.now : (g s).now = s.now := by rw [State.now, h.tb]; rfl

theorem State.Beside.handOver (q : Queue) : (g s).handOver q = g (s.handOver q) := by
  simp only [State.handOver, h.cs, h.settings, h.now, h.withCs]
  split <;> rfl

theorem State.Beside.tryHandOver : (g s).tryHandOver = g s.tryHandOver := by
  unfold State.tryHandOver
  rw [h.cs]
  split
  · split
    · exact h.handOver s _
    · rfl
  · rfl

theorem State.Beside.contend (q : Queue) : (g s).contend q = g (s.contend q) := by
  simp only [State.contend, State.draw, h.tb, h.cs, h.settings, h.now, h.drew, h.withCs, h.tryHandOver]
  rfl

theorem State.Beside.arbitrate : (g s).arbitrate = g s.arbitrate := by
  unfold State.arbitrate
  rw [h.cs]
  split
  · split
    · exact h.contend s _
    · rfl
  · rfl

theorem State.Beside.removePieces (issue : Issue) (index : Option Nat) :
    (g s).removePieces issue index = g (s.removePieces issue index) := by
  rw [State.removePieces_eq, State.removePieces_eq, ← h.arbitrate, State.piecesGone, h.cs, h.withCs]
  rfl

end Beside

section WithMl
variable (s : State) (x : ModemLink)

theorem State.releaseBody_of_unissued {s : State} {i : Nat} (some' : (s.entry i).slots ≠ [])
    (unissued : (s.entry i).issue = none) : s.releaseBody i = s.bodyGone i := by
  simp only [State.releaseBody, if_neg some', unissued]
  rfl

theorem State.releaseBody_withMl (i : Nat) : (s.withMl x).releaseBody i = (s.releaseBody i).withMl x := by
  have same : (s.withMl x).entry i = s.entry i := rfl
  by_cases empty : (s.entry i).slots = []
  · rw [State.releaseBody_of_nil empty, State.releaseBody_of_nil (s := s.withMl x) empty]
  · cases issued : (s.entry i).issue with
    | none => rw [State.releaseBody_of_unissued empty issued, State.releaseBody_of_unissued (s := s.withMl x) empty issued]; rfl
    | some issue =>
      rw [State.releaseBody_of_issue empty issued, State.releaseBody_of_issue (s := s.withMl x) empty issued]
      exact (State.withMl_beside x).removePieces (s.bodyGone i) issue none

theorem State.emptySlot_withMl (i : Nat) : (s.withMl x).emptySlot i = (s.emptySlot i).withMl x := by
  cases slot : (s.entry i).claimSlot with
  | none => rw [State.emptySlot_of_none slot, State.emptySlot_of_none (s := s.withMl x) slot]
  | some k => rw [State.emptySlot_of_slot slot, State.emptySlot_of_slot (s := s.withMl x) slot]; rfl

theorem State.enterWaiting_withMl (k : Nat) : (s.withMl x).enterWaiting k = (s.enterWaiting k).withMl x := by
  unfold State.enterWaiting
  rw [show (s.withMl x).tally k = s.tally k from rfl]
  split <;> rfl

theorem State.takeTally_withMl (k : Nat) (issue : Issue) (level : Level) :
    (s.withMl x).takeTally k issue level = (s.takeTally k issue level).withMl x :=
  State.enterWaiting_withMl (s.setTally k (some (freshTally issue s.cs.tag level))) x k

theorem State.freeTally_withMl (k : Nat) : (s.withMl x).freeTally k = (s.freeTally k).withMl x := by
  have serve (t : State) : (t.withMl x).serveDeferred k = (t.serveDeferred k).withMl x := by
    unfold State.serveDeferred
    rw [show (t.withMl x).deferredChoice = t.deferredChoice from rfl, show (t.withMl x).ru = t.ru from rfl]
    split
    · split
      · exact State.takeTally_withMl (t.withRu _) x k _ _
      · rfl
    · rfl
  exact serve (s.withRu _)

theorem State.entryEnds_withMl (issue : Issue) :
    (s.withMl x).entryEnds issue false = (s.entryEnds issue false).withMl x := by
  cases found : s.findTally issue with
  | none => rw [State.entryEnds_of_no_tally found, State.entryEnds_of_no_tally (s := s.withMl x) found]; rfl
  | some k =>
    obtain ⟨y, held, -⟩ := State.findTally_some found
    by_cases uplinking : y.state = .uplinking
    · rw [State.entryEnds_of_uplinking found held uplinking,
        State.entryEnds_of_uplinking (s := s.withMl x) found held uplinking]
      rfl
    · rw [State.entryEnds_of_other found held uplinking,
        State.entryEnds_of_other (s := s.withMl x) found held uplinking]
      exact State.freeTally_withMl (s.undeferred issue) x k

theorem State.freeEntry_withMl (i : Nat) : (s.withMl x).freeEntry i false = (s.freeEntry i false).withMl x := by
  have dissolved : (s.withMl x).dissolved i = (s.dissolved i).withMl x := by
    rw [State.dissolved, State.releaseBody_withMl, State.emptySlot_withMl]
    rfl
  rw [State.freeEntry_eq, State.freeEntry_eq, dissolved, show (s.withMl x).entry i = s.entry i from rfl]
  cases (s.entry i).issue with
  | none => rfl
  | some issue => exact State.entryEnds_withMl (s.dissolved i) x issue

end WithMl

/-- The last byte of a record comes in, whatever the table has done before at the same moment. -/
theorem State.recordIn_of_same {s t : State} (ml : t.ml = s.ml) (now : t.now = s.now) :
    t.recordIn = t.withMl s.recordIn.ml := by
  rw [State.recordIn, ml, now]
  rfl

theorem State.releaseBody_recordIn (s : State) (i : Nat) : (s.releaseBody i).recordIn = s.recordIn.releaseBody i := by
  rw [State.recordIn_of_same (s.releaseBody_frame i .ml (by decide)) (s.releaseBody_now i)]
  exact (s.releaseBody_withMl s.recordIn.ml i).symm

theorem State.freeEntry_recordIn (s : State) (i : Nat) : (s.freeEntry i false).recordIn = s.recordIn.freeEntry i false := by
  rw [State.recordIn_of_same (s.freeEntry_frame i false .ml (by decide)) (s.freeEntry_now i false)]
  exact (s.freeEntry_withMl s.recordIn.ml i).symm

/-! ### Store pressure: the four steps (02 R41, R42) -/

section Pressure
variable (c : Settings) (key : Key) (category : Category) (e : Entry) (l : Nat × Nat)

theorem Entry.pressureRank1_iff : e.pressureRank1 = some l ↔ e.pressureStep c key category = some (1, l) := by
  unfold Entry.pressureRank1 Entry.pressureStep
  cases state : e.state
  case closed => by_cases tombstone : e.isTombstone = true <;> by_cases whole : e.bodyHeld = true <;> simp [tombstone, whole]
  case assembling => cases e.category <;> simp
  all_goals simp

theorem Entry.pressureRank2_iff : e.pressureRank2 = some l ↔ e.pressureStep c key category = some (2, l) := by
  unfold Entry.pressureRank2 Entry.pressureStep
  cases state : e.state
  case closed => by_cases tombstone : e.isTombstone = true <;> simp [tombstone]
  case assembling => cases e.category <;> simp
  all_goals simp

theorem Entry.pressureRank3_iff : e.pressureRank3 = some l ↔ e.pressureStep c key category = some (3, l) := by
  unfold Entry.pressureRank3 Entry.pressureStep
  cases state : e.state
  case closed => by_cases tombstone : e.isTombstone = true <;> by_cases whole : e.bodyHeld = true <;> simp [tombstone, whole]
  case assembling => cases e.category <;> simp [Entry.isTombstone, state]
  all_goals simp [Entry.isTombstone, state]

theorem Entry.pressureRank4_iff : e.pressureRank4 c key category = some l
    ↔ e.pressureStep c key category = some (4, l) := by
  unfold Entry.pressureRank4 Entry.pressureStep
  cases state : e.state
  case closed => cases e.category <;> by_cases tombstone : e.isTombstone = true <;> simp [tombstone]
  case assembling => cases e.category <;> simp [and_assoc]
  all_goals cases e.category <;> simp

end Pressure

end Sys2Proof.Machine

/-! A fragment that is taken, with a slot free or won under store pressure (02 R36, R37, R41). -/

namespace Sys2Proof.Machine

/-! ### A fragment taken (02 R36, R37) -/

section Taken
variable {s s1 : State} {source : Source} {record : List Byte} {f : Fragment} {i slot : Nat}

/-- A fragment of the entry's revision fits it: the total is provisional, or total and category agree and the position is
free (02 R36). -/
def Entry.fits (e : Entry) (f : Fragment) : Prop :=
  e.provisional = true ∨ (e.total = f.total ∧ e.category = some f.category ∧ e.map.getD f.index none = none)

theorem State.intakeAssembling_of_higher (higher : (s.entry i).revision < f.issue.revision.toNat)
    (found : s.findSlot f.issue.key f.category = some (slot, s1)) :
    s.intakeAssembling source f i = (s1.retarget i f.issue f.total f.category false).takeInto source f slot i := by
  simp only [State.intakeAssembling, Nat.not_lt_of_gt higher, higher, if_false, if_true, found]

theorem State.intakeAssembling_of_fits (own : (s.entry i).issue = some f.issue) (fits : (s.entry i).fits f)
    (found : s.findSlot f.issue.key f.category = some (slot, s1)) :
    s.intakeAssembling source f i = s1.takeInto source f slot i := by
  have revision := Entry.revision_of_issue own
  obtain provisional | ⟨total, category, empty⟩ := fits
  · simp [State.intakeAssembling, revision, provisional, found]
  · simp only [State.intakeAssembling, revision, total, category, empty, found]
    simp

theorem State.intakeNew_of_taken {s2 : State} (found : s.findSlot f.issue.key f.category = some (slot, s1))
    (taken : s1.takeEntry f.issue f.total f.category false = some (i, s2)) :
    s.intakeNew source f = s2.takeInto source f slot i := by
  simp only [State.intakeNew, found, taken]

theorem State.findSlot_of_free {rest : List Nat} (free : s.free = slot :: rest) (key : Key) (cat : Category) :
    s.findSlot key cat = some (slot, s.withFree rest) := by
  simp [State.findSlot, State.popSlot, free]

/-- Two states whose intake finds the same slot, and in which the fragment meets the same, make the same of it. -/
theorem State.intake_congr {t : State} (parsed : parseFragment record = some f) (takes : s.Takes f) (takes' : t.Takes f)
    (same : t.assemblingOf f.issue.key = s.assemblingOf f.issue.key)
    (entry : ∀ i, s.assemblingOf f.issue.key = some i → t.entry i = s.entry i)
    (found : s.findSlot f.issue.key f.category = some (slot, s1))
    (found' : t.findSlot f.issue.key f.category = some (slot, s1)) :
    s.intake source record = t.intake source record := by
  obtain ⟨admitted, wanted⟩ := takes
  cases own : s.assemblingOf f.issue.key with
  | none =>
    rw [State.intake_of_new parsed admitted own, State.intake_of_new parsed takes'.1 (same.trans own)]
    simp only [State.intakeNew, found, found']
  | some i =>
    have entry := entry i own
    rw [State.intake_of_assembling parsed admitted own, State.intake_of_assembling parsed takes'.1 (same.trans own)]
    obtain higher | ⟨issue, fits⟩ := wanted i own
    · rw [State.intakeAssembling_of_higher higher found, State.intakeAssembling_of_higher (by rwa [entry]) found']
    · rw [State.intakeAssembling_of_fits issue fits found,
        State.intakeAssembling_of_fits (by rwa [entry]) (by rwa [entry]) found']

end Taken

/-! ### Room made (02 R41, R42) -/

section Room
variable {s : State} {key : Key} {category : Category} {step v : Nat}

theorem Entry.pressureStep_cases {c : Settings} {e : Entry} {d : Nat} {l : Nat × Nat}
    (ranked : e.pressureStep c key category = some (d, l)) : d = 1 ∨ d = 2 ∨ d = 3 ∨ d = 4 := by
  unfold Entry.pressureStep at ranked
  repeat' split at ranked
  all_goals cases ranked
  all_goals simp

variable {rank : Entry → Option (Nat × Nat)} {d : Nat}
  (iff : ∀ e l, rank e = some l ↔ e.pressureStep s.settings key category = some (d, l))
include iff

/-- Among the entries of the step, the pressed one is the first. -/
theorem State.leastEntry_of_pressed (pressed : s.pressed key category d v) : s.leastEntry rank = some v := by
  obtain ⟨inTable, a, b, ranked, first⟩ := pressed
  refine State.leastEntry_of_first inTable ((iff _ _).mpr ranked) fun j l within other => ?_
  obtain ⟨a', b'⟩ := l
  have order := first j d a' b' within ((iff _ _).mp other)
  simp only [rankLess_iff, Prod.mk.injEq]
  omega

/-- No entry is of an earlier step. -/
theorem State.leastEntry_of_earlier (pressed : s.pressed key category step v) (earlier : d < step) :
    s.leastEntry rank = none := by
  obtain ⟨inTable, a, b, ranked, first⟩ := pressed
  refine State.leastEntry_eq_none fun e mem => ?_
  obtain ⟨j, within, rfl⟩ := List.getElem_of_mem mem
  have own : s.entry j = s.table[j] := by simp [State.entry, within]
  cases other : rank s.table[j] with
  | none => rfl
  | some l =>
    have order := first j d l.1 l.2 within (own ▸ (iff _ _).mp other)
    omega

end Room

section Made
variable {s : State} {key : Key} {category : Category} {step v : Nat}

theorem State.makeRoom_of_pressed (pressed : s.pressed key category step v) :
    s.makeRoom key category = some (if step = 4 then s.freeEntry v false else s.releaseBody v) := by
  have iff1 := Entry.pressureRank1_iff s.settings key category
  have iff2 := Entry.pressureRank2_iff s.settings key category
  have iff3 := Entry.pressureRank3_iff s.settings key category
  have iff4 := Entry.pressureRank4_iff s.settings key category
  have ⟨_, _, _, ranked, _⟩ := pressed
  obtain rfl | rfl | rfl | rfl := Entry.pressureStep_cases ranked
  · simp [State.makeRoom, State.leastEntry_of_pressed iff1 pressed]
  · simp [State.makeRoom, State.leastEntry_of_earlier iff1 pressed, State.leastEntry_of_pressed iff2 pressed]
  · simp [State.makeRoom, State.leastEntry_of_earlier iff1 pressed, State.leastEntry_of_earlier iff2 pressed,
      State.leastEntry_of_pressed iff3 pressed]
  · simp [State.makeRoom, State.leastEntry_of_earlier iff1 pressed, State.leastEntry_of_earlier iff2 pressed,
      State.leastEntry_of_earlier iff3 pressed, State.leastEntry_of_pressed iff4 pressed]

/-- What a step finds: an entry that does not assemble, or at the fourth an ASSEMBLING one of another key. -/
theorem State.pressed_entry (pressed : s.pressed key category step v) :
    (step ≠ 4 → (s.entry v).state ≠ .assembling)
      ∧ (step = 4 → (s.entry v).state = .assembling ∧ (s.entry v).ofKey key = false ∧ (s.entry v).slots ≠ []) := by
  obtain ⟨-, a, b, ranked, -⟩ := pressed
  unfold Entry.pressureStep at ranked
  repeat' split at ranked
  all_goals cases ranked
  all_goals simp_all

end Made

end Sys2Proof.Machine

/-! A body release, and a fragment taken with the slot so won (02 R41 to R43). -/

namespace Sys2Proof.Machine

/-! ### The lowest entry that passes a test -/

/-- A test that reads the entry replaced alike finds the same entry. -/
theorem State.findEntry_of_table_set {s t : State} {p : Entry → Bool} {i : Nat} {e : Entry}
    (table : t.table = s.table.set i e) (same : p e = p (s.entry i)) : t.findEntry p = s.findEntry p := by
  have passes (l : List Entry) : l.findIdx? p = (l.map p).findIdx? id := by
    rw [List.findIdx?_map, Function.id_comp]
  rw [State.findEntry, State.findEntry, table, passes, passes]
  by_cases inTable : i < s.table.length
  · rw [map_set_of_eq p (by simp [State.entry, inTable]) same]
  · rw [List.set_eq_of_length_le (Nat.le_of_not_lt inTable)]

theorem State.mem_table_set {s t : State} {i : Nat} {e x : Entry} (table : t.table = s.table.set i e)
    (mem : x ∈ t.table) : x ∈ s.table ∨ (x = e ∧ i < s.table.length) := by
  by_cases inTable : i < s.table.length
  · rw [table] at mem
    exact (List.mem_or_eq_of_mem_set mem).imp_right fun same => ⟨same, inTable⟩
  · rw [table, List.set_eq_of_length_le (Nat.le_of_not_lt inTable)] at mem
    exact .inl mem

/-! ### A body released (02 R43) -/

theorem Entry.released_keeps (e : Entry) : e.released.isComplete = e.isComplete ∧ e.released.isTombstone = e.isTombstone
    ∧ e.released.revision = e.revision ∧ e.released.state = e.state := by
  unfold Entry.released
  split <;> exact ⟨rfl, rfl, rfl, rfl⟩

/-- What is said of a body that holds slots once it is released. -/
theorem releaseBody_returns {s : State} {i : Nat} {issue : Issue} (some' : (s.entry i).slots ≠ [])
    (own : (s.entry i).issue = some issue) (rests : s.ArbiterRests) :
    (∀ p ∈ (s.releaseBody i).cs.bulk, p.isPieceOf issue none = false)
      ∧ (∀ f, s.cs.inFlight = some f → (s.releaseBody i).cs.inFlight
          = some { f with withdrawn := f.withdrawn || f.payload.isPieceOf issue none })
      ∧ ((∀ p ∈ s.cs.bulk, p.isPieceOf issue none = false) → s.cs.inFlight = none → (s.releaseBody i).cs = s.cs) := by
  rw [State.releaseBody_of_issue some' own]
  refine ⟨State.removePieces_bulk _ issue none, fun f flight => State.removePieces_flight (s := s.bodyGone i) flight,
    fun bulk flight => ?_⟩
  have stands := State.removePieces_of_none (s := s.bodyGone i) (i := issue) (index := none) bulk
    (fun f flies => (nomatch flight.symm.trans flies)) rests
  exact (congrArg State.cs stands :)

/-! ### Room made, and the fragment taken with it (02 R41) -/

section Room
variable {s : State} {key : Key} {category : Category} {step v : Nat}

/-- The state in which store pressure has acted on an entry. -/
def State.roomMade (s : State) (step v : Nat) : State := if step = 4 then s.freeEntry v false else s.releaseBody v

/-- The entry that store pressure leaves there. -/
def Entry.pressedOut (e : Entry) (step : Nat) : Entry := if step = 4 then Entry.freed e.generation else e.released

theorem State.roomMade_table (s : State) (step v : Nat) :
    (s.roomMade step v).table = s.table.set v ((s.entry v).pressedOut step) := by
  unfold State.roomMade Entry.pressedOut
  split
  · exact s.freeEntry_table v false
  · exact s.releaseBody_table v

theorem State.roomMade_free (s : State) (step v : Nat) : (s.roomMade step v).free = s.free ++ (s.entry v).slots := by
  unfold State.roomMade
  split
  · exact s.freeEntry_free v false
  · exact s.releaseBody_free v

theorem State.roomMade_standing (s : State) (step v : Nat) : (s.roomMade step v).standing = s.standing := by
  unfold State.roomMade
  split
  · exact s.freeEntry_standing v false
  · exact s.releaseBody_standing v

theorem State.roomMade_recordIn (s : State) (step v : Nat) : (s.roomMade step v).recordIn = s.recordIn.roomMade step v := by
  unfold State.roomMade
  split
  · exact s.freeEntry_recordIn v
  · exact s.releaseBody_recordIn v

theorem State.roomMade_ml (s : State) (step v : Nat) : (s.roomMade step v).ml = s.ml := by
  unfold State.roomMade
  split
  · exact s.freeEntry_frame v false .ml (by decide)
  · exact s.releaseBody_frame v .ml (by decide)

theorem State.isLive_of_standing {s t : State} (same : t.standing = s.standing) (f : Fragment) : t.isLive f ↔ s.isLive f := by
  have clock : t.tb.alertClock = s.tb.alertClock := (State.standing_parts same).1.2
  simp only [State.isLive, clock]

theorem State.roomMade_admits {f : Fragment} (admitted : s.Admits f) (step v : Nat) : (s.roomMade step v).Admits f := by
  refine ⟨(State.isLive_of_standing (s.roomMade_standing step v) f).mpr admitted.1, fun e mem complete own => ?_⟩
  obtain before | ⟨rfl, inTable⟩ := State.mem_table_set (s.roomMade_table step v) mem
  · exact admitted.2 e before complete own
  · unfold Entry.pressedOut at complete own ⊢
    split at complete
    · cases complete
    · next other =>
      obtain ⟨isComplete, isTombstone, revision, -⟩ := (s.entry v).released_keeps
      rw [if_neg other] at own ⊢
      rw [isComplete] at complete
      rw [Entry.released_ofKey] at own
      rw [isTombstone, revision]
      exact admitted.2 _ (s.mem_table_entry inTable) complete own

theorem State.roomMade_assemblingOf (pressed : s.pressed key category step v) :
    (s.roomMade step v).assemblingOf key = s.assemblingOf key := by
  obtain ⟨quiet, other⟩ := State.pressed_entry pressed
  refine State.findEntry_of_table_set (s.roomMade_table step v) ?_
  unfold Entry.pressedOut
  split
  · next four =>
    obtain ⟨-, foreign, -⟩ := other four
    rw [foreign, Bool.and_false]
    rfl
  · rw [(s.entry v).released_keeps.2.2.2, Entry.released_ofKey]

theorem State.roomMade_takes {f : Fragment} (pressed : s.pressed f.issue.key f.category step v) (takes : s.Takes f) :
    (s.roomMade step v).Takes f
      ∧ ∀ i, s.assemblingOf f.issue.key = some i → (s.roomMade step v).entry i = s.entry i := by
  have same := State.roomMade_assemblingOf pressed
  have entry (i : Nat) (found : s.assemblingOf f.issue.key = some i) : (s.roomMade step v).entry i = s.entry i := by
    obtain ⟨assembling, own⟩ := Bool.and_eq_true_iff.mp (State.findEntry_some found)
    exact (State.makeRoom_entry (State.makeRoom_of_pressed pressed) i).2 (beq_iff_eq.mp assembling) own
  exact ⟨⟨State.roomMade_admits takes.1 step v, fun i found => by
    rw [same] at found; rw [entry i found]; exact takes.2 i found⟩, entry⟩

/-- With no slot free, a fragment is taken as in the state with room made. -/
theorem State.intake_of_pressed {record : List Byte} {f : Fragment} (source : Source)
    (parsed : parseFragment record = some f) (takes : s.Takes f) (empty : s.free = [])
    (pressed : s.pressed f.issue.key f.category step v) :
    s.intake source record = (s.roomMade step v).intake source record := by
  obtain ⟨takes', entry⟩ := State.roomMade_takes pressed takes
  have made : s.makeRoom f.issue.key f.category = some (s.roomMade step v) := State.makeRoom_of_pressed pressed
  have free := s.roomMade_free step v
  rw [empty, List.nil_append] at free
  cases slots : (s.entry v).slots with
  | nil =>
    obtain ⟨-, full⟩ := State.pressed_entry pressed
    by_cases four : step = 4
    · exact absurd slots (full four).2.2
    · rw [State.roomMade, if_neg four, State.releaseBody_of_nil slots]
  | cons slot rest =>
    rw [slots] at free
    have popped : (s.roomMade step v).popSlot = some (slot, (s.roomMade step v).withFree rest) := by
      simp only [State.popSlot, free]
    have found : s.findSlot f.issue.key f.category = some (slot, (s.roomMade step v).withFree rest) := by
      have none' : s.popSlot = none := by simp only [State.popSlot, empty]
      simp only [State.findSlot, none', made, popped]
    exact State.intake_congr parsed takes takes' (State.roomMade_assemblingOf pressed) entry found
      (State.findSlot_of_free free _ _)

end Room

/-- Settles O21. -/
theorem bodyReleaseReturnsSlots : Obligations.BodyReleaseReturnsSlots := by
  unfold Obligations.BodyReleaseReturnsSlots
  intro s i
  refine ⟨State.releaseBody_of_nil, fun issue some' own inTable rests => ?_, fun key category step pressed =>
    ⟨State.makeRoom_of_pressed pressed, s.freeEntry_free i false, s.freeEntry_entry_self i false⟩,
    fun record f step idle least most parsed takes empty pressed => ?_⟩
  · obtain ⟨bulk, flight, stands⟩ := releaseBody_returns some' own rests
    refine ⟨?_, s.releaseBody_free i, fun j other => s.releaseBody_entry_ne other,
      s.releaseBody_frame i .store (by decide), s.releaseBody_frame i, bulk, flight, stands⟩
    rw [State.releaseBody_entry_self, Entry.released_of_slots some']
  · have idle' : (s.roomMade step i).ModemIdle := by rw [State.ModemIdle, State.roomMade_ml]; exact idle
    change _ = exec (.fragment record) (s.roomMade step i)
    rw [exec_fragment idle least most, exec_fragment idle' least most, State.roomMade_recordIn]
    exact congrArg Host.Outcome.next
      (State.intake_of_pressed (s := s.recordIn) .broadcast parsed takes empty pressed)

end Sys2Proof.Machine

/-! A fragment taken into its ASSEMBLING entry (01 R10, R11; 02 R36, R38). -/

namespace Sys2Proof.Machine

theorem parseFragment_bounds {record : List Byte} {f : Fragment} (parsed : parseFragment record = some f) :
    f.index < f.total ∧ f.total ≤ 16 ∧ f.payload.length ≤ 48 := by
  obtain ⟨-, -, index, total, -, -, -, -, payload⟩ := bytes_of_parseFragment parsed
  exact ⟨index, total, payload⟩

theorem Memory.write_of_short {m : Memory} {payload : List Byte} (short : payload.length ≤ 48) (slot : Nat) :
    m.write slot payload = m.set slot payload := by
  rw [Memory.write, List.take_of_length_le short]

/-! ### The entry that has taken a fragment (01 R10; 02 R38; 05 R101) -/

/-- The entry once it has taken a fragment in a slot, its want record's gap-fill timer restarted. -/
def Entry.took (e : Entry) (f : Fragment) (source : Source) (slot uptime assemblyEnd gapEnd : Nat) : Entry :=
  { e.taking f source slot uptime assemblyEnd with want := e.want.map fun w => { w with gapEnd := gapEnd } }

/-- The entry `i` once it has taken the fragment in the state. -/
def State.tookEntry (s : State) (source : Source) (f : Fragment) (slot i : Nat) : Entry :=
  (s.entry i).took f source slot s.uptime s.assemblyEnd s.gapEnd

/-- The state with the fragment taken, before the completion check. -/
def State.took (s : State) (source : Source) (f : Fragment) (slot i : Nat) : State :=
  ((s.withStore (s.store.write slot f.payload)).setEntry i (s.tookEntry source f slot i)).count .fragmentsTaken

section Took
variable {s : State} {source : Source} {f : Fragment} {slot i : Nat}

theorem State.setEntry_setEntry (s : State) (i : Nat) (e e' : Entry) : (s.setEntry i e).setEntry i e' = s.setEntry i e' := by
  simp only [State.setEntry, State.withTable_table, List.set_set]
  rfl

theorem State.took_entry_self (inTable : i < s.table.length) :
    (s.took source f slot i).entry i = s.tookEntry source f slot i :=
  State.entry_setEntry (s := s.withStore (s.store.write slot f.payload)) inTable _

theorem State.took_entry_ne {j : Nat} (other : j ≠ i) : (s.took source f slot i).entry j = s.entry j :=
  State.entry_setEntry_ne (s.withStore _) other _

theorem State.takeInto_eq (inTable : i < s.table.length) : s.takeInto source f slot i
    = if (s.tookEntry source f slot i).bodyHeld then ((s.took source f slot i).modEntry i fun e =>
        { e with assemblyTimer := none }).checkBody i else s.took source f slot i := by
  have taking : ((s.withStore (s.store.write slot f.payload)).modEntry i fun e =>
      e.taking f source slot s.uptime s.assemblyEnd).entry i = (s.entry i).taking f source slot s.uptime s.assemblyEnd :=
    State.entry_setEntry (s := s.withStore (s.store.write slot f.payload)) inTable _
  have took : ((((s.withStore (s.store.write slot f.payload)).modEntry i fun e =>
      e.taking f source slot s.uptime s.assemblyEnd).restartGap i).count .fragmentsTaken) = s.took source f slot i := by
    rw [State.restartGap, State.modEntry, taking]
    exact congrArg (State.count · .fragmentsTaken) (State.setEntry_setEntry _ i _ _)
  unfold State.takeInto
  rw [took]
  dsimp only
  rw [State.took_entry_self inTable]

theorem State.takeInto_of_open (inTable : i < s.table.length) (part : (s.tookEntry source f slot i).bodyHeld = false) :
    s.takeInto source f slot i = s.took source f slot i := by
  rw [State.takeInto_eq inTable, part]
  exact if_neg Bool.false_ne_true

/-- Where another position below the total is free, the fragment does not complete the body. -/
theorem Entry.took_part {e : Entry} {uptime assemblyEnd gapEnd k : Nat} (below : k < f.total) (other : k ≠ f.index)
    (total : e.provisional = true ∨ e.total = f.total) (free : e.map.getD k none = none) :
    (e.took f source slot uptime assemblyEnd gapEnd).bodyHeld = false := by
  have isTotal : (e.took f source slot uptime assemblyEnd gapEnd).total = f.total := by
    change (if e.provisional then f.total else e.total) = f.total
    obtain provisional | same := total
    · rw [if_pos provisional]
    · split
      · rfl
      · exact same
  have still : (e.map.set f.index (some slot)).getD k none = none := by
    rw [List.getD_eq_getElem?_getD, List.getElem?_set_ne (Ne.symm other), ← List.getD_eq_getElem?_getD, free]
  rw [Entry.bodyHeld, isTotal, Bool.and_eq_false_iff]
  refine .inr (List.all_eq_false.mpr ⟨k, List.mem_range.mpr below, ?_⟩)
  change ¬ ((e.map.set f.index (some slot)).getD k none).isSome = true
  rw [still]
  nofun

/-- The taking reads the entry alike where only a provisional total is settled to the fragment's. -/
theorem State.takeInto_setEntry {e : Entry} (inTable : i < s.table.length)
    (same : ∀ uptime assemblyEnd gapEnd, e.took f source slot uptime assemblyEnd gapEnd
      = (s.entry i).took f source slot uptime assemblyEnd gapEnd) :
    (s.setEntry i e).takeInto source f slot i = s.takeInto source f slot i := by
  have entry : (s.setEntry i e).tookEntry source f slot i = s.tookEntry source f slot i := by
    rw [State.tookEntry, State.entry_setEntry inTable]
    exact same _ _ _
  have took : (s.setEntry i e).took source f slot i = s.took source f slot i := by
    rw [State.took, entry]
    exact congrArg (State.count · .fragmentsTaken)
      (State.setEntry_setEntry (s.withStore (s.store.write slot f.payload)) i e _)
  rw [State.takeInto_eq inTable, State.takeInto_eq (s := s.setEntry i e) (inTable.trans_eq List.length_set.symm), entry, took]

end Took

/-! ### The record comes to two states (02 R31) -/

/-- What Fragment Intake makes of the record decides what the command does, whatever it met before. -/
theorem exec_arrival_congr {s t : State} {source : Source} {sender : Word32} {record : List Byte}
    (meet : s.Meets source sender record) (meet' : t.Meets source sender record)
    (same : (s.arrived source).intake source record = (t.arrived source).intake source record) :
    exec (arrival source sender record) s = exec (arrival source sender record) t := by
  cases source with
  | broadcast =>
    obtain ⟨idle, least, most⟩ := meet
    obtain ⟨idle', -, -⟩ := meet'
    exact (exec_fragment idle least most).trans ((congrArg _ same).trans (exec_fragment idle' least most).symm)
  | relay =>
    obtain ⟨hears, -, -⟩ := meet
    obtain ⟨hears', -, -⟩ := meet'
    have same : s.intake .relay record = t.intake .relay record := same
    refine (exec_piece hears).trans ((congrArg _ ?_).trans (exec_piece hears').symm)
    simp only [State.hearPiece, same]

/-- From a source, a record leads to what the intake makes of it, and then at most our PIECE is removed. -/
theorem exec_arrival_after {s : State} {source : Source} {sender : Word32} {record : List Byte}
    (meet : s.Meets source sender record) : ∃ t, exec (arrival source sender record) s = .next t
      ∧ ((s.arrived source).intake source record).onlyChanges [.tb, .cs] t
      ∧ t.standing = ((s.arrived source).intake source record).standing := by
  cases source with
  | broadcast =>
    obtain ⟨idle, least, most⟩ := meet
    exact ⟨_, exec_fragment idle least most, .refl _ _, rfl⟩
  | relay =>
    obtain ⟨hears, -, -⟩ := meet
    refine ⟨_, exec_piece hears, ?_⟩
    unfold State.hearPiece
    dsimp only
    split
    · exact ⟨State.removePieces_frame _ _ _, State.removePieces_standing _ _ _⟩
    · exact ⟨.refl _ _, rfl⟩

theorem State.setEntry_meets {s : State} {source : Source} {sender : Word32} {record : List Byte}
    (meet : s.Meets source sender record) (i : Nat) (e : Entry) : (s.setEntry i e).Meets source sender record := by
  cases source with
  | broadcast => exact meet
  | relay => exact meet

theorem State.arrived_setEntry (s : State) (source : Source) (i : Nat) (e : Entry) :
    (s.setEntry i e).arrived source = (s.arrived source).setEntry i e := by
  cases source <;> rfl

end Sys2Proof.Machine

/-! A fragment of the entry's revision, and one of a higher (02 R36; 01 R10, R11). -/

namespace Sys2Proof.Machine

/-! ### What the arrival of a record leaves -/

section Arrived
variable (s : State) (source : Source)

theorem State.arrived_uptime : (s.arrived source).uptime = s.uptime := by cases source <;> rfl

theorem State.arrived_now : (s.arrived source).now = s.now := by cases source <;> rfl

theorem State.arrived_store : (s.arrived source).store = s.store := by cases source <;> rfl

theorem State.arrived_cs : (s.arrived source).cs = s.cs := by cases source <;> rfl

theorem State.arrived_frame : s.onlyChanges [.ml] (s.arrived source) := by
  cases source
  · exact s.withMl_frame _
  · exact .refl _ _

theorem State.arrived_gapEnd : (s.arrived source).gapEnd = s.gapEnd := by cases source <;> rfl

theorem State.arrived_assemblyEnd : (s.arrived source).assemblyEnd = s.assemblyEnd := by cases source <;> rfl

end Arrived

/-! ### A fragment of the entry's revision (02 R36, R38) -/

/-- The entry with a fragment of its own revision, in the words of the statements. -/
def Entry.filledBy (e : Entry) (f : Fragment) (source : Source) (slot uptime assemblyEnd gapEnd : Nat) : Entry :=
  { e with
    map := e.map.set f.index (some slot), total := f.total, category := some f.category, provisional := false
    kind := some (e.kind.getD f.kind)
    issueTime := if e.kind = none ∨ f.index = 0 then some f.issueTime else e.issueTime
    duration := if e.kind = none ∨ f.index = 0 then some f.duration else e.duration
    areas := if f.index = 0 then f.areas else e.areas
    bodyCheck := if f.index = 0 then some f.bodyCheck else e.bodyCheck
    heardBroadcast := e.heardBroadcast || source == .broadcast
    heardRelay := e.heardRelay || source == .relay
    lastFragment := some uptime
    assemblyTimer := some assemblyEnd
    want := e.want.map fun w => { w with gapEnd := gapEnd } }

theorem Entry.took_of_fits {e : Entry} {f : Fragment} (fits : e.fits f) (source : Source)
    (slot uptime assemblyEnd gapEnd : Nat) : e.took f source slot uptime assemblyEnd gapEnd
      = e.filledBy f source slot uptime assemblyEnd gapEnd := by
  have total : (if e.provisional then f.total else e.total) = f.total := by
    obtain provisional | ⟨total, -, -⟩ := fits
    · rw [if_pos provisional]
    · rw [total, ite_self]
  have category : (if e.provisional then some f.category else e.category) = some f.category := by
    obtain provisional | ⟨-, category, -⟩ := fits
    · rw [if_pos provisional]
    · rw [category, ite_self]
  have kind : (if e.kind = none then some f.kind else e.kind) = some (e.kind.getD f.kind) := by
    cases e.kind <;> rfl
  simp only [Entry.took, Entry.taking, Entry.filledBy, total, category, Option.isNone_iff_eq_none, kind]

/-- The entry with the total and the category of a fragment, no longer provisional. -/
def Entry.settledBy (e : Entry) (f : Fragment) : Entry :=
  { e with total := f.total, category := some f.category, provisional := false }

theorem Entry.settledBy_took {e : Entry} {f : Fragment} (provisional : e.provisional = true)
    (empty : e.map.getD f.index none = none) (source : Source) (slot uptime assemblyEnd gapEnd : Nat) :
    (e.settledBy f).took f source slot uptime assemblyEnd gapEnd = e.took f source slot uptime assemblyEnd gapEnd := by
  rw [Entry.took_of_fits (.inl provisional), Entry.took_of_fits (e := e.settledBy f) (.inr ⟨rfl, rfl, empty⟩)]
  rfl

section Fills
variable {s : State} {source : Source} {sender : Word32} {record : List Byte} {f : Fragment} {slot i : Nat}
  {rest : List Nat} (parsed : parseFragment record = some f) (admitted : s.Admits f)
  (found : s.assemblingOf f.issue.key = some i) (free : s.free = slot :: rest)
include parsed admitted found free

/-- A fragment that fits its entry is taken with the slot at the head of the free list. -/
theorem State.intake_of_fits (own : (s.entry i).issue = some f.issue) (fits : (s.entry i).fits f) :
    (s.arrived source).intake source record = ((s.arrived source).withFree rest).takeInto source f slot i := by
  rw [State.intake_of_assembling parsed (by simpa using admitted) (by simpa using found)]
  exact State.intakeAssembling_of_fits (by simpa using own) (by simpa using fits)
    (State.findSlot_of_free (by simpa using free) _ _)

theorem State.intake_of_higher (higher : (s.entry i).revision < f.issue.revision.toNat) :
    (s.arrived source).intake source record
      = (((s.arrived source).withFree rest).retarget i f.issue f.total f.category false).takeInto source f slot i := by
  rw [State.intake_of_assembling parsed (by simpa using admitted) (by simpa using found)]
  exact State.intakeAssembling_of_higher (by simpa using higher) (State.findSlot_of_free (by simpa using free) _ _)

/-- A fragment that fits and does not complete the body. -/
theorem exec_arrival_fills (meet : s.Meets source sender record) (own : (s.entry i).issue = some f.issue)
    (fits : (s.entry i).fits f)
    (open' : ∃ k, k < f.total ∧ k ≠ f.index ∧ (s.entry i).map.getD k none = none) :
    exec (arrival source sender record) s = .next (((((s.arrived source).withStore (s.store.set slot f.payload)).withFree
      rest).setEntry i ((s.entry i).filledBy f source slot s.uptime s.assemblyEnd s.gapEnd)).count .fragmentsTaken) := by
  obtain ⟨k, below, other, empty⟩ := open'
  obtain ⟨-, -, short⟩ := parseFragment_bounds parsed
  have inTable : i < ((s.arrived source).withFree rest).table.length := by
    simpa using State.findEntry_inTable found
  have entry : ((s.arrived source).withFree rest).tookEntry source f slot i
      = (s.entry i).filledBy f source slot s.uptime s.assemblyEnd s.gapEnd := by
    rw [← Entry.took_of_fits fits, ← s.arrived_uptime source, ← s.arrived_assemblyEnd source,
      ← s.arrived_gapEnd source, ← s.arrived_entry source i]
    rfl
  have part : (((s.arrived source).withFree rest).tookEntry source f slot i).bodyHeld = false := by
    rw [entry, ← Entry.took_of_fits fits]
    exact Entry.took_part below other (fits.imp_right And.left) empty
  have intake := State.intake_of_fits (source := source) parsed admitted found free own fits
  rw [State.takeInto_of_open inTable part, State.took, entry, Memory.write_of_short short, State.withFree_store,
    s.arrived_store source] at intake
  exact exec_arrival meet intake rfl

/-- The first fragment after an OFFER meets the entry with its own total and category. -/
theorem exec_arrival_settles (meet : s.Meets source sender record) (own : (s.entry i).issue = some f.issue)
    (provisional : (s.entry i).provisional = true) (empty : (s.entry i).map.getD f.index none = none) :
    exec (arrival source sender record) s
      = exec (arrival source sender record) (s.setEntry i ((s.entry i).settledBy f)) := by
  have inTable : i < s.table.length := State.findEntry_inTable found
  obtain ⟨assembling, ofKey⟩ := Bool.and_eq_true_iff.mp (State.findEntry_some found)
  have self := State.entry_setEntry inTable ((s.entry i).settledBy f)
  have table : (s.setEntry i ((s.entry i).settledBy f)).table = s.table.set i ((s.entry i).settledBy f) := rfl
  have admitted' : (s.setEntry i ((s.entry i).settledBy f)).Admits f := by
    refine ⟨admitted.1, fun e mem complete key => ?_⟩
    obtain before | ⟨rfl, -⟩ := State.mem_table_set table mem
    · exact admitted.2 e before complete key
    · simp [Entry.isComplete, Entry.settledBy, beq_iff_eq.mp assembling] at complete
  have found' : (s.setEntry i ((s.entry i).settledBy f)).assemblingOf f.issue.key = some i :=
    (State.findEntry_of_table_set table rfl).trans found
  have entry : ((s.arrived source).withFree rest).entry i = s.entry i := s.arrived_entry source i
  refine exec_arrival_congr meet (State.setEntry_meets meet i _) ?_
  rw [State.intake_of_fits parsed admitted found free own (.inl provisional),
    State.intake_of_fits (source := source) parsed admitted' found' free (by rw [self]; exact own)
      (.inr (by rw [self]; exact ⟨rfl, rfl, empty⟩)), State.arrived_setEntry]
  refine (State.takeInto_setEntry (s := (s.arrived source).withFree rest) (by simpa using inTable)
    fun uptime assemblyEnd gapEnd => ?_).symm
  rw [entry, Entry.settledBy_took provisional empty]

end Fills

end Sys2Proof.Machine

/-! A fragment of a higher revision retargets its entry (01 R11, R25; 02 R36). -/

namespace Sys2Proof.Machine

/-! ### A retarget and what stands beside it -/

section Retarget
variable {s : State} {i : Nat} {f : Fragment}

/-- The free list and the modem link play no part in a body release. -/
theorem State.releaseBody_withFree (s : State) (x : List Nat) (i : Nat) :
    (s.withFree x).releaseBody i = (s.releaseBody i).withFree (x ++ (s.entry i).slots) := by
  by_cases empty : (s.entry i).slots = []
  · rw [State.releaseBody_of_nil empty, State.releaseBody_of_nil (s := s.withFree x) empty, empty, List.append_nil]
  · cases issued : (s.entry i).issue with
    | none =>
      rw [State.releaseBody_of_unissued empty issued, State.releaseBody_of_unissued (s := s.withFree x) empty issued]
      rfl
    | some issue =>
      rw [State.releaseBody_of_issue empty issued, State.releaseBody_of_issue (s := s.withFree x) empty issued]
      exact (State.withFree_beside (x ++ (s.entry i).slots)).removePieces (s.bodyGone i) issue none

theorem State.retarget_withFree (x : List Nat) : (s.withFree x).retarget i f.issue f.total f.category false
    = (s.retarget i f.issue f.total f.category false).withFree (x ++ (s.entry i).slots) := by
  rw [State.retarget_eq, State.retarget_eq, State.releaseBody_withFree]
  rfl

theorem State.retarget_recordIn (s : State) (i : Nat) (f : Fragment) :
    (s.retarget i f.issue f.total f.category false).recordIn = s.recordIn.retarget i f.issue f.total f.category false := by
  rw [State.retarget_eq, State.retarget_eq, ← State.releaseBody_recordIn]
  rfl

theorem State.retarget_free (s : State) (i : Nat) (issue : Issue) (total : Nat) (cat : Category) (provisional : Bool) :
    (s.retarget i issue total cat provisional).free = s.free ++ (s.entry i).slots := s.releaseBody_free i

/-- The entry that a fragment of a higher revision leaves, before it is taken. -/
def State.retargetedEntry (s : State) (i : Nat) (issue : Issue) (total : Nat) (cat : Category) (provisional : Bool) :
    Entry := (s.entry i).released.retargeted issue total cat provisional s.assemblyEnd s.gapEnd

theorem State.retarget_table (s : State) (i : Nat) (issue : Issue) (total : Nat) (cat : Category) (provisional : Bool) :
    (s.retarget i issue total cat provisional).table
      = s.table.set i (s.retargetedEntry i issue total cat provisional) := by
  rw [State.retarget_eq, State.modEntry, State.releaseBody_entry_self, State.setEntry, State.withTable_table,
    State.releaseBody_table, List.set_set]
  rfl

/-- A map without a slot in it, of the full length, is empty. -/
theorem eq_emptyMap {map : List (Option Nat)} (positions : map.length = 16) (none' : map.filterMap id = []) :
    map = emptyMap := by
  refine List.eq_replicate_iff.mpr ⟨positions, fun x mem => ?_⟩
  simpa using List.filterMap_eq_nil_iff.mp none' x mem

theorem emptyMap_getD (k : Nat) : emptyMap.getD k none = none := by
  rw [List.getD_eq_getElem?_getD, emptyMap, List.getElem?_replicate]
  split <;> rfl

theorem Entry.released_map {e : Entry} (positions : e.map.length = 16) : e.released.map = emptyMap := by
  unfold Entry.released
  split
  · next empty => exact eq_emptyMap positions empty
  · rfl

end Retarget

/-! ### The fragment of a higher revision (02 R36) -/

section Higher
variable {s : State} {source : Source} {sender : Word32} {record : List Byte} {f : Fragment} {slot i : Nat}
  {rest : List Nat} (parsed : parseFragment record = some f) (admitted : s.Admits f)
  (found : s.assemblingOf f.issue.key = some i) (free : s.free = slot :: rest)
include parsed admitted found free

/-- The modem's fragment meets the entry as a retarget leaves it. -/
theorem exec_fragment_retargets (idle : s.ModemIdle) (least : 17 ≤ record.length) (most : record.length ≤ 105)
    (positions : (s.entry i).map.length = 16) (higher : (s.entry i).revision < f.issue.revision.toNat) :
    exec (.fragment record) s = exec (.fragment record) (s.retarget i f.issue f.total f.category false) := by
  have inTable : i < s.table.length := State.findEntry_inTable found
  obtain ⟨assembling, own⟩ := Bool.and_eq_true_iff.mp (State.findEntry_some found)
  have assembling : (s.entry i).state = .assembling := beq_iff_eq.mp assembling
  have table := s.retarget_table i f.issue f.total f.category false
  have state : (s.retargetedEntry i f.issue f.total f.category false).state = .assembling :=
    (s.entry i).released_state.trans assembling
  have self : (s.retarget i f.issue f.total f.category false).entry i = s.retargetedEntry i f.issue f.total f.category false :=
    State.retarget_entry_self inTable _ _ _ _
  have admitted' : (s.retarget i f.issue f.total f.category false).Admits f := by
    refine ⟨(State.isLive_of_standing (s.retarget_standing i f.issue f.total f.category false) f).mpr admitted.1,
      fun e mem complete key => ?_⟩
    obtain before | ⟨rfl, -⟩ := State.mem_table_set table mem
    · exact admitted.2 e before complete key
    · simp [Entry.isComplete, state] at complete
  have found' : (s.retarget i f.issue f.total f.category false).assemblingOf f.issue.key = some i := by
    refine (State.findEntry_of_table_set table ?_).trans found
    rw [state, assembling, own]
    simp [State.retargetedEntry, Entry.retargeted, Entry.ofKey, Entry.released_state, assembling]
  have idle' : (s.retarget i f.issue f.total f.category false).ModemIdle := by
    have ml : (s.retarget i f.issue f.total f.category false).ml = s.ml := s.releaseBody_frame i .ml (by decide)
    rw [State.ModemIdle, ml]
    exact idle
  have free' : (s.retarget i f.issue f.total f.category false).free = slot :: (rest ++ (s.entry i).slots) := by
    rw [State.retarget_free, free, List.cons_append]
  have fits : ((s.retarget i f.issue f.total f.category false).entry i).fits f := by
    rw [self]
    refine .inr ⟨rfl, rfl, ?_⟩
    change (s.entry i).released.map.getD f.index none = none
    rw [Entry.released_map positions, emptyMap_getD]
  have meets := State.intake_of_higher (source := .broadcast) parsed admitted found free higher
  have meets' := State.intake_of_fits (source := .broadcast) parsed admitted' found' free' (by rw [self]; rfl) fits
  rw [exec_fragment idle least most, exec_fragment idle' least most]
  refine congrArg _ (meets.trans (Eq.trans ?_ meets'.symm))
  change ((s.recordIn.withFree rest).retarget i f.issue f.total f.category false).takeInto .broadcast f slot i
    = ((s.retarget i f.issue f.total f.category false).recordIn.withFree (rest ++ (s.entry i).slots)).takeInto
        .broadcast f slot i
  rw [State.retarget_withFree, State.retarget_recordIn]
  rfl

/-- The state in which the retargeted entry has taken the fragment. -/
def State.retargetTook (s : State) (source : Source) (f : Fragment) (slot i : Nat) (rest : List Nat) : State :=
  (((s.arrived source).withFree rest).retarget i f.issue f.total f.category false).took source f slot i

omit parsed admitted found free in
theorem State.retargetTook_frame (s : State) (source : Source) (f : Fragment) (slot i : Nat) (rest : List Nat) :
    s.onlyChanges [.tb, .table, .store, .free, .cs, .ml, .counters] (s.retargetTook source f slot i rest) := by
  have arrived : s.onlyChanges [.tb, .table, .store, .free, .cs, .ml, .counters] (s.arrived source) :=
    (s.arrived_frame source).mono (by decide)
  simpa [State.retargetTook, State.took] using arrived

omit admitted free in
/-- One fragment of several is taken, and the body is not complete. -/
theorem State.retargetTook_entry (positions : (s.entry i).map.length = 16) (several : 1 < f.total) :
    (s.retargetTook source f slot i rest).entry i
        = (s.retargetedEntry i f.issue f.total f.category false).took f source slot s.uptime s.assemblyEnd s.gapEnd
      ∧ (((s.arrived source).withFree rest).retarget i f.issue f.total f.category false).takeInto source f slot i
        = s.retargetTook source f slot i rest := by
  have inTable : i < s.table.length := State.findEntry_inTable found
  have standing := ((s.arrived source).withFree rest).retarget_standing i f.issue f.total f.category false
  have frame := ((s.arrived source).withFree rest).retarget_frame i f.issue f.total f.category false
  have settings : (((s.arrived source).withFree rest).retarget i f.issue f.total f.category false).settings = s.settings :=
    (frame .settings (by decide)).trans (s.arrived_settings source)
  have now : (((s.arrived source).withFree rest).retarget i f.issue f.total f.category false).now = s.now :=
    (State.standing_parts standing).1.1.trans (s.arrived_now source)
  have uptime : (((s.arrived source).withFree rest).retarget i f.issue f.total f.category false).uptime = s.uptime :=
    (congrArg (fun x => x.1.1) standing : _).trans (s.arrived_uptime source)
  have inTable' : i < ((s.arrived source).withFree rest).table.length := by simpa using inTable
  have self : (((s.arrived source).withFree rest).retarget i f.issue f.total f.category false).entry i
      = s.retargetedEntry i f.issue f.total f.category false := by
    rw [State.retarget_entry_self inTable', State.retargetedEntry, ← s.arrived_entry source i,
      ← s.arrived_assemblyEnd source, ← s.arrived_gapEnd source]
    rfl
  have entry : (((s.arrived source).withFree rest).retarget i f.issue f.total f.category false).tookEntry source f slot i
      = (s.retargetedEntry i f.issue f.total f.category false).took f source slot s.uptime s.assemblyEnd s.gapEnd := by
    simp only [State.tookEntry, self, State.assemblyEnd, State.gapEnd, settings, now, uptime]
  have inTable'' : i < (((s.arrived source).withFree rest).retarget i f.issue f.total f.category false).table.length := by
    rw [State.retarget_table, List.length_set]
    exact inTable'
  refine ⟨(State.took_entry_self inTable'').trans entry, State.takeInto_of_open inTable'' ?_⟩
  obtain ⟨index, -, -⟩ := parseFragment_bounds parsed
  have map : (s.retargetedEntry i f.issue f.total f.category false).map = emptyMap := Entry.released_map positions
  rw [entry]
  refine Entry.took_part (k := if f.index = 0 then 1 else 0) ?_ ?_ (.inr rfl) (by rw [map, emptyMap_getD])
  all_goals split <;> omega

/-- The fragment is taken into the retargeted entry, and nothing else of the table is touched. -/
theorem exec_arrival_retargets (meet : s.Meets source sender record) (positions : (s.entry i).map.length = 16)
    (higher : (s.entry i).revision < f.issue.revision.toNat) (several : 1 < f.total) :
    ∃ t, exec (arrival source sender record) s = .next t
      ∧ s.onlyChanges [.tb, .table, .store, .free, .cs, .ml, .counters] t
      ∧ t.free = rest ++ (s.entry i).slots ∧ t.store = s.store.set slot f.payload
      ∧ t.entry i
        = (s.retargetedEntry i f.issue f.total f.category false).took f source slot s.uptime s.assemblyEnd s.gapEnd
      ∧ ∀ j, j ≠ i → t.entry j = s.entry j := by
  obtain ⟨-, -, short⟩ := parseFragment_bounds parsed
  obtain ⟨entry, taken⟩ := State.retargetTook_entry (source := source) (slot := slot) (rest := rest) parsed found
    positions several
  obtain ⟨t, ran, after, -⟩ := exec_arrival_after meet
  rw [State.intake_of_higher parsed admitted found free higher, taken] at after
  have table := State.entry_congr (after .table (by decide))
  have store : (s.retargetTook source f slot i rest).store = s.store.set slot f.payload := by
    change Memory.write _ slot f.payload = _
    rw [Memory.write_of_short short, State.retarget_frame _ _ _ _ _ _ .store (by decide)]
    exact congrArg (List.set · slot f.payload) (s.arrived_store source)
  have freed : (s.retargetTook source f slot i rest).free = rest ++ (s.entry i).slots := by
    rw [← s.arrived_entry source i]
    exact State.retarget_free ((s.arrived source).withFree rest) i f.issue f.total f.category false
  refine ⟨t, ran, State.onlyChanges.step (s.retargetTook_frame source f slot i rest) after (by decide),
    (after .free (by decide)).trans freed, (after .store (by decide)).trans store, (table i).trans entry,
    fun j other => (table j).trans ?_⟩
  rw [State.retargetTook, State.took_entry_ne other, State.entry_of_table_set (State.retarget_table _ i _ _ _ _),
    State.entry_setEntry_ne _ other]
  exact s.arrived_entry source j

end Higher

/-- Settles O18: each of the four cases by its lemma. -/
theorem fragmentFillsPosition : Obligations.FragmentFillsPosition := by
  unfold Obligations.FragmentFillsPosition
  intro s source sender record f slot i rest meet parsed admitted found free positions e
  have inTable : i < s.table.length := State.findEntry_inTable found
  have assembling : e.state = .assembling := beq_iff_eq.mp (Bool.and_eq_true_iff.mp (State.findEntry_some found)).1
  refine ⟨fun own fits open' => ?_, fun own provisional empty => ?_, fun higher modem => ?_, fun higher several => ?_⟩
  · exact exec_arrival_fills parsed admitted found free meet own fits open'
  · exact exec_arrival_settles parsed admitted found free meet own provisional empty
  · subst modem
    obtain ⟨idle, least, most⟩ := meet
    exact exec_fragment_retargets parsed admitted found free idle least most positions higher
  · obtain ⟨t, ran, frame, freed, store, entry, others⟩ :=
      exec_arrival_retargets parsed admitted found free meet positions higher several
    have map : e.released.map = emptyMap := Entry.released_map positions
    refine ⟨t, ran, frame, freed, store, ?_, ?_, ?_, ?_, ?_, ?_, ?_, ?_, ?_, ?_, ?_, ?_, ?_, ?_, ?_, ?_, ?_, others⟩
    all_goals rw [entry]
    · exact e.released_state.trans assembling
    · exact e.released_generation
    · rfl
    · exact congrArg (List.set · f.index (some slot)) map
    all_goals rfl

end Sys2Proof.Machine

/-! An entry taken into use, FREE or reclaimed under table pressure, for a fragment and for an OFFER (01 R9, R29, R30;
02 R37; 05 R96). -/

namespace Sys2Proof.Machine

/-! ### The classes of table pressure (01 R29) -/

section Classes
variable (c : Settings) (key : Key) (category : Category) (e : Entry) (l : Nat × Nat)

theorem Entry.huskRank_iff : e.huskRank key = some l ↔ e.reclaimClass c key category = some (1, l.1) ∧ l.2 = 0 := by
  obtain ⟨time, second⟩ := l
  unfold Entry.huskRank Entry.reclaimClass Entry.isHusk
  cases own : e.ofKey key
  · cases state : e.state
    case closed => cases e.bodyHeld <;> simp [eq_comm]
    case assembling => cases e.category <;> simp
    all_goals simp
  · simp

theorem Entry.closedRank_iff : e.closedRank key = some l ↔ e.reclaimClass c key category = some (2, l.1) ∧ l.2 = 0 := by
  obtain ⟨time, second⟩ := l
  unfold Entry.closedRank Entry.reclaimClass
  cases own : e.ofKey key
  · cases state : e.state
    case closed => cases e.bodyHeld <;> simp [eq_comm]
    case assembling => cases e.category <;> simp
    all_goals simp
  · simp

theorem Entry.outsideRank_iff : e.outsideRank key = some l ↔ e.reclaimClass c key category = some (3, l.1) ∧ l.2 = 0 := by
  obtain ⟨time, second⟩ := l
  unfold Entry.outsideRank Entry.reclaimClass
  cases own : e.ofKey key
  · cases state : e.state
    case closed => cases e.bodyHeld <;> simp
    case outside => simp [eq_comm]
    case assembling => cases e.category <;> simp
    all_goals simp
  · simp

theorem Entry.assemblingRank_iff :
    e.assemblingRank c key category = some l ↔ e.reclaimClass c key category = some (4, l.1) ∧ l.2 = 0 := by
  obtain ⟨time, second⟩ := l
  unfold Entry.assemblingRank Entry.reclaimClass Entry.assemblyOrder
  cases own : e.ofKey key
  · cases state : e.state
    case closed => cases e.bodyHeld <;> cases e.category <;> simp
    case assembling => cases e.category <;> simp [and_assoc, eq_comm (a := 0)]
    all_goals cases e.category <;> simp
  · cases e.category <;> simp

variable {c key category e}

theorem Entry.reclaimClass_cases {d time : Nat} (ranked : e.reclaimClass c key category = some (d, time)) :
    d = 1 ∨ d = 2 ∨ d = 3 ∨ d = 4 := by
  unfold Entry.reclaimClass at ranked
  repeat' split at ranked
  all_goals cases ranked
  all_goals simp

end Classes

/-! ### The entry that is reclaimed (01 R29) -/

section Choice
variable {s : State} {key : Key} {category : Category} {step time d v : Nat} {rank : Entry → Option (Nat × Nat)}
  (iff : ∀ e l, rank e = some l ↔ e.reclaimClass s.settings key category = some (d, l.1) ∧ l.2 = 0)
include iff

/-- Among the entries of its class, the reclaimed one is the first. -/
theorem State.leastEntry_of_reclaimed (inTable : v < s.table.length)
    (ranked : (s.entry v).reclaimClass s.settings key category = some (d, time))
    (first : ∀ j c by', j < s.table.length → (s.entry j).reclaimClass s.settings key category = some (c, by') →
      d < c ∨ (d = c ∧ (time < by' ∨ (time = by' ∧ v ≤ j)))) : s.leastEntry rank = some v := by
  refine State.leastEntry_of_first (l := (time, 0)) inTable ((iff _ _).mpr ⟨ranked, rfl⟩) fun j l within other => ?_
  obtain ⟨class', zero⟩ := (iff _ _).mp other
  have order := first j d l.1 within class'
  obtain ⟨time', zero'⟩ := l
  simp only [rankLess_iff, Prod.mk.injEq]
  omega

/-- No entry is of an earlier class. -/
theorem State.leastEntry_of_earlier_class (first : ∀ j c by', j < s.table.length →
    (s.entry j).reclaimClass s.settings key category = some (c, by') → step < c ∨ step = c)
    (earlier : d < step) : s.leastEntry rank = none := by
  refine State.leastEntry_eq_none fun e mem => ?_
  obtain ⟨j, within, rfl⟩ := List.getElem_of_mem mem
  have own : s.entry j = s.table[j] := by simp [State.entry, within]
  cases other : rank s.table[j] with
  | none => rfl
  | some l =>
    have order := first j d l.1 within (own ▸ ((iff _ _).mp other).1)
    omega

end Choice

section Reclaimed
variable {s : State} {key : Key} {category : Category} {v : Nat}

theorem State.reclaimChoice_of_reclaims (reclaims : s.reclaims key category v) :
    s.reclaimChoice key category false = some v := by
  obtain ⟨inTable, d, time, ranked, first⟩ := reclaims
  have order := fun j c by' within other => (first j c by' within other).imp_right And.left
  have iff1 := Entry.huskRank_iff s.settings key category
  have iff2 := Entry.closedRank_iff s.settings key category
  have iff3 := Entry.outsideRank_iff s.settings key category
  have iff4 := Entry.assemblingRank_iff s.settings key category
  unfold State.reclaimChoice
  rw [State.huskChoice_fragment]
  obtain rfl | rfl | rfl | rfl := Entry.reclaimClass_cases ranked
  · simp [State.leastEntry_of_reclaimed iff1 inTable ranked first]
  · simp [State.leastEntry_of_earlier_class iff1 order, State.leastEntry_of_reclaimed iff2 inTable ranked first]
  · simp [State.leastEntry_of_earlier_class iff1 order, State.leastEntry_of_earlier_class iff2 order,
      State.leastEntry_of_reclaimed iff3 inTable ranked first]
  · simp [State.leastEntry_of_earlier_class iff1 order, State.leastEntry_of_earlier_class iff2 order,
      State.leastEntry_of_earlier_class iff3 order, State.leastEntry_of_reclaimed iff4 inTable ranked first]

end Reclaimed

/-! ### Taken into use (01 R9, R30) -/

section TakenUse
variable {s : State} {issue : Issue} {total i : Nat} {category : Category} {forOffer : Bool}

theorem State.takeEntry_of_free (inTable : i < s.table.length) (free : (s.entry i).state = .free)
    (before : ∀ j, j < i → (s.entry j).state ≠ .free) : s.takeEntry issue total category forOffer
      = some (i, s.setEntry i (s.usedEntry (s.entry i).generation issue total category forOffer)) := by
  have found : s.findEntry (fun e => e.state == .free) = some i := by
    have own (j : Nat) (within : j < s.table.length) : s.table[j] = s.entry j := by simp [State.entry, within]
    refine List.findIdx?_eq_some_iff_getElem.mpr ⟨inTable, by simp [own, free], fun j less => ?_⟩
    simpa [own] using before j less
  simp only [State.takeEntry, found]
  rfl

theorem State.takeEntry_of_reclaimed (used : ∀ e ∈ s.table, e.state ≠ .free)
    (chosen : s.reclaimChoice issue.key category forOffer = some i) : s.takeEntry issue total category forOffer
      = some (i, (s.freeEntry i false).useEntry i issue total category forOffer) := by
  have noneFree : s.findEntry (fun e => e.state == .free) = none :=
    List.findIdx?_eq_none_iff.mpr fun e held => by simp [used e held]
  simp only [State.takeEntry, noneFree, chosen]

/-- A state of the same settings and standing starts an entry alike. -/
theorem State.usedEntry_congr {t : State} (standing : t.standing = s.standing) (settings : t.settings = s.settings)
    (generation : Byte) : t.usedEntry generation issue total category forOffer
      = s.usedEntry generation issue total category forOffer := by
  have now : t.now = s.now := (State.standing_parts standing).1.1
  have uptime : t.uptime = s.uptime := (congrArg (fun x => x.1.1) standing :)
  simp only [State.usedEntry, State.assemblyEnd, State.gapEnd, now, uptime, settings]

/-- The entry that a freed one becomes. -/
theorem State.reused_entry_self (inTable : i < s.table.length) :
    ((s.freeEntry i false).useEntry i issue total category forOffer).entry i
      = s.usedEntry (s.entry i).generation issue total category forOffer := by
  rw [State.useEntry_entry_self (by rw [State.freeEntry_table, List.length_set]; exact inTable),
    State.freeEntry_entry_self]
  exact State.usedEntry_congr (State.freeEntry_standing _ _ _) (s.freeEntry_frame i false .settings (by decide)) _

theorem State.reused_entry_ne {j : Nat} (other : j ≠ i) :
    ((s.freeEntry i false).useEntry i issue total category forOffer).entry j = s.entry j :=
  (State.entry_setEntry_ne _ other _).trans (s.freeEntry_entry_ne other false)

end TakenUse

end Sys2Proof.Machine

/-! A fragment of a key that no entry assembles starts an entry (01 R9, R29, R30; 02 R37). -/

namespace Sys2Proof.Machine

theorem State.findEntry_setEntry_of_none {s : State} {p : Entry → Bool} {i : Nat} {e : Entry}
    (absent : s.findEntry p = none) (inTable : i < s.table.length) (holds : p e = true) :
    (s.setEntry i e).findEntry p = some i := by
  have absent := List.findIdx?_eq_none_iff.mp absent
  refine List.findIdx?_eq_some_iff_getElem.mpr ⟨inTable.trans_eq List.length_set.symm, ?_, fun j less => ?_⟩
  · simpa [State.setEntry] using holds
  · have other : i ≠ j := by omega
    simpa [State.setEntry, List.getElem_set_ne other] using absent _ (List.getElem_mem (less.trans inTable))

/-! ### A FREE entry (01 R9) -/

section Starts
variable {s : State} {source : Source} {sender : Word32} {record : List Byte} {f : Fragment} {slot i : Nat}
  {rest : List Nat}

/-- The entry that a fragment starts. -/
def State.begun (s : State) (i : Nat) (f : Fragment) : Entry :=
  s.usedEntry (s.entry i).generation f.issue f.total f.category false

theorem State.begun_fits (s : State) (i : Nat) (f : Fragment) : (s.begun i f).fits f := .inr ⟨rfl, rfl, emptyMap_getD _⟩

/-- A position but the fragment's is free in the entry it starts. -/
theorem State.begun_open (s : State) (i : Nat) (several : 1 < f.total) :
    ∃ k, k < f.total ∧ k ≠ f.index ∧ (s.begun i f).map.getD k none = none := by
  refine ⟨if f.index = 0 then 1 else 0, ?_, ?_, emptyMap_getD _⟩
  all_goals split <;> omega

variable (parsed : parseFragment record = some f) (admitted : s.Admits f)
  (unknown : s.assemblingOf f.issue.key = none) (free : s.free = slot :: rest)
include parsed admitted unknown free

theorem State.intake_of_started {u : State}
    (taken : ((s.arrived source).withFree rest).takeEntry f.issue f.total f.category false = some (i, u)) :
    (s.arrived source).intake source record = u.takeInto source f slot i := by
  rw [State.intake_of_new parsed (by simpa using admitted) (by simpa using unknown)]
  exact State.intakeNew_of_taken (State.findSlot_of_free (by simpa using free) _ _) taken

section Free
variable (inTable : i < s.table.length)
include inTable

omit parsed free unknown inTable in
theorem State.begun_admits : (s.setEntry i (s.begun i f)).Admits f := by
  refine ⟨admitted.1, fun e mem complete key => ?_⟩
  obtain before | ⟨rfl, -⟩ := State.mem_table_set (t := s.setEntry i (s.begun i f)) rfl mem
  · exact admitted.2 e before complete key
  · cases complete

omit parsed free admitted in
theorem State.begun_found : (s.setEntry i (s.begun i f)).assemblingOf f.issue.key = some i :=
  State.findEntry_setEntry_of_none unknown inTable (by simp [State.begun, State.usedEntry, Entry.ofKey])

/-- The fragment meets the entry it starts. -/
theorem exec_arrival_begins (meet : s.Meets source sender record) (state : (s.entry i).state = .free)
    (before : ∀ j, j < i → (s.entry j).state ≠ .free) :
    exec (arrival source sender record) s = exec (arrival source sender record) (s.setEntry i (s.begun i f)) := by
  have self : (s.setEntry i (s.begun i f)).entry i = s.begun i f := State.entry_setEntry inTable _
  have entry (j : Nat) : ((s.arrived source).withFree rest).entry j = s.entry j := s.arrived_entry source j
  have taken := State.takeEntry_of_free (s := (s.arrived source).withFree rest) (issue := f.issue) (total := f.total)
    (category := f.category) (forOffer := false) (by simpa using inTable) (by rw [entry]; exact state)
    (fun j less => by rw [entry]; exact before j less)
  have same : ((s.arrived source).withFree rest).usedEntry (((s.arrived source).withFree rest).entry i).generation
      f.issue f.total f.category false = s.begun i f := by
    rw [entry]
    cases source <;> rfl
  refine exec_arrival_congr meet (State.setEntry_meets meet i _) ?_
  rw [State.intake_of_started parsed admitted unknown free taken, same,
    State.intake_of_fits (source := source) parsed (State.begun_admits admitted)
      (State.begun_found unknown inTable) free (by rw [self]; rfl) (by rw [self]; exact s.begun_fits i f),
    State.arrived_setEntry]
  rfl

/-- One fragment of several is taken into the entry it starts. -/
theorem exec_arrival_starts (meet : s.Meets source sender record) (state : (s.entry i).state = .free)
    (before : ∀ j, j < i → (s.entry j).state ≠ .free) (several : 1 < f.total) :
    exec (arrival source sender record) s
      = .next (((((s.arrived source).withStore (s.store.set slot f.payload)).withFree rest).setEntry i
          ((s.begun i f).filledBy f source slot s.uptime s.assemblyEnd s.gapEnd)).count .fragmentsTaken) := by
  have self : (s.setEntry i (s.begun i f)).entry i = s.begun i f := State.entry_setEntry inTable _
  have fills := exec_arrival_fills (source := source) (sender := sender) parsed (State.begun_admits admitted)
    (State.begun_found unknown inTable) free (State.setEntry_meets meet i _) (by rw [self]; rfl)
    (by rw [self]; exact s.begun_fits i f) (by rw [self]; exact s.begun_open i several)
  rw [exec_arrival_begins parsed admitted unknown free inTable meet state before, fills, self, State.arrived_setEntry]
  exact congrArg (fun t => Host.Outcome.next (State.count t .fragmentsTaken))
    (State.setEntry_setEntry (((s.arrived source).withStore (s.store.set slot f.payload)).withFree rest) i _ _)

end Free

/-! ### An entry reclaimed (01 R29, R30) -/

/-- The state in which the fragment has been taken into the entry reclaimed for it. -/
def State.reclaimed (s : State) (source : Source) (f : Fragment) (slot v : Nat) (rest : List Nat) : State :=
  ((((s.arrived source).withFree rest).freeEntry v false).useEntry v f.issue f.total f.category false).took source f slot v

omit parsed admitted unknown free in
theorem State.reclaimed_frame (s : State) (source : Source) (f : Fragment) (slot v : Nat) (rest : List Nat) :
    s.onlyChanges [.tb, .table, .store, .free, .ar, .cs, .ru, .pu, .ml, .counters]
      (s.reclaimed source f slot v rest) := by
  have arrived : s.onlyChanges [.tb, .table, .store, .free, .ar, .cs, .ru, .pu, .ml, .counters] (s.arrived source) :=
    (s.arrived_frame source).mono (by decide)
  simpa [State.reclaimed, State.took] using arrived

omit parsed admitted unknown free in
/-- No notice is posted for an entry that is freed. -/
theorem State.freeEntry_notices (s : State) (i : Nat) (superseded : Bool) :
    (s.freeEntry i superseded).pu.notices = s.pu.notices := by
  have told : (s.freeEntry i superseded).pu = (s.dissolved i).pu := State.tellEnded_frame _ _ _ .pu (by decide)
  have dissolved : (s.dissolved i).pu = ((s.releaseBody i).emptySlot i).pu := s.dissolved_after i .pu (by decide)
  have released : (s.releaseBody i).pu = s.pu := s.releaseBody_frame i .pu (by decide)
  rw [told, dissolved, State.emptySlot_pu.1, released]

omit parsed admitted unknown free in
/-- A state of the same standing and settings takes the fragment at the same times. -/
theorem State.tookEntry_of_standing {t : State} (standing : t.standing = s.standing) (settings : t.settings = s.settings) :
    t.tookEntry source f slot i = (t.entry i).took f source slot s.uptime s.assemblyEnd s.gapEnd := by
  have now : t.now = s.now := (State.standing_parts standing).1.1
  have uptime : t.uptime = s.uptime := (congrArg (fun x => x.1.1) standing :)
  simp only [State.tookEntry, State.assemblyEnd, State.gapEnd, now, uptime, settings]

omit parsed admitted unknown free in
theorem State.arrived_standing (s : State) (source : Source) : (s.arrived source).standing = s.standing := by
  cases source <;> rfl

section Took
variable {v : Nat} (inTable : v < s.table.length)
include inTable

omit parsed admitted unknown free in
theorem State.reclaimed_tookEntry : ((((s.arrived source).withFree rest).freeEntry v false).useEntry v f.issue f.total
      f.category false).tookEntry source f slot v
    = (s.begun v f).filledBy f source slot s.uptime s.assemblyEnd s.gapEnd := by
  have begun : ((s.arrived source).withFree rest).usedEntry (((s.arrived source).withFree rest).entry v).generation
      f.issue f.total f.category false = s.begun v f := by
    cases source <;> rfl
  have settings : ((((s.arrived source).withFree rest).freeEntry v false).useEntry v f.issue f.total f.category
      false).settings = s.settings :=
    (State.freeEntry_frame _ v false .settings (by decide)).trans (s.arrived_settings source)
  rw [State.tookEntry_of_standing (by simpa using s.arrived_standing source) settings,
    State.reused_entry_self (by simpa using inTable), begun, Entry.took_of_fits (s.begun_fits v f)]

omit parsed admitted unknown free in
/-- One fragment of several does not complete the body. -/
theorem State.reclaimed_taken (several : 1 < f.total) :
    ((((s.arrived source).withFree rest).freeEntry v false).useEntry v f.issue f.total f.category false).takeInto source
      f slot v = s.reclaimed source f slot v rest := by
  refine State.takeInto_of_open ?_ ?_
  · change v < (List.set _ v _).length
    rw [List.length_set, State.freeEntry_table, List.length_set]
    simpa using inTable
  · obtain ⟨k, below, other, empty⟩ := s.begun_open v several
    rw [State.reclaimed_tookEntry inTable, ← Entry.took_of_fits (s.begun_fits v f)]
    exact Entry.took_part below other (.inr rfl) empty

omit parsed admitted unknown free in
theorem State.reclaimed_entry_self : (s.reclaimed source f slot v rest).entry v
    = (s.begun v f).filledBy f source slot s.uptime s.assemblyEnd s.gapEnd := by
  refine (State.took_entry_self ?_).trans (State.reclaimed_tookEntry inTable)
  change v < (List.set _ v _).length
  rw [List.length_set, State.freeEntry_table, List.length_set]
  simpa using inTable

end Took

/-- One fragment of several is taken into the entry reclaimed for it. -/
theorem exec_arrival_reclaims {v : Nat} (meet : s.Meets source sender record) (used : ∀ e ∈ s.table, e.state ≠ .free)
    (reclaims : s.reclaims f.issue.key f.category v) (several : 1 < f.total) :
    ∃ t, exec (arrival source sender record) s = .next t
      ∧ t.entry v = (s.begun v f).filledBy f source slot s.uptime s.assemblyEnd s.gapEnd
      ∧ (∀ j, j ≠ v → t.entry j = s.entry j) ∧ t.free = rest ++ (s.entry v).slots
      ∧ t.store = s.store.set slot f.payload ∧ t.pu.notices = s.pu.notices ∧ t.flags = s.flags := by
  have ⟨inTable, _⟩ := reclaims
  obtain ⟨-, -, short⟩ := parseFragment_bounds parsed
  have chosen : ((s.arrived source).withFree rest).reclaimChoice f.issue.key f.category false = some v := by
    refine State.reclaimChoice_of_reclaims ?_
    cases source <;> exact reclaims
  have intake := State.intake_of_started (source := source) parsed admitted unknown free
    (State.takeEntry_of_reclaimed (by simpa using used) chosen)
  rw [State.reclaimed_taken inTable several] at intake
  obtain ⟨t, ran, after, -⟩ := exec_arrival_after meet
  rw [intake] at after
  have table := State.entry_congr (after .table (by decide))
  have frame := State.reclaimed_frame s source f slot v rest
  have store : (s.reclaimed source f slot v rest).store = s.store.set slot f.payload := by
    change Memory.write (State.store (State.freeEntry _ v false)) slot f.payload = _
    rw [Memory.write_of_short short, State.freeEntry_frame _ _ _ .store (by decide)]
    exact congrArg (List.set · slot f.payload) (s.arrived_store source)
  have freed : (s.reclaimed source f slot v rest).free = rest ++ (s.entry v).slots := by
    rw [← s.arrived_entry source v]
    exact State.freeEntry_free ((s.arrived source).withFree rest) v false
  have notices : (s.reclaimed source f slot v rest).pu.notices = s.pu.notices := by
    refine (State.freeEntry_notices ((s.arrived source).withFree rest) v false).trans ?_
    cases source <;> rfl
  refine ⟨t, ran, (table v).trans (State.reclaimed_entry_self inTable), fun j other => (table j).trans ?_,
    (after .free (by decide)).trans freed, (after .store (by decide)).trans store,
    (congrArg _ (after .pu (by decide))).trans notices, (after .flags (by decide)).trans (frame .flags (by decide))⟩
  rw [State.reclaimed, State.took_entry_ne other, State.reused_entry_ne other]
  exact s.arrived_entry source j

end Starts

end Sys2Proof.Machine

/-! An OFFER heard (01 R29; 05 R94 to R97): a WANT for every index, the settling of an OFFER beyond every complete
entry, and the entry that it takes. -/

namespace Sys2Proof.Machine

/-! ### A WANT for every index (05 R96, R97) -/

theorem getD_of_slots_nil {map : List (Option Nat)} (none' : map.filterMap id = []) (k : Nat) : map.getD k none = none := by
  rw [List.getD_eq_getElem?_getD]
  cases place : map[k]? with
  | none => rfl
  | some x => simpa using List.filterMap_eq_nil_iff.mp none' x (List.mem_of_getElem? place)

/-- With no slot in the map every index of the total is missing. -/
theorem Entry.missing_of_slots_nil {e : Entry} (empty : e.slots = []) (few : e.total ≤ 16) :
    e.missing = BitVec.ofNat 16 (2 ^ e.total - 1) := by
  rw [← Entry.missing_of_emptyMap (e := { e with map := emptyMap }) rfl few]
  refine BitVec.eq_of_getLsbD_eq fun k _ => Bool.eq_iff_iff.mpr ?_
  rw [Entry.missing_getLsbD, Entry.missing_getLsbD, getD_of_slots_nil empty]
  simp only [emptyMap_getD]

theorem State.setEntry_entry (s : State) (i : Nat) : s.setEntry i (s.entry i) = s := by
  have same : s.table.set i (s.entry i) = s.table := by
    by_cases inTable : i < s.table.length
    · rw [State.entry, List.getD_eq_getElem?_getD, List.getElem?_eq_getElem inTable]
      exact List.set_getElem_self inTable
    · exact List.set_eq_of_length_le (Nat.le_of_not_lt inTable)
  rw [State.setEntry, same]
  rfl

section Ask
variable {s : State} {i : Nat} {issue : Issue}

theorem State.requestWant_of_issue (issued : (s.entry i).issue = some issue) :
    s.requestWant i = s.request (.want issue (s.entry i).missing) := by
  simp only [State.requestWant, issued]

/-- Where the want record has just started, the asking is one request. -/
theorem State.askForAll_eq (issued : (s.entry i).issue = some issue) (empty : (s.entry i).slots = [])
    (few : (s.entry i).total ≤ 16) (want : (s.entry i).want = some ⟨s.gapEnd, none⟩) :
    s.askForAll i = s.request (.want issue (BitVec.ofNat 16 (2 ^ (s.entry i).total - 1))) := by
  have same : { s.entry i with want := some ⟨s.gapEnd, none⟩ } = s.entry i := by rw [← want]
  rw [State.askForAll, State.requestWant_of_issue issued, Entry.missing_of_slots_nil empty few, State.startWant,
    State.modEntry, State.gapEnd, State.request_now, State.request_settings, State.request_entry]
  change State.setEntry _ i { s.entry i with want := some ⟨s.gapEnd, none⟩ } = _
  rw [same, State.request_setEntry, State.setEntry_entry]

end Ask

/-! ### The OFFER heard (05 R94, R95) -/

section Heard
variable {s : State} {sender : Word32} {issue : Issue} {total : Nat} {category : Category}

theorem exec_offer (hears : s.Hears .offer sender (Payload.offer issue total category).body)
    (origin : issue.key.origin ≠ 0) (least : 1 ≤ total) (most : total ≤ 16) :
    exec (.offer sender (Payload.offer issue total category).body) s = .next (s.settleOffer issue total category) := by
  rw [exec_relayFrame rfl, State.hearFrame_of_hears hears]
  simp only [State.deliver, State.hearOffer, parseOffer_body origin category least most]

theorem State.tombstoneOf_eq_none {key : Key}
    (none' : ∀ e ∈ s.table, e.isTombstone = true → e.ofKey key = false) : s.tombstoneOf key = none :=
  List.findIdx?_eq_none_iff.mpr fun e held => by
    cases tombstone : e.isTombstone with
    | false => rfl
    | true => simp [none' e held tombstone]

/-- The complete entry that an OFFER meets. -/
theorem State.completeOf_some {key : Key} {i : Nat} (found : s.completeOf key = some i) :
    i < s.table.length ∧ (s.entry i).isComplete = true ∧ (s.entry i).ofKey key = true := by
  obtain ⟨inTable, l, ranked, -⟩ := State.leastEntry_some found
  by_cases both : ((s.entry i).isComplete && (s.entry i).ofKey key) = true
  · exact ⟨inTable, Bool.and_eq_true_iff.mp both⟩
  · rw [if_neg both] at ranked
    cases ranked

/-- An OFFER beyond every complete entry of its key. -/
theorem State.settleOffer_of_beyond (beyond : ∀ e ∈ s.table, e.isComplete = true → e.ofKey issue.key = true →
    e.isTombstone = false ∧ e.revision < issue.revision.toNat) :
    s.settleOffer issue total category = s.offerBeyond issue total category := by
  have noTombstone : s.tombstoneOf issue.key = none := by
    refine State.tombstoneOf_eq_none fun e held tombstone => Bool.eq_false_iff.mpr fun own => ?_
    have living := (beyond e held (Entry.isComplete_of_isTombstone tombstone) own).1
    rw [tombstone] at living
    cases living
  unfold State.settleOffer
  rw [noTombstone]
  cases found : s.completeOf issue.key with
  | none => rfl
  | some i =>
    obtain ⟨inTable, complete, own⟩ := State.completeOf_some found
    have lower := (beyond _ (s.mem_table_entry inTable) complete own).2
    simp only [Nat.not_lt_of_gt lower, Nat.ne_of_gt lower, if_false]

theorem State.offerBeyond_of_new (absent : s.assemblingOf issue.key = none) :
    s.offerBeyond issue total category = s.offerNew issue total category := by
  simp only [State.offerBeyond, absent]

theorem State.offerNew_of_taken {i : Nat} {t : State} (taken : s.takeEntry issue total category true = some (i, t)) :
    s.offerNew issue total category = t.askForAll i := by
  simp only [State.offerNew, taken]

theorem State.offerNew_of_none (none' : s.takeEntry issue total category true = none) :
    s.offerNew issue total category = s := by
  simp only [State.offerNew, none']

end Heard

/-! ### The husk that an OFFER reclaims (01 R29, 05 R107) -/

section Husk
variable {s : State} {key : Key}

theorem State.huskChoice_of_none (none' : ∀ i, ¬ s.standingHusk i) : s.huskChoice key true = none := by
  cases found : s.huskChoice key true with
  | none => rfl
  | some i => exact absurd (State.huskChoice_offer found) (none' i)

theorem State.huskChoice_of_reclaims {v : Nat} (other : (s.entry v).ofKey key = false) (reclaims : s.reclaimsForOffer v) :
    s.huskChoice key true = some v := by
  obtain ⟨⟨inTable, husk, standing⟩, first⟩ := reclaims
  have stays : ¬ (s.entry v).huskEnd s.settings.huskHold ≤ s.uptime := Nat.not_le_of_lt standing
  refine State.leastEntry_of_first (l := ((s.entry v).closureTime.getD 0, 0)) inTable
    (by simp [stays, Entry.huskRank, husk, other]) fun j l within ranked => ?_
  by_cases ended : (s.entry j).huskEnd s.settings.huskHold ≤ s.uptime
  · simp [ended] at ranked
  · by_cases husk' : ((s.entry j).isHusk && !(s.entry j).ofKey key) = true
    · simp only [Bool.true_and, decide_eq_true_eq, ended, if_false, Entry.huskRank, husk', if_true,
        Option.some.injEq] at ranked
      subst ranked
      have order := first j ⟨within, (Bool.and_eq_true_iff.mp husk').1, Nat.lt_of_not_le ended⟩
      simp only [rankLess_iff, Prod.mk.injEq, and_true]
      omega
    · simp [ended, Entry.huskRank, husk'] at ranked

end Husk

end Sys2Proof.Machine

/-! An OFFER of a key that no entry has: an entry is taken for it, FREE or a husk (05 R96); the statement about the start
of entries. -/

namespace Sys2Proof.Machine

section Offered
variable {s : State} {sender : Word32} {issue : Issue} {total : Nat} {category : Category}

/-- An entry taken for an OFFER asks for every index. -/
theorem State.askForAll_of_used {t : State} {i : Nat} {generation : Byte} (few : total ≤ 16)
    (used : s.entry i = t.usedEntry generation issue total category true) (standing : s.standing = t.standing)
    (settings : s.settings = t.settings) :
    s.askForAll i = s.request (.want issue (BitVec.ofNat 16 (2 ^ total - 1))) := by
  have now : s.now = t.now := (State.standing_parts standing).1.1
  have asked := State.askForAll_eq (s := s) (i := i) (issue := issue) (by rw [used]; rfl) (by rw [used]; rfl)
    (by rw [used]; exact few) (by rw [used, State.gapEnd, now, settings]; rfl)
  rw [asked, used]
  rfl

/-- The lowest FREE entry is taken for an OFFER. -/
theorem State.offerNew_of_free {i : Nat} (few : total ≤ 16) (inTable : i < s.table.length)
    (free : (s.entry i).state = .free) (before : ∀ j, j < i → (s.entry j).state ≠ .free) :
    s.offerNew issue total category
      = (s.setEntry i (s.usedEntry (s.entry i).generation issue total category true)).request
          (.want issue (BitVec.ofNat 16 (2 ^ total - 1))) := by
  rw [State.offerNew_of_taken (State.takeEntry_of_free inTable free before)]
  exact State.askForAll_of_used few (State.entry_setEntry inTable _) rfl rfl

variable (hears : s.Hears .offer sender (Payload.offer issue total category).body) (origin : issue.key.origin ≠ 0)
  (least : 1 ≤ total) (most : total ≤ 16) (stands : ∀ e ∈ s.table, e.state ≠ .free ∧ e.ofKey issue.key = false)
include hears origin least most stands

theorem exec_offer_of_unknown : exec (.offer sender (Payload.offer issue total category).body) s
    = .next (s.offerNew issue total category) := by
  have absent : s.assemblingOf issue.key = none :=
    List.findIdx?_eq_none_iff.mpr fun e held => by simp [(stands e held).2]
  have beyond : ∀ e ∈ s.table, e.isComplete = true → e.ofKey issue.key = true →
      e.isTombstone = false ∧ e.revision < issue.revision.toNat := fun e held _ own =>
    absurd own (by simp [(stands e held).2])
  rw [exec_offer hears origin least most, State.settleOffer_of_beyond beyond, State.offerBeyond_of_new absent]

/-- With no husk whose hold lasts, the OFFER ends. -/
theorem exec_offer_of_no_husk (noHusk : ∀ i, ¬ s.standingHusk i) :
    exec (.offer sender (Payload.offer issue total category).body) s = .next s := by
  have choice : s.reclaimChoice issue.key category true = none := by
    simp [State.reclaimChoice, State.huskChoice_of_none noHusk]
  rw [exec_offer_of_unknown hears origin least most stands,
    State.offerNew_of_none (State.takeEntry_eq_none (fun e held => (stands e held).1) choice)]

/-- The husk that is reclaimed for the OFFER. -/
theorem exec_offer_reclaims {v : Nat} (reclaims : s.reclaimsForOffer v) :
    ∃ t, exec (.offer sender (Payload.offer issue total category).body) s = .next t
      ∧ t.entry v = s.usedEntry (s.entry v).generation issue total category true
      ∧ (∀ j, j ≠ v → t.entry j = s.entry j) ∧ t.pu.notices = s.pu.notices ∧ t.flags = s.flags := by
  have ⟨⟨inTable, _⟩, _⟩ := reclaims
  have choice : s.reclaimChoice issue.key category true = some v := by
    simp [State.reclaimChoice, State.huskChoice_of_reclaims (stands _ (s.mem_table_entry inTable)).2 reclaims]
  have taken := State.takeEntry_of_reclaimed (total := total) (fun e held => (stands e held).1) choice
  have self := State.reused_entry_self (issue := issue) (total := total) (category := category) (forOffer := true) inTable
  have asked := State.askForAll_of_used most self (by simp) (s.freeEntry_frame v false .settings (by decide))
  have flags := (State.request_frame ((s.freeEntry v false).useEntry v issue total category true)
    (.want issue (BitVec.ofNat 16 (2 ^ total - 1))) .flags (by decide)).trans
      (s.freeEntry_frame v false .flags (by decide))
  have pu := State.request_frame ((s.freeEntry v false).useEntry v issue total category true)
    (.want issue (BitVec.ofNat 16 (2 ^ total - 1))) .pu (by decide)
  refine ⟨_, (exec_offer_of_unknown hears origin least most stands).trans
    (congrArg _ ((State.offerNew_of_taken taken).trans asked)), ?_, fun j other => ?_,
    (congrArg Presentation.notices pu :).trans (s.freeEntry_notices v false), flags⟩
  · rw [State.request_entry, self]
  · rw [State.request_entry, State.reused_entry_ne other]

end Offered

/-- Settles O17: the FREE entry, the reclaimed entry, and the entry taken for an OFFER, each by its lemma. -/
theorem fragmentStartsEntry : Obligations.FragmentStartsEntry := by
  unfold Obligations.FragmentStartsEntry
  refine ⟨fun s source sender record f slot i rest meet parsed admitted unknown free inTable state before => ⟨?_, ?_⟩,
    fun s source sender record f slot v rest meet parsed admitted unknown free used reclaims several => ?_,
    fun s sender issue total category hears origin least most stands => ⟨?_, fun v reclaims => ?_⟩⟩
  · exact exec_arrival_begins parsed admitted unknown free inTable meet state before
  · exact exec_arrival_starts parsed admitted unknown free inTable meet state before
  · exact exec_arrival_reclaims parsed admitted unknown free meet used reclaims several
  · exact exec_offer_of_no_husk hears origin least most stands
  · exact exec_offer_reclaims hears origin least most stands reclaims

end Sys2Proof.Machine

/-! An OFFER settled against the table (05 R95 to R97). -/

namespace Sys2Proof.Machine

/-! ### The key's one complete entry (05 R95) -/

theorem State.inTable_of_complete {s : State} {i : Nat} (complete : (s.entry i).isComplete = true) :
    i < s.table.length := by
  by_contra outside
  rw [s.entry_of_length_le (Nat.le_of_not_lt outside)] at complete
  cases complete

section Complete
variable {s : State} {issue : Issue} {total i : Nat} {category : Category}

theorem State.findEntry_of_only {p : Entry → Bool} (inTable : i < s.table.length) (holds : p (s.entry i) = true)
    (only : ∀ j, p (s.entry j) = true → j = i) : s.findEntry p = some i := by
  cases found : s.findEntry p with
  | none =>
    have absent := List.findIdx?_eq_none_iff.mp found _ (s.mem_table_entry inTable)
    rw [holds] at absent
    cases absent
  | some j => exact congrArg some (only j (State.findEntry_some found))

variable (complete : (s.entry i).isComplete = true) (own : (s.entry i).ofKey issue.key = true)
  (only : ∀ j, (s.entry j).isComplete = true → (s.entry j).ofKey issue.key = true → j = i)
include complete own only

theorem State.completeOf_of_only : s.completeOf issue.key = some i := by
  have inTable : i < s.table.length := State.inTable_of_complete complete
  refine State.leastEntry_of_first (l := (15 - (s.entry i).revision, 0)) inTable (by simp [complete, own])
    fun j l within ranked => ?_
  by_cases both : ((s.entry j).isComplete && (s.entry j).ofKey issue.key) = true
  · obtain ⟨complete', own'⟩ := Bool.and_eq_true_iff.mp both
    obtain rfl := only j complete' own'
    rw [if_pos both] at ranked
    cases ranked
    exact .inr ⟨rfl, Nat.le_refl _⟩
  · rw [if_neg both] at ranked
    cases ranked

/-- Where the key's complete entry is a tombstone it settles the OFFER as such. -/
theorem State.tombstoneOf_of_only :
    s.tombstoneOf issue.key = if (s.entry i).isTombstone then some i else none := by
  have inTable : i < s.table.length := State.inTable_of_complete complete
  split
  · next tombstone =>
    refine State.findEntry_of_only inTable (by simp [tombstone, own]) fun j both => ?_
    obtain ⟨tombstone', own'⟩ := Bool.and_eq_true_iff.mp both
    exact only j (Entry.isComplete_of_isTombstone tombstone') own'
  · next living =>
    cases found : s.tombstoneOf issue.key with
    | none => rfl
    | some j =>
      obtain ⟨tombstone', own'⟩ := Bool.and_eq_true_iff.mp (State.findEntry_some found)
      obtain rfl := only j (Entry.isComplete_of_isTombstone tombstone') own'
      exact absurd tombstone' living

/-- Below the entry's revision its offer record is reset. -/
theorem State.settleOffer_of_lower (lower : issue.revision.toNat < (s.entry i).revision) :
    s.settleOffer issue total category = s.resetOffer i := by
  unfold State.settleOffer
  rw [State.tombstoneOf_of_only complete own only, State.completeOf_of_only complete own only]
  split <;> simp_all

/-- At the entry's revision its offer record counts one more. -/
theorem State.settleOffer_of_same (same : issue.revision.toNat = (s.entry i).revision) :
    s.settleOffer issue total category = s.heardOffer i := by
  unfold State.settleOffer
  rw [State.tombstoneOf_of_only complete own only, State.completeOf_of_only complete own only]
  split <;> simp_all

/-- Above a tombstone's revision nothing is done. -/
theorem State.settleOffer_of_cancelled (tombstone : (s.entry i).isTombstone = true)
    (higher : (s.entry i).revision < issue.revision.toNat) : s.settleOffer issue total category = s := by
  unfold State.settleOffer
  rw [State.tombstoneOf_of_only complete own only, if_pos tombstone]
  simp only [Nat.not_lt_of_gt higher, Nat.ne_of_gt higher, if_false]

end Complete

section Record
variable {s : State} {i : Nat}

theorem State.resetOffer_of_none (noOffer : (s.entry i).offer = none) : s.resetOffer i = s := by
  simp only [State.resetOffer, noOffer]

theorem State.resetOffer_of_some {r : OfferRecord} (offer : (s.entry i).offer = some r) : s.resetOffer i
    = s.drew.setEntry i { s.entry i with offer := some (s.freshOffer s.settings.offerMin) } := by
  simp only [State.resetOffer, offer, State.startOffer, State.beginInterval_eq]

theorem State.heardOffer_of_none (noOffer : (s.entry i).offer = none) : s.heardOffer i = s := by
  have same : { s.entry i with offer := (s.entry i).offer.map fun r =>
      { r with heard := if r.heard < 255 then r.heard + 1 else 255 } } = s.entry i := by
    rw [noOffer, Option.map_none, ← noOffer]
  rw [State.heardOffer, State.modEntry, same, State.setEntry_entry]

theorem State.heardOffer_of_some {r : OfferRecord} (offer : (s.entry i).offer = some r) : s.heardOffer i
    = s.setEntry i { s.entry i with offer := some { r with heard := min 255 (r.heard + 1) } } := by
  have count : (if r.heard < 255 then r.heard + 1 else 255) = min 255 (r.heard + 1) := by
    split <;> omega
  simp only [State.heardOffer, State.modEntry, offer, Option.map_some, count]

end Record

/-! ### The key's ASSEMBLING entry (05 R96, R97) -/

section Assembling
variable {s : State} {issue : Issue} {total i : Nat} {category : Category}

theorem State.offerBeyond_of_assembling (found : s.assemblingOf issue.key = some i) :
    s.offerBeyond issue total category = s.offerAssembling i issue total category := by
  simp only [State.offerBeyond, found]

theorem State.offerAssembling_of_lower (lower : issue.revision.toNat < (s.entry i).revision) :
    s.offerAssembling i issue total category = s := if_pos lower

theorem State.offerAssembling_of_same (issued : (s.entry i).issue = some issue) :
    s.offerAssembling i issue total category
      = if s.heldOff i then s else s.request (.want issue (s.entry i).missing) := by
  rw [State.offerAssembling, Entry.revision_of_issue issued, if_neg (Nat.lt_irrefl _), if_pos rfl,
    State.requestWant_of_issue issued]

theorem State.offerAssembling_of_higher (higher : (s.entry i).revision < issue.revision.toNat) :
    s.offerAssembling i issue total category = (s.retarget i issue total category true).askForAll i := by
  rw [State.offerAssembling, if_neg (Nat.not_lt_of_gt higher), if_neg (Nat.ne_of_gt higher)]

theorem State.heldOff_of_recent {w : WantRecord} {sent : Nat} (want : (s.entry i).want = some w)
    (last : w.lastSent = some sent) (recent : s.now < sent + s.settings.gapFillDelay * 1000) : s.heldOff i = true := by
  simp only [State.heldOff, want, last, decide_eq_true_eq]
  exact recent

theorem State.heldOff_of_past (past : ∀ w sent, (s.entry i).want = some w → w.lastSent = some sent →
    sent + s.settings.gapFillDelay * 1000 ≤ s.now) : s.heldOff i = false := by
  unfold State.heldOff
  split
  · next w want =>
    split
    · next sent last => exact decide_eq_false (Nat.not_lt_of_ge (past w sent want last))
    · rfl
  · rfl

/-- The retargeted entry asks for every index. -/
theorem State.retarget_askForAll (inTable : i < s.table.length) (few : total ≤ 16) :
    (s.retarget i issue total category true).askForAll i
      = ((s.releaseBody i).request (.want issue (BitVec.ofNat 16 (2 ^ total - 1)))).setEntry i
          (s.retargetedEntry i issue total category true) := by
  have self : (s.retarget i issue total category true).entry i = s.retargetedEntry i issue total category true :=
    State.retarget_entry_self inTable _ _ _ _
  have settings : (s.retarget i issue total category true).settings = s.settings :=
    s.retarget_frame i issue total category true .settings (by decide)
  have now : (s.retarget i issue total category true).now = s.now :=
    (State.standing_parts (s.retarget_standing i issue total category true)).1.1
  have asked := State.askForAll_eq (s := s.retarget i issue total category true) (i := i) (issue := issue)
    (by rw [self]; rfl) (by rw [self]; exact (s.entry i).released_slots) (by rw [self]; exact few)
    (by rw [self, State.gapEnd, settings, now]; rfl)
  rw [asked, self, State.request_setEntry, State.retarget_eq, State.modEntry, State.releaseBody_entry_self]
  rfl

end Assembling

/-- An OFFER above the ASSEMBLING entry's revision retargets it. -/
theorem State.offerRetargets {s : State} {issue : Issue} {total i : Nat} {category : Category}
    (found : s.assemblingOf issue.key = some i) (few : total ≤ 16)
    (higher : (s.entry i).revision < issue.revision.toNat) : s.offerBeyond issue total category
      = ((s.releaseBody i).request (.want issue (BitVec.ofNat 16 (2 ^ total - 1)))).setEntry i
          (s.retargetedEntry i issue total category true) := by
  rw [State.offerBeyond_of_assembling found, State.offerAssembling_of_higher higher,
    State.retarget_askForAll (State.findEntry_inTable found) few]

/-- Settles O38: the row of the settling that applies, by its lemma. -/
theorem offerIsSettled : Obligations.OfferIsSettled := by
  unfold Obligations.OfferIsSettled
  refine ⟨fun s sender issue total i category hears origin least most complete own only long => ?_,
    fun s sender issue total category hears origin least most beyond => ⟨fun i found => ?_, ?_⟩,
    Entry.missing_getLsbD⟩
  · have ran := exec_offer hears origin least most
    refine ⟨fun notAbove noOffer => ?_, fun higher tombstone => ?_, fun r issued offer => ?_, fun r lower offer => ?_⟩
    · refine ran.trans (congrArg _ ?_)
      obtain lower | same := Nat.lt_or_eq_of_le notAbove
      · rw [State.settleOffer_of_lower complete own only lower, State.resetOffer_of_none noOffer]
      · rw [State.settleOffer_of_same complete own only same, State.heardOffer_of_none noOffer]
    · exact ran.trans (congrArg _ (State.settleOffer_of_cancelled complete own only tombstone higher))
    · exact ran.trans (congrArg _ ((State.settleOffer_of_same complete own only
        (Entry.revision_of_issue issued).symm).trans (State.heardOffer_of_some offer)))
    · have reset := (State.settleOffer_of_lower (total := total) (category := category) complete own only lower).trans
        (State.resetOffer_of_some offer)
      obtain ⟨second, ends⟩ := s.freshOffer_point long
      refine ⟨_, s.freshOffer s.settings.offerMin, ran.trans (congrArg _ reset), rfl, ?_, rfl, rfl, second, ends, rfl, rfl⟩
      simp
  · have ran : exec (.offer sender (Payload.offer issue total category).body) s
        = .next (s.offerBeyond issue total category) :=
      (exec_offer hears origin least most).trans (congrArg _ (State.settleOffer_of_beyond beyond))
    have inTable : i < s.table.length := State.findEntry_inTable found
    have assembling : (s.entry i).state = .assembling :=
      beq_iff_eq.mp (Bool.and_eq_true_iff.mp (State.findEntry_some found)).1
    refine ⟨fun lower => ?_, fun w sent issued want last recent => ?_, fun issued past => ?_, fun higher => ?_⟩
    · rw [ran, State.offerBeyond_of_assembling found, State.offerAssembling_of_lower lower]
    · rw [ran, State.offerBeyond_of_assembling found, State.offerAssembling_of_same issued,
        if_pos (State.heldOff_of_recent want last recent)]
    · rw [ran, State.offerBeyond_of_assembling found, State.offerAssembling_of_same issued,
        State.heldOff_of_past past, if_neg Bool.false_ne_true]
    · refine ⟨_, ran.trans (congrArg _ (State.offerRetargets found most higher)), ?_⟩
      have inTable' : i < ((s.releaseBody i).request (.want issue (BitVec.ofNat 16 (2 ^ total - 1)))).table.length := by
        rw [State.request_table, State.releaseBody_table, List.length_set]
        exact inTable
      rw [State.entry_setEntry inTable']
      refine ⟨rfl, (s.entry i).released_state.trans assembling, (s.entry i).released_generation, rfl, rfl, rfl, rfl, rfl,
        rfl, rfl, rfl, rfl, rfl, rfl, rfl, (s.entry i).released_slots, ?_, rfl, ⟨rfl, rfl⟩, fun j other => ?_⟩
      · exact (State.request_frame _ _ .free (by decide)).trans (s.releaseBody_free i)
      · rw [State.entry_setEntry_ne _ other, State.request_entry, s.releaseBody_entry_ne other]
  · intro i absent inTable free before
    refine (exec_offer hears origin least most).trans (congrArg _ ?_)
    rw [State.settleOffer_of_beyond beyond, State.offerBeyond_of_new absent]
    exact State.offerNew_of_free most inTable free before

end Sys2Proof.Machine

/-! A WANT settled against the table (05 R99, R100). -/

namespace Sys2Proof.Machine

/-! ### The supply (02 R47; 05 R100) -/

/-- The record that an entry with a store supplies for an index. -/
def Entry.suppliedRecord (e : Entry) (store : Memory) (issue : Issue) (kind : Kind) (k : Nat) : List Byte :=
  Fragment.bytes
    { issue := issue, index := k, total := e.total, kind := kind, category := e.category.getD .test
      issueTime := e.issueTime.getD 0, duration := e.duration.getD 0
      bodyCheck := if k = 0 then e.bodyCheck.getD 0 else 0, areas := if k = 0 then e.areas else []
      payload := store.read ((e.map.getD k none).getD 0) }

section Supply
variable {s : State} {issue : Issue} {kind : Kind} {i k : Nat} {e : Entry} {store : Memory}

theorem State.supplyIndex_eq (own : (s.entry i).issue = some issue) (kinded : (s.entry i).kind = some kind)
    (held : (s.entry i).holdsIndex k = true) :
    s.supplyIndex i issue k = s.request (.piece issue k ((s.entry i).suppliedRecord s.store issue kind k)) := by
  obtain ⟨slot, place⟩ := Option.isSome_iff_exists.mp (Bool.and_eq_true_iff.mp held).2
  simp only [State.supplyIndex, State.buildRecord, place, own, kinded, Entry.suppliedRecord, Option.getD_some]

/-- The requests leave the entry and the store as they are, so each is what it would be alone. -/
theorem State.supply_foldl (own : e.issue = some issue) (kinded : e.kind = some kind) (ks : List Nat)
    (held : ∀ k ∈ ks, e.holdsIndex k = true) (entry : s.entry i = e) (stored : s.store = store) :
    ks.foldl (fun s k => s.supplyIndex i issue k) s
      = ks.foldl (fun s k => s.request (.piece issue k (e.suppliedRecord store issue kind k))) s := by
  induction ks generalizing s with
  | nil => rfl
  | cons k ks ih =>
    have step : s.supplyIndex i issue k = s.request (.piece issue k (e.suppliedRecord store issue kind k)) := by
      subst entry stored
      exact State.supplyIndex_eq own kinded (held k List.mem_cons_self)
    rw [List.foldl_cons, List.foldl_cons, step]
    exact ih (fun k mem => held k (List.mem_cons_of_mem _ mem)) ((s.request_entry _ i).trans entry)
      ((s.request_frame _ .store (by decide)).trans stored)

theorem Entry.wantedHeld_holds (e : Entry) (wanted : Word16) (k : Nat) (mem : k ∈ e.wantedHeld wanted) :
    e.holdsIndex k = true :=
  (Bool.and_eq_true_iff.mp (List.mem_filter.mp mem).2).2

end Supply

/-! ### The entries that a WANT meets (05 R99) -/

/-- The entry's offer record is reset by a WANT of the issuance. -/
def Entry.resetBy (issue : Issue) (e : Entry) : Bool :=
  e.isComplete && e.ofKey issue.key && issue.revision.toNat ≤ e.revision && e.offer.isSome

section Met
variable {s : State} {issue : Issue} {wanted : Word16} {i : Nat}

theorem Entry.resetBy_iff {e : Entry} : e.resetBy issue = true ↔ (e.isComplete = true ∧ e.ofKey issue.key = true)
    ∧ issue.revision.toNat ≤ e.revision ∧ ∃ r, e.offer = some r := by
  simp [Entry.resetBy, Option.isSome_iff_exists, and_assoc]

theorem Entry.ofIssue_iff {e : Entry} :
    e.ofIssue issue = true ↔ e.issue = some issue ∧ e.ofKey issue.key = true := by
  unfold Entry.ofIssue Entry.ofKey
  constructor
  · intro holds
    obtain ⟨used, own⟩ := Bool.and_eq_true_iff.mp holds
    have own : e.issue = some issue := beq_iff_eq.mp own
    simp [own, used]
  · rintro ⟨own, used⟩
    simp only [own, beq_self_eq_true, Bool.and_true] at used ⊢
    exact used

theorem State.settleWant_of_reset {j : Nat} (found : s.findEntry (Entry.resetBy issue) = some j)
    (unsupplied : (s.resetOffer j).findEntry (fun e => e.ofIssue issue) = none) :
    s.settleWant issue wanted = s.resetOffer j := by
  unfold Entry.resetBy at found
  simp only [State.settleWant, found, unsupplied]

theorem State.settleWant_of_unmet (noReset : s.findEntry (Entry.resetBy issue) = none)
    (unsupplied : s.findEntry (fun e => e.ofIssue issue) = none) : s.settleWant issue wanted = s := by
  unfold Entry.resetBy at noReset
  simp only [State.settleWant, noReset, unsupplied]

theorem State.settleWant_of_supplied (noReset : s.findEntry (Entry.resetBy issue) = none)
    (supplied : s.findEntry (fun e => e.ofIssue issue) = some i) : s.settleWant issue wanted
      = ((s.entry i).wantedHeld wanted).foldl (fun s k => s.supplyIndex i issue k) s := by
  unfold Entry.resetBy at noReset
  simp only [State.settleWant, noReset, supplied]

theorem State.settleWant_of_both {j : Nat} (found : s.findEntry (Entry.resetBy issue) = some j)
    (supplied : (s.resetOffer j).findEntry (fun e => e.ofIssue issue) = some i) : s.settleWant issue wanted
      = (((s.resetOffer j).entry i).wantedHeld wanted).foldl (fun s k => s.supplyIndex i issue k) (s.resetOffer j) := by
  unfold Entry.resetBy at found
  simp only [State.settleWant, found, supplied]

theorem exec_want {sender : Word32} (hears : s.Hears .want sender (Payload.want issue wanted).body)
    (origin : issue.key.origin ≠ 0) (some' : wanted ≠ 0) :
    exec (.want sender (Payload.want issue wanted).body) s = .next (s.settleWant issue wanted) := by
  rw [exec_relayFrame rfl, State.hearFrame_of_hears hears]
  simp only [State.deliver, State.hearWant, parseWant_body origin some']

end Met

/-! ### The one entry that is not below the revision (05 R99) -/

/-- Every other entry of the key is below the issuance's revision, or an ASSEMBLING successor of a higher one. -/
def State.standsApart (s : State) (issue : Issue) (i : Nat) : Prop :=
  ∀ j, (s.entry j).ofKey issue.key = true → (s.entry j).revision < issue.revision.toNat ∨ j = i
    ∨ ((s.entry j).isComplete = false ∧ issue.revision.toNat < (s.entry j).revision)

section Apart
variable {s : State} {issue : Issue} {wanted : Word16} {i : Nat} (apart : s.standsApart issue i)
include apart

theorem State.standsApart.reset {j : Nat} (reset : (s.entry j).resetBy issue = true) : j = i := by
  obtain ⟨⟨complete, own⟩, notBelow, -⟩ := Entry.resetBy_iff.mp reset
  obtain below | same | ⟨partial', -⟩ := apart j own
  · omega
  · exact same
  · rw [complete] at partial'
    cases partial'

theorem State.standsApart.supplies {j : Nat} (supplies : (s.entry j).ofIssue issue = true) : j = i := by
  obtain ⟨issued, own⟩ := Entry.ofIssue_iff.mp supplies
  have revision := Entry.revision_of_issue issued
  obtain below | same | ⟨-, above⟩ := apart j own
  · omega
  · exact same
  · omega

theorem State.standsApart.noReset (quiet : (s.entry i).isComplete = false ∨ (s.entry i).offer = none) :
    s.findEntry (Entry.resetBy issue) = none := by
  cases found : s.findEntry (Entry.resetBy issue) with
  | none => rfl
  | some j =>
    have holds := State.findEntry_some found
    obtain rfl := apart.reset holds
    obtain ⟨⟨complete, -⟩, -, r, offer⟩ := Entry.resetBy_iff.mp holds
    rw [complete, offer] at quiet
    obtain absurd' | absurd' := quiet <;> cases absurd'

theorem State.standsApart.noSupply (above : issue.revision.toNat < (s.entry i).revision) :
    s.findEntry (fun e => e.ofIssue issue) = none := by
  cases found : s.findEntry (fun e => e.ofIssue issue) with
  | none => rfl
  | some j =>
    have holds := State.findEntry_some found
    obtain rfl := apart.supplies holds
    have revision := Entry.revision_of_issue (Entry.ofIssue_iff.mp holds).1
    omega

theorem State.standsApart.resets (complete : (s.entry i).isComplete = true) (own : (s.entry i).ofKey issue.key = true)
    (notBelow : issue.revision.toNat ≤ (s.entry i).revision) {r : OfferRecord} (offer : (s.entry i).offer = some r) :
    s.findEntry (Entry.resetBy issue) = some i :=
  State.findEntry_of_only (State.inTable_of_complete complete)
    (Entry.resetBy_iff.mpr ⟨⟨complete, own⟩, notBelow, r, offer⟩) fun _ reset => apart.reset reset

theorem State.standsApart.supplied (inTable : i < s.table.length) (supplies : (s.entry i).ofIssue issue = true) :
    s.findEntry (fun e => e.ofIssue issue) = some i :=
  State.findEntry_of_only inTable supplies fun _ supplies' => apart.supplies supplies'

omit apart in
/-- A reset moves no entry between the issuances. -/
theorem State.resetOffer_findIssue (s : State) (i : Nat) : (s.resetOffer i).findEntry (fun e => e.ofIssue issue)
    = s.findEntry (fun e => e.ofIssue issue) := by
  cases offer : (s.entry i).offer with
  | none => rw [State.resetOffer_of_none offer]
  | some r =>
    rw [State.resetOffer_of_some offer]
    exact State.findEntry_of_table_set (s := s) (t := s.drew.setEntry i _) rfl rfl

end Apart

theorem State.inTable_of_issue {s : State} {i : Nat} {issue : Issue} (issued : (s.entry i).issue = some issue) :
    i < s.table.length := by
  by_contra outside
  rw [s.entry_of_length_le (Nat.le_of_not_lt outside)] at issued
  cases issued

/-- Settles O39: below, above and at the revision of the entry that is not below it. -/
theorem wantIsSupplied : Obligations.WantIsSupplied := by
  unfold Obligations.WantIsSupplied
  intro s sender issue wanted hears origin some' apart run
  have ran : run = .next (s.settleWant issue wanted) := exec_want hears origin some'
  refine ⟨fun below => ?_, fun i own above others => ⟨fun quiet => ?_, fun r complete offer long => ?_⟩,
    fun i kind supplies others kinded few => ?_⟩
  · refine ran.trans (congrArg _ (State.settleWant_of_unmet ?_ ?_))
    · refine List.findIdx?_eq_none_iff.mpr fun e held => Bool.eq_false_iff.mpr fun reset => ?_
      obtain ⟨⟨-, own⟩, notBelow, -⟩ := Entry.resetBy_iff.mp reset
      exact Nat.not_le_of_gt (below e held own) notBelow
    · refine List.findIdx?_eq_none_iff.mpr fun e held => Bool.eq_false_iff.mpr fun supplies => ?_
      obtain ⟨issued, own⟩ := Entry.ofIssue_iff.mp supplies
      exact Nat.ne_of_lt (below e held own) (Entry.revision_of_issue issued)
  · have others : s.standsApart issue i := others
    exact ran.trans (congrArg _ (State.settleWant_of_unmet (others.noReset quiet) (others.noSupply above)))
  · have others : s.standsApart issue i := others
    have found := others.resets complete own (Nat.le_of_lt above) offer
    have unsupplied := (State.resetOffer_findIssue s i).trans (others.noSupply above)
    obtain ⟨second, ends⟩ := s.freshOffer_point long
    exact ⟨s.freshOffer s.settings.offerMin, ran.trans (congrArg _ ((State.settleWant_of_reset found unsupplied).trans
      (State.resetOffer_of_some offer))), rfl, rfl, second, ends, rfl, rfl⟩
  · have others : s.standsApart issue i := others
    obtain ⟨issued, own⟩ := Entry.ofIssue_iff.mp supplies
    have inTable : i < s.table.length := State.inTable_of_issue issued
    have supplied := others.supplied inTable supplies
    refine ⟨fun quiet => ran.trans (congrArg _ ?_), fun r complete offer long => ?_⟩
    · rw [State.settleWant_of_supplied (others.noReset quiet) supplied]
      exact State.supply_foldl issued kinded _ (Entry.wantedHeld_holds _ wanted) rfl rfl
    · have found := others.resets complete own (Nat.le_of_eq (Entry.revision_of_issue issued).symm) offer
      have supplied' := (State.resetOffer_findIssue s i).trans supplied
      obtain ⟨second, ends⟩ := s.freshOffer_point long
      refine ⟨s.freshOffer s.settings.offerMin, ran.trans (congrArg _ ?_), rfl, rfl, second, ends, rfl, rfl⟩
      rw [State.settleWant_of_both found supplied', State.resetOffer_entry_self offer inTable,
        State.resetOffer_of_some offer]
      exact State.supply_foldl (s := s.drew.setEntry i _) (e := { s.entry i with offer := some _ })
        (store := s.store) issued kinded _ (Entry.wantedHeld_holds _ wanted)
        (State.entry_setEntry (s := s.drew) inTable _) rfl

end Sys2Proof.Machine

/-! The other entries of a key, ended one by one as an issuance completes (01 R8, R14, R24, R26). -/

namespace Sys2Proof.Machine

/-! ### The other entries of a key -/

section Others
variable {s : State} {i j : Nat} {key : Key}

theorem State.inTable_of_ofKey (own : (s.entry j).ofKey key = true) : j < s.table.length := by
  by_contra outside
  rw [s.entry_of_length_le (Nat.le_of_not_lt outside)] at own
  cases own

theorem State.mem_othersOf : j ∈ s.othersOf i key ↔ (s.entry j).ofKey key = true ∧ j ≠ i := by
  rw [State.othersOf, List.mem_filter, State.mem_indexes_iff (p := fun e => e.ofKey key), bne_iff_ne]
  exact and_congr_left fun _ => ⟨And.right, fun own => ⟨State.inTable_of_ofKey own, own⟩⟩

theorem State.othersOf_nodup (s : State) (i : Nat) (key : Key) : (s.othersOf i key).Nodup :=
  (State.indexes_nodup s _).filter _

theorem State.othersOf_of_only (own : (s.entry j).ofKey key = true) (other : j ≠ i)
    (only : ∀ k, k ≠ i → (s.entry k).ofKey key = true → k = j) : s.othersOf i key = [j] :=
  List.eq_singleton_of_nodup (s.othersOf_nodup i key) fun k => by
    rw [State.mem_othersOf]
    exact ⟨fun mem => only k mem.2 mem.1, fun same => same ▸ ⟨own, other⟩⟩

end Others

/-! ### Each of them goes to FREE -/

/-- A held entry of the key gives way to a successor. -/
def State.giveWay (kind : NoticeKind) (successor : Option Nat) (s : State) (j : Nat) : State :=
  (s.postIfHeld j kind successor).freeEntry j true

/-- An entry of the key is cancelled, with its notice. -/
def State.cancelOther (s : State) (j : Nat) : State :=
  (if (s.entry j).cancelNoticed then s.post ⟨.cancelled, s.handle j, none⟩ else s).freeEntry j false

theorem State.supersede_eq (s : State) (i : Nat) (key : Key) (kind : NoticeKind) (successor : Option Nat) :
    s.supersede i key kind successor = (s.othersOf i key).foldl (State.giveWay kind successor) s := rfl

theorem State.cancelOthers_eq (s : State) (i : Nat) (key : Key) :
    s.cancelOthers i key = (s.othersOf i key).foldl State.cancelOther s := rfl

section Frees

/-- The step takes its entry to FREE, and no other of the table anywhere. -/
structure FreesEntry (f : State → Nat → State) : Prop where
  self : ∀ s j, (f s j).entry j = Entry.freed (s.entry j).generation
  others : ∀ s j k, k ≠ j → (f s j).entry k = s.entry k

theorem State.giveWay_frees (kind : NoticeKind) (successor : Option Nat) : FreesEntry (State.giveWay kind successor) where
  self s j := by rw [State.giveWay, State.freeEntry_entry_self, State.postIfHeld_entry]
  others s j k other := by rw [State.giveWay, State.freeEntry_entry_ne _ other, State.postIfHeld_entry]

theorem State.cancelOther_frees : FreesEntry State.cancelOther where
  self s j := by
    rw [State.cancelOther, State.freeEntry_entry_self]
    split
    · rw [State.entry_congr (s.post_frame _ .table (by decide))]
    · rfl
  others s j k other := by
    rw [State.cancelOther, State.freeEntry_entry_ne _ other]
    split
    · rw [State.entry_congr (s.post_frame _ .table (by decide))]
    · rfl

variable {f : State → Nat → State} (frees : FreesEntry f) {s : State} {i j : Nat} {key : Key}
include frees

theorem FreesEntry.foldl_self : ((s.othersOf i key).foldl f s).entry i = s.entry i :=
  State.foldl_entry_of_notMem frees.others (fun mem => (State.mem_othersOf.mp mem).2 rfl) s

theorem FreesEntry.foldl_of_key (other : j ≠ i) (own : (s.entry j).ofKey key = true) :
    ((s.othersOf i key).foldl f s).entry j = Entry.freed (s.entry j).generation := by
  obtain ⟨u, -, entry, freed⟩ := State.foldl_entry_of_mem frees.others (P := fun _ => True) (fun _ _ _ => trivial)
    (s.othersOf_nodup i key) (State.mem_othersOf.mpr ⟨own, other⟩) (s := s) trivial
  rw [freed, frees.self, entry]

theorem FreesEntry.foldl_of_other (foreign : (s.entry j).ofKey key = false) :
    ((s.othersOf i key).foldl f s).entry j = s.entry j := by
  refine State.foldl_entry_of_notMem frees.others (fun mem => ?_) s
  rw [(State.mem_othersOf.mp mem).1] at foreign
  cases foreign

end Frees

section Ended
variable {s : State} {i : Nat} {key : Key} {kind : NoticeKind} {successor : Option Nat}

theorem State.length_of_frame {ps : List Part} {t : State} (after : s.onlyChanges ps t) (quiet : .table ∉ ps) :
    t.table.length = s.table.length := congrArg List.length (after .table quiet)

theorem State.freeEntry_length (s : State) (i : Nat) (superseded : Bool) :
    (s.freeEntry i superseded).table.length = s.table.length := by
  rw [State.freeEntry_table, List.length_set]

theorem State.supersede_length : (s.supersede i key kind successor).table.length = s.table.length :=
  List.foldlRecOn (motive := fun u : State => u.table.length = s.table.length) _ _ rfl fun u same j _ =>
    (State.freeEntry_length _ j true).trans ((State.length_of_frame (u.postIfHeld_frame j kind successor)
      (by decide)).trans same)

theorem State.cancelOthers_length : (s.cancelOthers i key).table.length = s.table.length :=
  List.foldlRecOn (motive := fun u : State => u.table.length = s.table.length) _ _ rfl fun u same j _ => by
    refine (State.freeEntry_length _ j false).trans (Eq.trans ?_ same)
    split
    · exact State.length_of_frame (u.post_frame _) (by decide)
    · rfl

end Ended

end Sys2Proof.Machine

/-! An issuance completes: the entries of the table after it (01 R14, R24 to R26; 05 R89). -/

namespace Sys2Proof.Machine

/-! ### What completes, before attention is told -/

/-- A cancel has ended the issuances of its key, its own among them. -/
def State.keyCancelled (s : State) (i : Nat) (issue : Issue) : State :=
  ((s.closeEntry i .cancelled).cancelOthers i issue.key).entryEnds issue false

theorem State.completeCancel_eq (s : State) (i : Nat) (issue : Issue) (life : Nat) : s.completeCancel i issue life
    = (if life = 0 then (s.keyCancelled i issue).releaseBody i else (s.keyCancelled i issue).startOffer i).attend := rfl

/-- The entry with what it takes from those it supersedes. -/
def Entry.succeeding (e : Entry) (replaces : Option Handle) (follows : Bool) : Entry :=
  { e with replaces := replaces, followsAcknowledged := follows }

/-- The entry of a successor. -/
def State.successor (s : State) (i : Nat) (key : Key) : Entry :=
  (s.entry i).succeeding (s.replacesFor i key) (s.followsFor i key)

/-- A successor with life left is LOCATING. -/
def State.succeeding (s : State) (i : Nat) (issue : Issue) : State :=
  s.setEntry i { s.successor i issue.key with state := .locating, verdict := .undecided }

/-- It has superseded the others of its key. -/
def State.succeeded (s : State) (i : Nat) (issue : Issue) : State :=
  (s.succeeding i issue).supersede i issue.key .superseded (some i)

theorem State.completeLive_eq (s : State) (i : Nat) (issue : Issue) :
    s.completeLive i issue = ((s.succeeded i issue).startOffer i).attend := rfl

/-- A successor with no life left is closed. -/
def State.lapsing (s : State) (i : Nat) (issue : Issue) : State :=
  (s.setEntry i (s.successor i issue.key)).closeEntry i .expired

/-- It has superseded the others of its key. -/
def State.lapsed (s : State) (i : Nat) (issue : Issue) : State :=
  (s.lapsing i issue).supersede i issue.key .expired none

theorem State.completeExpired_eq (s : State) (i : Nat) (issue : Issue) :
    s.completeExpired i issue = (((s.lapsed i issue).releaseBody i).entryEnds issue false).attend := rfl

/-! ### The entries -/

/-- The offer record that starts in a state's moment, but for what its point is drawn to. -/
def State.freshRecord (s : State) (r : OfferRecord) : Prop :=
  r.interval = s.settings.offerMin ∧ r.start = s.now ∧ r.interval * 500 ≤ r.point ∧ r.point < r.interval * 1000
    ∧ r.pointPassed = false ∧ r.heard = 0

/-- In going from `s` to `t` the entry `i` has become `e`, the others of the key are FREE, and the rest stands. -/
structure State.EndsOthers (s t : State) (i : Nat) (key : Key) (e : Entry) : Prop where
  self : t.entry i = e
  ofKey : ∀ j, j ≠ i → (s.entry j).ofKey key = true → t.entry j = Entry.freed (s.entry j).generation
  foreign : ∀ j, j ≠ i → (s.entry j).ofKey key = false → t.entry j = s.entry j

section Entries
variable {s t u : State} {i : Nat} {key : Key} {issue : Issue} {e e' : Entry}

theorem State.EndsOthers.same (h : s.EndsOthers t i key e) (table : u.table = t.table) : s.EndsOthers u i key e where
  self := (State.entry_congr table i).trans h.self
  ofKey j other own := (State.entry_congr table j).trans (h.ofKey j other own)
  foreign j other own := (State.entry_congr table j).trans (h.foreign j other own)

/-- A further change of the entry itself. -/
theorem State.EndsOthers.modified (h : s.EndsOthers t i key e) (self : u.entry i = e')
    (others : ∀ j, j ≠ i → u.entry j = t.entry j) : s.EndsOthers u i key e' where
  self := self
  ofKey j other own := (others j other).trans (h.ofKey j other own)
  foreign j other own := (others j other).trans (h.foreign j other own)

/-- The others of the key are freed after a change of the entry itself. -/
theorem FreesEntry.endsOthers {f : State → Nat → State} (frees : FreesEntry f) (self : t.entry i = e)
    (others : ∀ j, j ≠ i → t.entry j = s.entry j) : s.EndsOthers ((t.othersOf i key).foldl f t) i key e where
  self := frees.foldl_self.trans self
  ofKey j other own := by rw [frees.foldl_of_key other (by rw [others j other]; exact own), others j other]
  foreign j other foreign := by rw [frees.foldl_of_other (by rw [others j other]; exact foreign), others j other]

/-- The entries once attention has been told. -/
structure State.CompletedAs (s t : State) (i : Nat) (key : Key) (e : Entry) : Prop where
  self : t.entry i = e
  ofKey : ∀ j, j ≠ i → (s.entry j).ofKey key = true → t.entry j = Entry.freed (s.entry j).generation
  foreign : ∀ j, j ≠ i → (s.entry j).ofKey key = false → (t.entry j).soundsLike (s.entry j)

theorem Entry.ineligible_of_state {e : Entry} (unpresented : e.presented = false) (threshold : Nat) :
    e.eligible threshold = false := by
  obtain ⟨pending, held⟩ := Bool.or_eq_false_iff.mp unpresented
  simp [Entry.eligible, Entry.inAttentionSet, Entry.claimable, pending, held]

/-- Attention sounds neither the entry that has completed nor those that are freed. -/
theorem State.EndsOthers.attend (h : s.EndsOthers t i key e) (unpresented : e.presented = false) :
    s.CompletedAs t.attend i key e where
  self := by
    refine (State.reevaluate_of_ineligible _ ?_).1.trans h.self
    rw [h.self]
    exact Entry.ineligible_of_state unpresented _
  ofKey j other own := by
    refine (State.reevaluate_of_ineligible _ ?_).1.trans (h.ofKey j other own)
    rw [h.ofKey j other own]
    exact Entry.eligible_freed _ _
  foreign j other foreign := h.foreign j other foreign ▸ t.reevaluate_soundsLike _ j

theorem State.startOffer_entry_ne {j : Nat} (other : j ≠ i) : (s.startOffer i).entry j = s.entry j :=
  State.entry_setEntry_ne s.drew other _

theorem State.startOffer_entry_self (inTable : i < s.table.length) :
    (s.startOffer i).entry i = { s.entry i with offer := some (s.freshOffer s.settings.offerMin) } :=
  State.entry_setEntry (s := s.drew) inTable _

/-- The offer record started in a state of the same standing and settings. -/
theorem State.freshOffer_of_standing (standing : t.standing = s.standing) (settings : t.settings = s.settings)
    (long : 1 ≤ s.settings.offerMin) : s.freshRecord (t.freshOffer t.settings.offerMin) := by
  obtain ⟨second, ends⟩ := t.freshOffer_point (settings.symm ▸ long)
  exact ⟨congrArg Settings.offerMin settings, (State.standing_parts standing).1.1, second, ends, rfl, rfl⟩

end Entries

section Completions
variable {s : State} {i : Nat} {issue : Issue} (inTable : i < s.table.length)
include inTable

theorem State.keyCancelled_endsOthers :
    s.EndsOthers (s.keyCancelled i issue) i issue.key ((s.entry i).close .cancelled s.uptime) :=
  (State.cancelOther_frees.endsOthers (State.closeEntry_entry_self inTable _)
    fun _ other => State.closeEntry_entry_ne s other _).same (State.entryEnds_frame _ issue false .table (by decide))

theorem State.succeeded_endsOthers : s.EndsOthers (s.succeeded i issue) i issue.key
    { s.successor i issue.key with state := .locating, verdict := .undecided } :=
  (State.giveWay_frees _ _).endsOthers (State.entry_setEntry inTable _) fun _ other => s.entry_setEntry_ne other _

theorem State.lapsed_endsOthers :
    s.EndsOthers (s.lapsed i issue) i issue.key ((s.successor i issue.key).close .expired s.uptime) := by
  refine (State.giveWay_frees _ _).endsOthers ?_ fun _ other =>
    (State.closeEntry_entry_ne _ other _).trans (s.entry_setEntry_ne other _)
  rw [State.lapsing, State.closeEntry_entry_self (by simpa [State.setEntry] using inTable), State.entry_setEntry inTable]
  rfl

omit inTable in
theorem State.keyCancelled_standing : (s.keyCancelled i issue).standing = s.standing := by
  simp [State.keyCancelled]

omit inTable in
theorem State.keyCancelled_settings : (s.keyCancelled i issue).settings = s.settings :=
  (State.entryEnds_frame _ issue false .settings (by decide)).trans
    ((State.cancelOthers_frame _ i issue.key .settings (by decide)).trans (s.closeEntry_frame i .cancelled .settings (by decide)))

omit inTable in
theorem State.succeeded_standing : (s.succeeded i issue).standing = s.standing := by
  simp [State.succeeded, State.succeeding]

omit inTable in
theorem State.succeeded_settings : (s.succeeded i issue).settings = s.settings :=
  State.supersede_frame _ i issue.key .superseded (some i) .settings (by decide)

theorem State.keyCancelled_inTable : i < (s.keyCancelled i issue).table.length := by
  rw [State.keyCancelled, State.length_of_frame (State.entryEnds_frame _ issue false) (by decide),
    State.cancelOthers_length, State.closeEntry_length]
  exact inTable

theorem State.succeeded_inTable : i < (s.succeeded i issue).table.length := by
  rw [State.succeeded, State.supersede_length]
  simpa [State.succeeding, State.setEntry] using inTable

/-- A cancel with no life left releases its body. -/
theorem State.completeCancel_dead : s.CompletedAs (s.completeCancel i issue 0) i issue.key
    ((s.entry i).close .cancelled s.uptime).released := by
  have ended := State.keyCancelled_endsOthers (issue := issue) inTable
  have unpresented : ((s.entry i).close .cancelled s.uptime).released.presented = false := by
    rw [Entry.presented, Entry.isHeld, Entry.released_state]
    rfl
  exact (ended.modified (by rw [State.releaseBody_entry_self, ended.self])
    fun _ other => State.releaseBody_entry_ne _ other).attend unpresented

/-- A cancel with life left starts an offer record. -/
theorem State.completeCancel_live {life : Nat} (live : 0 < life) :
    ∃ r, (1 ≤ s.settings.offerMin → s.freshRecord r) ∧ s.CompletedAs (s.completeCancel i issue life) i issue.key
      { (s.entry i).close .cancelled s.uptime with offer := some r } := by
  have ended := State.keyCancelled_endsOthers (issue := issue) inTable
  refine ⟨_, State.freshOffer_of_standing (t := s.keyCancelled i issue) State.keyCancelled_standing
    State.keyCancelled_settings, ?_⟩
  rw [State.completeCancel_eq, if_neg (Nat.ne_of_gt live)]
  exact (ended.modified (by rw [State.startOffer_entry_self (State.keyCancelled_inTable inTable), ended.self])
    fun _ other => State.startOffer_entry_ne other).attend rfl

/-- A successor with life left starts an offer record. -/
theorem State.completeLive_live :
    ∃ r, (1 ≤ s.settings.offerMin → s.freshRecord r) ∧ s.CompletedAs (s.completeLive i issue) i issue.key
      { s.successor i issue.key with state := .locating, verdict := .undecided, offer := some r } := by
  have ended := State.succeeded_endsOthers (issue := issue) inTable
  refine ⟨_, State.freshOffer_of_standing (t := s.succeeded i issue) State.succeeded_standing
    State.succeeded_settings, ?_⟩
  exact (ended.modified (by rw [State.startOffer_entry_self (State.succeeded_inTable inTable), ended.self])
    fun _ other => State.startOffer_entry_ne other).attend rfl

/-- A successor with no life left releases its body. -/
theorem State.completeExpired_dead : s.CompletedAs (s.completeExpired i issue) i issue.key
    ((s.successor i issue.key).close .expired s.uptime).released := by
  have ended := State.lapsed_endsOthers (issue := issue) inTable
  have unpresented : ((s.successor i issue.key).close .expired s.uptime).released.presented = false := by
    rw [Entry.presented, Entry.isHeld, Entry.released_state]
    rfl
  exact ((ended.modified (by rw [State.releaseBody_entry_self, ended.self])
    fun _ other => State.releaseBody_entry_ne _ other).same
      (State.entryEnds_frame _ issue false .table (by decide))).attend unpresented

end Completions

/-! ### By kind and remaining life (01 R14) -/

/-- The entry of a body that has passed check and scan. -/
def Entry.completed (e : Entry) (length deadline : Nat) : Entry :=
  { e with expandedLength := some length, deadline := some deadline, want := none, assemblyTimer := none }

section ByKind
variable {s : State} {i length : Nat} {issue : Issue}

theorem State.completeEntry_eq (issued : (s.entry i).issue = some issue) :
    let life := s.lifeOf (s.entry i)
    let t := s.setEntry i ((s.entry i).completed length (s.uptime + life))
    s.completeEntry i length
      = if (s.entry i).kind = some .cancel then t.completeCancel i issue life
        else if 0 < life then t.completeLive i issue else t.completeExpired i issue := by
  simp only [State.completeEntry, issued]
  rfl

end ByKind

end Sys2Proof.Machine

/-! The last fragment of a body (02 R44, R45; 01 R13, R14). -/

namespace Sys2Proof.Machine

/-- The state in which the last fragment has been taken and the assembly timer has stopped. -/
def State.filledUp (s : State) (source : Source) (f : Fragment) (slot i : Nat) (rest : List Nat) : State :=
  (((s.arrived source).withFree rest).took source f slot i).modEntry i fun e => { e with assemblyTimer := none }

/-- The entry with the last fragment. -/
def State.fullEntry (s : State) (source : Source) (f : Fragment) (slot i : Nat) : Entry :=
  { (s.entry i).filledBy f source slot s.uptime s.assemblyEnd s.gapEnd with assemblyTimer := none }

section Full
variable {s : State} {source : Source} {sender : Word32} {record : List Byte} {f : Fragment} {slot i : Nat}
  {rest : List Nat}

theorem State.filledUp_frame (s : State) (source : Source) (f : Fragment) (slot i : Nat) (rest : List Nat) :
    s.onlyChanges [.table, .store, .free, .ml, .counters] (s.filledUp source f slot i rest) := by
  have arrived : s.onlyChanges [.table, .store, .free, .ml, .counters] (s.arrived source) :=
    (s.arrived_frame source).mono (by decide)
  simpa [State.filledUp, State.took] using arrived

theorem State.filledUp_standing : (s.filledUp source f slot i rest).standing = s.standing :=
  (s.filledUp_frame source f slot i rest).standing (by decide)

theorem State.filledUp_counters : (s.filledUp source f slot i rest).counters = s.counters.advance .fragmentsTaken := by
  cases source <;> rfl

variable (completes : s.Completes f i slot rest)
include completes

theorem State.Completes.inTable : i < s.table.length := State.findEntry_inTable completes.found

theorem State.Completes.assembling : (s.entry i).state = .assembling :=
  beq_iff_eq.mp (Bool.and_eq_true_iff.mp (State.findEntry_some completes.found)).1

theorem State.Completes.fits : (s.entry i).fits f := .inr ⟨completes.total, completes.category, completes.missing⟩

theorem State.Completes.tookEntry : ((s.arrived source).withFree rest).tookEntry source f slot i
    = (s.entry i).filledBy f source slot s.uptime s.assemblyEnd s.gapEnd := by
  rw [← Entry.took_of_fits completes.fits, State.tookEntry_of_standing (s := s)
    (t := (s.arrived source).withFree rest) (s.arrived_standing source) (s.arrived_settings source)]
  exact congrArg (fun e : Entry => e.took f source slot s.uptime s.assemblyEnd s.gapEnd) (s.arrived_entry source i)

theorem State.Completes.entry_self : (s.filledUp source f slot i rest).entry i = s.fullEntry source f slot i := by
  have inTable : i < ((s.arrived source).withFree rest).table.length := by simpa using completes.inTable
  have took := State.took_entry_self (source := source) (f := f) (slot := slot) inTable
  refine (State.entry_setEntry ?_ _).trans ?_
  · change i < (List.set _ i _).length
    rw [List.length_set]
    exact inTable
  · rw [took, completes.tookEntry]
    rfl

omit completes in
theorem State.filledUp_entry_ne {j : Nat} (other : j ≠ i) : (s.filledUp source f slot i rest).entry j = s.entry j :=
  (State.entry_setEntry_ne _ other _).trans ((State.took_entry_ne other).trans (s.arrived_entry source j))

theorem State.Completes.filled_inTable : i < (s.filledUp source f slot i rest).table.length := by
  have inTable : i < ((s.arrived source).withFree rest).table.length := by simpa using completes.inTable
  change i < (List.set (List.set _ i _) i _).length
  rw [List.length_set, List.length_set]
  exact inTable

variable (parsed : parseFragment record = some f)
include parsed

theorem State.Completes.position : ((s.entry i).map.set f.index (some slot)).getD f.index none = some slot := by
  obtain ⟨index, few, -⟩ := parseFragment_bounds parsed
  rw [List.getD_eq_getElem?_getD, List.getElem?_set_self (by rw [completes.positions]; omega)]
  rfl

omit completes parsed in
theorem getD_set_ne {map : List (Option Nat)} {k m : Nat} (other : k ≠ m) (x : Option Nat) :
    (map.set m x).getD k none = map.getD k none := by
  rw [List.getD_eq_getElem?_getD, List.getElem?_set_ne (Ne.symm other), ← List.getD_eq_getElem?_getD]

theorem State.Completes.whole : (s.fullEntry source f slot i).bodyHeld = true := by
  obtain ⟨index, few, -⟩ := parseFragment_bounds parsed
  refine Bool.and_eq_true_iff.mpr ⟨decide_eq_true (Nat.zero_lt_of_lt index), List.all_eq_true.mpr fun k below => ?_⟩
  change (((s.entry i).map.set f.index (some slot)).getD k none).isSome = true
  by_cases same : k = f.index
  · rw [same, completes.position parsed]
    rfl
  · rw [getD_set_ne same]
    exact completes.others k (List.mem_range.mp below) same

/-- The completion check follows. -/
theorem State.Completes.intake : (s.arrived source).intake source record
    = (s.filledUp source f slot i rest).checkBody i := by
  have whole : (((s.arrived source).withFree rest).tookEntry source f slot i).bodyHeld = true := by
    rw [completes.tookEntry]
    exact completes.whole (source := source) parsed
  rw [State.intake_of_fits parsed completes.admitted completes.found completes.slotFree completes.revision completes.fits,
    State.takeInto_eq (by simpa using completes.inTable), whole, if_pos rfl]
  rfl

/-- What is packed is the body that the fragment completes (02 R44). -/
theorem State.Completes.packed :
    (s.filledUp source f slot i rest).packed (s.fullEntry source f slot i) = s.bodyWith f i := by
  obtain ⟨-, -, short⟩ := parseFragment_bounds parsed
  have stored : (s.filledUp source f slot i rest).store = s.store.write slot f.payload := by
    cases source <;> rfl
  refine List.flatMap_congr fun k _ => ?_
  change (match ((s.entry i).map.set f.index (some slot)).getD k none with
    | some slot' => (s.filledUp source f slot i rest).store.read slot'
    | none => []) = _
  rw [stored]
  by_cases same : k = f.index
  · rw [if_pos same, same, completes.position parsed]
    exact Memory.read_write_same _ _ _ completes.slotGood short
  · rw [if_neg same, getD_set_ne same]
    cases place : (s.entry i).map.getD k none with
    | none => rfl
    | some slot' =>
      refine Memory.read_write_other _ _ _ _ fun clash => completes.slotUnused k ?_
      rw [place, clash]

omit completes parsed in
theorem State.filledUp_life : (s.filledUp source f slot i rest).lifeOf (s.fullEntry source f slot i)
    = (s.entry i).lifeWith f s.tb.alertClock := by
  have clock : (s.filledUp source f slot i rest).tb.alertClock = s.tb.alertClock :=
    (State.standing_parts State.filledUp_standing).1.2
  unfold State.lifeOf Entry.lifeWith
  rw [clock]
  change remainingLife s.tb.alertClock ((if _ then some f.issueTime else (s.entry i).issueTime).getD 0)
    ((if _ then some f.duration else (s.entry i).duration).getD 0) = _
  split <;> rfl

/-- The run ends in what the completion check makes of the full entry, but for the arbiter. -/
theorem exec_arrival_completes (meet : s.Meets source sender record) :
    ∃ t, exec (arrival source sender record) s = .next t
      ∧ ((s.filledUp source f slot i rest).checkBody i).onlyChanges [.tb, .cs] t
      ∧ t.standing = s.standing := by
  obtain ⟨t, ran, after, standing⟩ := exec_arrival_after meet
  rw [completes.intake parsed] at after standing
  exact ⟨t, ran, after, standing.trans ((State.checkBody_standing _ _).trans State.filledUp_standing)⟩

end Full

end Sys2Proof.Machine

/-! The completion check fails, finds a wrong packing, or passes (01 R13 to R15; 02 R44, R45). -/

namespace Sys2Proof.Machine

/-! ### A check that fails, a packing that is wrong (01 R13, R14) -/

/-- The entry whose check has failed: released, and one failure more. -/
def Entry.failed (e : Entry) : Entry :=
  { e.released with areas := [], bodyCheck := none, checkFailures := e.checkFailures + 1 }

section Fails
variable {s : State} {i : Nat} (inTable : i < s.table.length)
include inTable

omit inTable in
theorem Entry.released_checkFailures (e : Entry) : e.released.checkFailures = e.checkFailures := by
  unfold Entry.released; split <;> rfl

/-- The released entry counts the failure, and closes at the third or collects again. -/
theorem State.checkFailed_eq : s.checkFailed i
    = if 3 ≤ (s.entry i).checkFailures + 1 then
        (((s.releaseBody i).count .checkFail).setEntry i (s.entry i).failed).closeEntry i .malformed
      else ((((s.releaseBody i).count .checkFail).setEntry i (s.entry i).failed).modEntry i fun e =>
        { e with assemblyTimer := some s.assemblyEnd }).restartGap i := by
  have inTable' : i < ((s.releaseBody i).count .checkFail).table.length := by
    change i < (s.releaseBody i).table.length
    rw [State.releaseBody_table, List.length_set]
    exact inTable
  have failed : ((s.releaseBody i).count .checkFail).modEntry i (fun e =>
      { e with areas := [], bodyCheck := none, checkFailures := e.checkFailures + 1 })
      = ((s.releaseBody i).count .checkFail).setEntry i (s.entry i).failed := by
    have released : ((s.releaseBody i).count .checkFail).entry i = (s.entry i).released := s.releaseBody_entry_self i
    rw [State.modEntry, released, Entry.failed, Entry.released_checkFailures]
  unfold State.checkFailed
  rw [failed]
  dsimp only
  rw [State.entry_setEntry inTable']
  rfl

theorem State.checkFailed_inTable :
    i < (((s.releaseBody i).count .checkFail).setEntry i (s.entry i).failed).table.length := by
  change i < (List.set (s.releaseBody i).table i _).length
  rw [List.length_set, State.releaseBody_table, List.length_set]
  exact inTable

omit inTable in
theorem State.checkFailed_uptime :
    (((s.releaseBody i).count .checkFail).setEntry i (s.entry i).failed).uptime = s.uptime := s.releaseBody_uptime i

/-- The third failure closes the entry. -/
theorem State.checkFailed_entry_of_third (third : 2 ≤ (s.entry i).checkFailures) :
    (s.checkFailed i).entry i = (s.entry i).failed.close .malformed s.uptime := by
  have inTable' := State.checkFailed_inTable inTable
  rw [State.checkFailed_eq inTable, if_pos (by omega), State.closeEntry_entry_self inTable',
    State.checkFailed_uptime, State.entry_setEntry (by rwa [State.setEntry, State.withTable_table,
      List.length_set] at inTable')]

/-- Before the third the entry collects again. -/
theorem State.checkFailed_entry_of_early (early : (s.entry i).checkFailures < 2) : ∃ gapEnd,
    (s.checkFailed i).entry i = { (s.entry i).failed with
      assemblyTimer := some s.assemblyEnd, want := (s.entry i).failed.want.map fun w => { w with gapEnd := gapEnd } } := by
  have inTable' := State.checkFailed_inTable inTable
  have self := State.entry_setEntry (s := (s.releaseBody i).count .checkFail) (by rwa [State.setEntry, State.withTable_table,
    List.length_set] at inTable') (s.entry i).failed
  have timed := State.entry_setEntry inTable' { (s.entry i).failed with assemblyTimer := some s.assemblyEnd }
  rw [State.checkFailed_eq inTable, if_neg (by omega), State.modEntry, self, State.restartGap, State.modEntry,
    State.entry_setEntry (by rw [State.setEntry, State.withTable_table, List.length_set]; exact inTable'), timed]
  exact ⟨_, rfl⟩

theorem State.checkFailed_after :
    (s.checkFailed i).free = s.free ++ (s.entry i).slots ∧ (s.checkFailed i).counters = s.counters.advance .checkFail := by
  have released : (s.releaseBody i).counters = s.counters := s.releaseBody_frame i .counters (by decide)
  have counters : ((s.releaseBody i).count .checkFail).counters = s.counters.advance .checkFail :=
    congrArg (·.advance .checkFail) released
  rw [State.checkFailed_eq inTable]
  split
  · exact ⟨(State.closeEntry_frame _ i .malformed .free (by decide)).trans (s.releaseBody_free i),
      (State.closeEntry_frame _ i .malformed .counters (by decide)).trans counters⟩
  · exact ⟨s.releaseBody_free i, counters⟩

omit inTable in
theorem State.malformedBody_counters : (s.malformedBody i).counters = s.counters.advance .malformed :=
  (State.closeEntry_frame _ i .malformed .counters (by decide)).trans
    (State.releaseBody_frame (s.count .malformed) i .counters (by decide))

theorem State.malformedBody_entry : (s.malformedBody i).entry i = (s.entry i).released.close .malformed s.uptime := by
  have inTable' : i < ((s.count .malformed).releaseBody i).table.length := by
    rw [State.releaseBody_table, List.length_set]
    exact inTable
  rw [State.malformedBody, State.closeEntry_entry_self inTable', State.releaseBody_entry_self, State.releaseBody_uptime]
  rfl

end Fails

/-! ### The three outcomes (02 R44, R45) -/

section Outcomes
variable {s : State} {i n : Nat} {e : Entry} {body : List Byte} (entry : s.entry i = e) (packed : s.packed e = body)
include entry packed

theorem State.checkBody_of_disagrees (disagrees : e.bodyCheck ≠ some (checkCode body)) : s.checkBody i = s.checkFailed i := by
  subst entry packed
  exact if_neg disagrees

variable (agrees : e.bodyCheck = some (checkCode body))
include agrees

theorem State.checkBody_of_wrong (wrong : ∀ n, scan body 0 ≠ .length n) : s.checkBody i = s.malformedBody i := by
  subst entry packed
  rw [State.checkBody, if_pos agrees]
  split
  · next n found => exact absurd found (wrong n)
  · rfl
  · rfl

theorem State.checkBody_of_good (good : scan body 0 = .length n) : s.checkBody i = s.completeEntry i n := by
  subst entry packed
  rw [State.checkBody, if_pos agrees, good]

end Outcomes

end Sys2Proof.Machine

/-! What the completion check leaves of the entry (01 R13 to R15; 02 R44, R45). -/

namespace Sys2Proof.Machine

/-- A release clears the map, and at most ends the offer record. -/
theorem Entry.released_form {e : Entry} (positions : e.map.length = 16) :
    ∃ offer, e.released = { e with map := emptyMap, offer := offer } := by
  unfold Entry.released
  split
  · next empty =>
    have map : e.map = emptyMap := eq_emptyMap positions empty
    exact ⟨e.offer, by rw [← map]⟩
  · exact ⟨none, rfl⟩

section Good
variable {s : State} {source : Source} {f : Fragment} {slot i n : Nat} {rest : List Nat}

/-- The full entry with the length of its body and its deadline. -/
def State.goodEntry (s : State) (source : Source) (f : Fragment) (slot i n : Nat) : Entry :=
  (s.fullEntry source f slot i).completed n (s.uptime + (s.entry i).lifeWith f s.tb.alertClock)

/-- The state in which a good body has its length and its deadline. -/
def State.goodBody (s : State) (source : Source) (f : Fragment) (slot i n : Nat) (rest : List Nat) : State :=
  (s.filledUp source f slot i rest).setEntry i (s.goodEntry source f slot i n)

variable (completes : s.Completes f i slot rest)
include completes

theorem State.Completes.completion : (s.filledUp source f slot i rest).completeEntry i n
    = if (s.entry i).kindWith f = .cancel then
        (s.goodBody source f slot i n rest).completeCancel i f.issue ((s.entry i).lifeWith f s.tb.alertClock)
      else if 0 < (s.entry i).lifeWith f s.tb.alertClock then (s.goodBody source f slot i n rest).completeLive i f.issue
      else (s.goodBody source f slot i n rest).completeExpired i f.issue := by
  have self := completes.entry_self (source := source)
  have issued : ((s.filledUp source f slot i rest).entry i).issue = some f.issue := by
    rw [self]
    exact completes.revision
  have uptime : (s.filledUp source f slot i rest).uptime = s.uptime :=
    (congrArg (fun x => x.1.1) State.filledUp_standing :)
  rw [State.completeEntry_eq issued, self, State.filledUp_life, uptime]
  refine if_congr ?_ rfl rfl
  exact Option.some_inj

theorem State.Completes.good_inTable : i < (s.goodBody source f slot i n rest).table.length := by
  rw [State.goodBody, State.setEntry, State.withTable_table, List.length_set]
  exact completes.filled_inTable

theorem State.Completes.good_entry_self :
    (s.goodBody source f slot i n rest).entry i = s.goodEntry source f slot i n :=
  State.entry_setEntry completes.filled_inTable _

omit completes in
theorem State.goodBody_entry_ne {j : Nat} (other : j ≠ i) : (s.goodBody source f slot i n rest).entry j = s.entry j :=
  (State.entry_setEntry_ne _ other _).trans (State.filledUp_entry_ne other)

omit completes in
theorem State.goodBody_frame (s : State) (source : Source) (f : Fragment) (slot i n : Nat) (rest : List Nat) :
    s.onlyChanges [.table, .store, .free, .ml, .counters] (s.goodBody source f slot i n rest) := by
  simpa [State.goodBody] using s.filledUp_frame source f slot i rest

omit completes in
theorem State.goodBody_uptime : (s.goodBody source f slot i n rest).uptime = s.uptime :=
  (congrArg (fun x => x.1.1) ((s.goodBody_frame source f slot i n rest).standing (by decide)) :)

omit completes in
theorem State.goodBody_record {r : OfferRecord} (fresh : (s.goodBody source f slot i n rest).freshRecord r) :
    s.freshRecord r := by
  have settings : (s.goodBody source f slot i n rest).settings = s.settings :=
    s.goodBody_frame source f slot i n rest .settings (by decide)
  have now : (s.goodBody source f slot i n rest).now = s.now :=
    congrArg TimeBase.ms (s.goodBody_frame source f slot i n rest .tb (by decide))
  rwa [State.freshRecord, settings, now] at fresh

omit completes in
/-- A step to the state of the good body, and one from it on. -/
theorem State.CompletedAs.from_good {t : State} {key : Key} {e : Entry}
    (h : (s.goodBody source f slot i n rest).CompletedAs t i key e) : s.CompletedAs t i key e where
  self := h.self
  ofKey j other own := by
    have same := State.goodBody_entry_ne (s := s) (source := source) (f := f) (slot := slot) (n := n) (rest := rest) other
    rw [h.ofKey j other (by rw [same]; exact own), same]
  foreign j other foreign := by
    have same := State.goodBody_entry_ne (s := s) (source := source) (f := f) (slot := slot) (n := n) (rest := rest) other
    exact same ▸ h.foreign j other (by rw [same]; exact foreign)

/-! ### By kind and remaining life (01 R14) -/

/-- A cancel that completes with no life left. -/
theorem State.Completes.cancel_dead (cancel : (s.entry i).kindWith f = .cancel)
    (dead : (s.entry i).lifeWith f s.tb.alertClock = 0) :
    s.CompletedAs ((s.filledUp source f slot i rest).completeEntry i n) i f.issue.key
      ((s.goodEntry source f slot i n).close .cancelled s.uptime).released := by
  have done := State.completeCancel_dead (issue := f.issue) (completes.good_inTable (source := source) (n := n))
  rw [completes.good_entry_self, State.goodBody_uptime] at done
  rw [completes.completion, if_pos cancel, dead]
  exact done.from_good

/-- A cancel that completes with life left. -/
theorem State.Completes.cancel_live (cancel : (s.entry i).kindWith f = .cancel)
    (live : 0 < (s.entry i).lifeWith f s.tb.alertClock) :
    ∃ r, (1 ≤ s.settings.offerMin → s.freshRecord r)
      ∧ s.CompletedAs ((s.filledUp source f slot i rest).completeEntry i n) i f.issue.key
      { (s.goodEntry source f slot i n).close .cancelled s.uptime with offer := some r } := by
  have settings : (s.goodBody source f slot i n rest).settings = s.settings :=
    s.goodBody_frame source f slot i n rest .settings (by decide)
  obtain ⟨r, fresh, done⟩ := State.completeCancel_live (issue := f.issue)
    (completes.good_inTable (source := source) (n := n)) live
  rw [completes.good_entry_self, State.goodBody_uptime] at done
  refine ⟨r, fun long => State.goodBody_record (fresh (settings.symm ▸ long)), ?_⟩
  rw [completes.completion, if_pos cancel]
  exact done.from_good

/-- A successor that completes with life left. -/
theorem State.Completes.successor_live (successor : (s.entry i).kindWith f ≠ .cancel)
    (live : 0 < (s.entry i).lifeWith f s.tb.alertClock) :
    ∃ r, (1 ≤ s.settings.offerMin → s.freshRecord r)
      ∧ s.CompletedAs ((s.filledUp source f slot i rest).completeEntry i n) i f.issue.key
      { (s.goodBody source f slot i n rest).successor i f.issue.key with
        state := .locating, verdict := .undecided, offer := some r } := by
  have settings : (s.goodBody source f slot i n rest).settings = s.settings :=
    s.goodBody_frame source f slot i n rest .settings (by decide)
  obtain ⟨r, fresh, done⟩ := State.completeLive_live (issue := f.issue)
    (completes.good_inTable (source := source) (n := n))
  refine ⟨r, fun long => State.goodBody_record (fresh (settings.symm ▸ long)), ?_⟩
  rw [completes.completion, if_neg successor, if_pos live]
  exact done.from_good

/-- A successor that completes with no life left. -/
theorem State.Completes.successor_dead (successor : (s.entry i).kindWith f ≠ .cancel)
    (dead : (s.entry i).lifeWith f s.tb.alertClock = 0) :
    s.CompletedAs ((s.filledUp source f slot i rest).completeEntry i n) i f.issue.key
      (((s.goodBody source f slot i n rest).successor i f.issue.key).close .expired s.uptime).released := by
  have done := State.completeExpired_dead (issue := f.issue) (completes.good_inTable (source := source) (n := n))
  rw [State.goodBody_uptime] at done
  rw [completes.completion, if_neg successor, if_neg (by omega)]
  exact done.from_good

theorem State.Completes.successor_eq : (s.goodBody source f slot i n rest).successor i f.issue.key
    = (s.goodEntry source f slot i n).succeeding ((s.goodBody source f slot i n rest).replacesFor i f.issue.key)
        ((s.goodBody source f slot i n rest).followsFor i f.issue.key) := by
  rw [State.successor, completes.good_entry_self]

end Good

end Sys2Proof.Machine

/-! The statement about the last fragment of a body (01 R13 to R15; 02 R44, R45). -/

namespace Sys2Proof.Machine

section LastFragment
variable {s : State} {source : Source} {f : Fragment} {slot i n : Nat} {rest : List Nat}
  (completes : s.Completes f i slot rest)
include completes

theorem State.Completes.full_positions : (s.fullEntry source f slot i).map.length = 16 :=
  List.length_set.trans completes.positions

theorem State.Completes.failed_form : ∃ offer, (s.fullEntry source f slot i).failed
    = { s.fullEntry source f slot i with
        map := emptyMap, offer := offer, areas := [], bodyCheck := none, checkFailures := (s.entry i).checkFailures + 1 } := by
  obtain ⟨offer, released⟩ := Entry.released_form (completes.full_positions (source := source))
  exact ⟨offer, by rw [Entry.failed, released]; rfl⟩

omit completes in
theorem State.filledUp_uptime : (s.filledUp source f slot i rest).uptime = s.uptime :=
  (congrArg (fun x => x.1.1) State.filledUp_standing :)

omit completes in
theorem State.filledUp_assemblyEnd : (s.filledUp source f slot i rest).assemblyEnd = s.assemblyEnd := by
  have settings : (s.filledUp source f slot i rest).settings = s.settings :=
    s.filledUp_frame source f slot i rest .settings (by decide)
  have now : (s.filledUp source f slot i rest).now = s.now := (State.standing_parts State.filledUp_standing).1.1
  rw [State.assemblyEnd, State.assemblyEnd, settings, now]

/-- What a failed check leaves of the entry (01 R13). -/
theorem State.Completes.check_fails : let c := (s.filledUp source f slot i rest).checkFailed i
    ((c.entry i).generation = (s.entry i).generation ∧ (c.entry i).issue = some f.issue)
      ∧ ((c.entry i).map = emptyMap ∧ (c.entry i).areas = [] ∧ (c.entry i).bodyCheck = none
        ∧ (c.entry i).checkFailures = (s.entry i).checkFailures + 1)
      ∧ ((s.entry i).checkFailures < 2 → (c.entry i).state = .assembling
        ∧ (c.entry i).assemblyTimer = some (s.now + s.settings.assemblyTimeout * 1000))
      ∧ (2 ≤ (s.entry i).checkFailures → (c.entry i).state = .closed ∧ (c.entry i).closureReason = some .malformed
        ∧ (c.entry i).closureTime = some s.uptime ∧ (c.entry i).assemblyTimer = none) := by
  intro c
  have filled := completes.entry_self (source := source)
  have failures : ((s.filledUp source f slot i rest).entry i).checkFailures = (s.entry i).checkFailures := by
    rw [filled]
    rfl
  obtain ⟨offer, failed⟩ := completes.failed_form (source := source)
  obtain early | third := Nat.lt_or_ge (s.entry i).checkFailures 2
  · obtain ⟨gapEnd, entry⟩ := State.checkFailed_entry_of_early (completes.filled_inTable (source := source))
      (failures.trans_lt early)
    rw [filled, failed, State.filledUp_assemblyEnd] at entry
    change c.entry i = _ at entry
    rw [entry]
    exact ⟨⟨rfl, completes.revision⟩, ⟨rfl, rfl, rfl, rfl⟩, fun _ => ⟨completes.assembling, rfl⟩, fun third => by omega⟩
  · have entry := State.checkFailed_entry_of_third (completes.filled_inTable (source := source))
      (third.trans_eq failures.symm)
    rw [filled, failed, State.filledUp_uptime] at entry
    change c.entry i = _ at entry
    rw [entry]
    exact ⟨⟨rfl, completes.revision⟩, ⟨rfl, rfl, rfl, rfl⟩, fun early => by omega, fun _ => ⟨rfl, rfl, rfl, rfl⟩⟩

/-- What a wrong packing leaves of the entry (01 R14, 02 R45). -/
theorem State.Completes.packing_wrong : let c := (s.filledUp source f slot i rest).malformedBody i
    ((c.entry i).generation = (s.entry i).generation ∧ (c.entry i).issue = some f.issue)
      ∧ (c.entry i).map = emptyMap ∧ (c.entry i).state = .closed ∧ (c.entry i).closureReason = some .malformed
      ∧ (c.entry i).closureTime = some s.uptime := by
  intro c
  obtain ⟨offer, released⟩ := Entry.released_form (completes.full_positions (source := source))
  have entry := State.malformedBody_entry (completes.filled_inTable (source := source))
  rw [completes.entry_self, released, State.filledUp_uptime] at entry
  change c.entry i = _ at entry
  rw [entry]
  exact ⟨⟨rfl, completes.revision⟩, rfl, rfl, rfl, rfl⟩

/-- A good body: the length and the deadline are recorded, and the entry goes by kind and remaining life (01 R14, R15). -/
theorem State.Completes.body_good (long : 1 ≤ s.settings.offerMin) :
    let c := (s.filledUp source f slot i rest).completeEntry i n
    let life := (s.entry i).lifeWith f s.tb.alertClock
    ((c.entry i).generation = (s.entry i).generation ∧ (c.entry i).issue = some f.issue)
      ∧ (c.entry i).expandedLength = some n ∧ (c.entry i).deadline = some (s.uptime + life)
      ∧ (c.entry i).assemblyTimer = none ∧ (c.entry i).want = none
      ∧ ((s.entry i).kindWith f = .cancel → (c.entry i).state = .closed ∧ (c.entry i).closureReason = some .cancelled
          ∧ (c.entry i).closureTime = some s.uptime)
      ∧ ((s.entry i).kindWith f ≠ .cancel → 0 < life → (c.entry i).state = .locating ∧ (c.entry i).verdict = .undecided)
      ∧ ((s.entry i).kindWith f ≠ .cancel → life = 0 → (c.entry i).state = .closed
          ∧ (c.entry i).closureReason = some .expired ∧ (c.entry i).closureTime = some s.uptime)
      ∧ (life = 0 → (c.entry i).map = emptyMap)
      ∧ (0 < life → (c.entry i).map = (s.entry i).map.set f.index (some slot)
          ∧ ∃ r, (c.entry i).offer = some r ∧ s.freshRecord r) := by
  intro c life
  have live_or : life = 0 ∨ 0 < life := Nat.eq_zero_or_pos life
  by_cases cancel : (s.entry i).kindWith f = .cancel
  · obtain dead | live := live_or
    · have done := completes.cancel_dead (source := source) (n := n) cancel dead
      obtain ⟨offer, released⟩ := Entry.released_form (e := (s.goodEntry source f slot i n).close .cancelled s.uptime)
        (completes.full_positions (source := source))
      rw [show c.entry i = _ from done.self.trans released]
      exact ⟨⟨rfl, completes.revision⟩, rfl, rfl, rfl, rfl, fun _ => ⟨rfl, rfl, rfl⟩, absurd cancel, absurd cancel,
        fun _ => rfl, fun live => absurd dead (Nat.ne_of_gt live)⟩
    · obtain ⟨r, fresh, done⟩ := completes.cancel_live (source := source) (n := n) cancel live
      rw [show c.entry i = _ from done.self]
      exact ⟨⟨rfl, completes.revision⟩, rfl, rfl, rfl, rfl, fun _ => ⟨rfl, rfl, rfl⟩, absurd cancel, absurd cancel,
        fun dead => absurd dead (Nat.ne_of_gt live), fun _ => ⟨rfl, r, rfl, fresh long⟩⟩
  · obtain dead | live := live_or
    · have done := completes.successor_dead (source := source) (n := n) cancel dead
      rw [completes.successor_eq] at done
      obtain ⟨offer, released⟩ := Entry.released_form (e := ((s.goodEntry source f slot i n).succeeding
        ((s.goodBody source f slot i n rest).replacesFor i f.issue.key)
        ((s.goodBody source f slot i n rest).followsFor i f.issue.key)).close .expired s.uptime)
        (completes.full_positions (source := source))
      rw [show c.entry i = _ from done.self.trans released]
      exact ⟨⟨rfl, completes.revision⟩, rfl, rfl, rfl, rfl, fun is => absurd is cancel,
        fun _ live => absurd dead (Nat.ne_of_gt live), fun _ _ => ⟨rfl, rfl, rfl⟩,
        fun _ => rfl, fun live => absurd dead (Nat.ne_of_gt live)⟩
    · obtain ⟨r, fresh, done⟩ := completes.successor_live (source := source) (n := n) cancel live
      rw [completes.successor_eq] at done
      rw [show c.entry i = _ from done.self]
      exact ⟨⟨rfl, completes.revision⟩, rfl, rfl, rfl, rfl, fun is => absurd is cancel, fun _ _ => ⟨rfl, rfl⟩,
        fun _ dead => absurd dead (Nat.ne_of_gt live), fun dead => absurd dead (Nat.ne_of_gt live),
        fun _ => ⟨rfl, r, rfl, fresh long⟩⟩

end LastFragment

/-- Settles O19: a check that fails, a packing that is wrong, a good body, each by its lemma. -/
theorem lastFragmentIsChecked : Obligations.LastFragmentIsChecked := by
  unfold Obligations.LastFragmentIsChecked
  intro s source sender record f i slot rest meet parsed completes long e body life
  obtain ⟨t, ran, after, -⟩ := exec_arrival_completes (source := source) completes parsed meet
  have entry := State.entry_congr (after .table (by decide)) i
  have counters : t.counters = ((s.filledUp source f slot i rest).checkBody i).counters := after .counters (by decide)
  have free : t.free = ((s.filledUp source f slot i rest).checkBody i).free := after .free (by decide)
  have filled := completes.entry_self (source := source)
  have packed := completes.packed (source := source) parsed
  have inTable := completes.filled_inTable (source := source)
  refine ⟨t, ran, ?_⟩
  by_cases agrees : e.checkWith f = some (checkCode body)
  · by_cases good : ∃ n, scan body 0 = .length n
    · obtain ⟨n, good⟩ := good
      rw [State.checkBody_of_good filled packed agrees good] at entry counters
      have kept : ((s.filledUp source f slot i rest).completeEntry i n).counters
          = (s.filledUp source f slot i rest).counters := State.completeEntry_frame _ i n .counters (by decide)
      rw [kept, State.filledUp_counters] at counters
      obtain ⟨⟨generation, issue⟩, done⟩ := completes.body_good (source := source) (n := n) long
      rw [entry, counters]
      refine ⟨generation, issue, rfl, absurd agrees, fun _ wrong => absurd good (wrong n), fun m _ good' => ?_⟩
      obtain rfl : n = m := by simpa using good.symm.trans good'
      obtain ⟨length, deadline, timer, want, cancelled, located, expired, cleared, offered⟩ := done
      exact ⟨length, deadline, timer, want, cancelled, located, expired, cleared, offered⟩
    · have wrong : ∀ n, scan body 0 ≠ .length n := fun n found => good ⟨n, found⟩
      rw [State.checkBody_of_wrong filled packed agrees wrong] at entry counters
      rw [State.malformedBody_counters, State.filledUp_counters] at counters
      obtain ⟨⟨generation, issue⟩, done⟩ := completes.packing_wrong (source := source)
      rw [entry, counters]
      exact ⟨generation, issue, rfl, absurd agrees, fun _ _ => ⟨rfl, done⟩, fun n _ found => absurd found (wrong n)⟩
  · rw [State.checkBody_of_disagrees filled packed agrees] at entry counters free
    obtain ⟨freed, counted⟩ := State.checkFailed_after inTable
    rw [counted, State.filledUp_counters] at counters
    rw [freed, filled] at free
    obtain ⟨⟨generation, issue⟩, ⟨map, areas, check, failures⟩, early, third⟩ := completes.check_fails (source := source)
    rw [entry, counters]
    exact ⟨generation, issue, rfl, fun _ => ⟨rfl, map, free, areas, check, failures, early, third⟩,
      fun is => absurd is agrees, fun _ is => absurd is agrees⟩

end Sys2Proof.Machine

/-! The Report Unit is told that an issuance has given way or been cancelled (06 R112, R134). -/

namespace Sys2Proof.Machine

/-! ### An issuance that RU does not know -/

/-- RU holds no tally of the issuance and no deferred item of it. -/
def State.unreported (s : State) (issue : Issue) : Prop := s.findTally issue = none ∧ s.isDeferred issue = false

section Unreported
variable {s : State} {issue old : Issue} {k : Nat} {y : Tally}

theorem State.findTally_eq_none_iff :
    s.findTally issue = none ↔ ∀ y, some y ∈ s.ru.tallies → y.issue ≠ issue := by
  refine List.findIdx?_eq_none_iff.trans ⟨fun none' y mem => ?_, fun other x mem => ?_⟩
  · simpa using none' (some y) mem
  · cases x with
    | none => rfl
    | some y => simpa using other y mem

theorem State.tally_mem (held : s.tally k = some y) : some y ∈ s.ru.tallies := by
  have place := State.getElem?_of_tally (State.inPool_of_tally held)
  rw [held] at place
  exact List.mem_of_getElem? place

theorem State.isDeferred_eq_false_iff : s.isDeferred issue = false ↔ ∀ d ∈ s.ru.deferred, d.issue ≠ issue := by
  simp [State.isDeferred]

theorem State.entryEnds_of_unreported (unreported : s.unreported issue) (superseded : Bool) :
    s.entryEnds issue superseded = s := by
  rw [State.entryEnds_of_no_tally unreported.1, State.undeferred_of_absent unreported.2]

/-- A tally of another issuance makes none of this one. -/
theorem State.unreported.setTally (unreported : s.unreported issue) {x : Option Tally}
    (other : ∀ y, x = some y → y.issue ≠ issue) : (s.setTally k x).unreported issue := by
  refine ⟨State.findTally_eq_none_iff.mpr fun y mem => ?_, unreported.2⟩
  obtain mem | same := List.mem_or_eq_of_mem_set mem
  · exact State.findTally_eq_none_iff.mp unreported.1 y mem
  · exact other y same.symm

theorem State.unreported.kept {t : State} (unreported : s.unreported issue) (tallies : t.ru.tallies = s.ru.tallies)
    (deferred : t.ru.deferred ⊆ s.ru.deferred) : t.unreported issue := by
  obtain ⟨none', absent⟩ := unreported
  refine ⟨State.findTally_eq_none_iff.mpr fun y mem => ?_, State.isDeferred_eq_false_iff.mpr fun d mem => ?_⟩
  · exact State.findTally_eq_none_iff.mp none' y (tallies ▸ mem)
  · exact State.isDeferred_eq_false_iff.mp absent d (deferred mem)

theorem State.unreported.takeTally (unreported : s.unreported issue) {i : Issue} (other : i ≠ issue) (level : Level) :
    (s.takeTally k i level).unreported issue := by
  have begun : (s.setTally k (some (freshTally i s.cs.tag level))).unreported issue :=
    unreported.setTally fun y is => by cases is; exact other
  unfold State.takeTally State.enterWaiting
  split
  · next y held =>
    have apart := State.findTally_eq_none_iff.mp begun.1 y (State.tally_mem held)
    have drawn : (s.setTally k (some (freshTally i s.cs.tag level))).drew.unreported issue := begun
    exact drawn.setTally fun y is => by cases is; exact apart
  · exact begun

theorem State.unreported.freeTally (unreported : s.unreported issue) (k : Nat) : (s.freeTally k).unreported issue := by
  have without : (s.withoutTally k).unreported issue :=
    unreported.setTally (x := none) (fun _ is => by cases is) |>.kept rfl (List.Subset.refl _)
  rw [State.freeTally_eq, State.serveDeferred]
  split
  · split
    · next n _ _ d item =>
      have fewer : ((s.withoutTally k).withRu { (s.withoutTally k).ru with
          deferred := (s.withoutTally k).ru.deferred.eraseIdx n }).unreported issue :=
        without.kept rfl fun _ mem => List.mem_of_mem_eraseIdx mem
      exact fewer.takeTally (State.isDeferred_eq_false_iff.mp without.2 d (List.mem_of_getElem? item)) d.level
    · exact without
  · exact without

theorem State.unreported.undeferred (unreported : s.unreported issue) (old : Issue) :
    (s.undeferred old).unreported issue := unreported.kept rfl fun _ mem => List.mem_of_mem_filter mem

/-! ### RU is told that an issuance has given way (06 R134) -/

theorem State.entryEnds_of_settled (found : s.findTally old = some k) (held : s.tally k = some y)
    (settled : y.state = .settled) : s.entryEnds old true = (s.undeferred old).freeTally k := by
  have found' : (s.undeferred old).findTally old = some k := found
  have held' : (s.undeferred old).tally k = some y := held
  rw [State.undeferred] at found' held' ⊢
  simp only [State.entryEnds, found', held', if_true, settled]

theorem State.entryEnds_of_running (found : s.findTally old = some k) (held : s.tally k = some y)
    (running : y.state ≠ .settled) :
    s.entryEnds old true = (s.undeferred old).setTally k (some { y with superseded := true }) := by
  have found' : (s.undeferred old).findTally old = some k := found
  have held' : (s.undeferred old).tally k = some y := held
  rw [State.undeferred] at found' held' ⊢
  simp only [State.entryEnds, found', held', if_true, if_false, running]

/-- The end of another issuance makes RU know of no new one. -/
theorem State.unreported.entryEnds (unreported : s.unreported issue) (old : Issue) (superseded : Bool) :
    (s.entryEnds old superseded).unreported issue := by
  have kept := unreported.undeferred old
  cases found : s.findTally old with
  | none => rw [State.entryEnds_of_no_tally found]; exact kept
  | some k =>
    obtain ⟨y, held, -⟩ := State.findTally_some found
    have apart : y.issue ≠ issue := State.findTally_eq_none_iff.mp unreported.1 y (State.tally_mem held)
    cases superseded with
    | true =>
      by_cases settled : y.state = .settled
      · rw [State.entryEnds_of_settled found held settled]; exact kept.freeTally k
      · rw [State.entryEnds_of_running found held settled]; exact kept.setTally fun y is => by cases is; exact apart
    | false =>
      by_cases uplinking : y.state = .uplinking
      · rw [State.entryEnds_of_uplinking found held uplinking]; exact kept.setTally fun y is => by cases is; exact apart
      · rw [State.entryEnds_of_other found held uplinking]; exact kept.freeTally k

end Unreported

/-! ### What is made of the tally -/

/-- The deferred items but the issuance's (06 R112). -/
def Report.deferredBut (r : Report) (issue : Issue) : List Deferred := r.deferred.filter fun d => d.issue != issue

/-- What RU makes of an issuance that has given way, in going from `s` to `t` (06 R134). -/
structure State.GaveWay (s t : State) (old : Issue) : Prop where
  alone : s.findTally old = none → t.ru = { s.ru with deferred := s.ru.deferredBut old }
  marked : ∀ k y, s.findTally old = some k → s.tally k = some y → y.state ≠ .settled →
    t.tally k = some { y with superseded := true }
  freed : ∀ k y, s.findTally old = some k → s.tally k = some y → y.state = .settled → s.ru.deferredBut old = [] →
    t.ru = { s.ru with
      deferred := [], tallies := s.ru.tallies.set k none, uplinkQueue := s.ru.uplinkQueue.filter fun m => m != k }
  given : ∀ k y, s.findTally old = some k → s.tally k = some y → y.state = .settled →
    s.ru.deferredBut old = s.ru.deferred → s.ru.deferredBut old ≠ [] → (∀ d ∈ s.ru.deferredBut old, d.precedence ≤ 7) →
      ∃ n d, s.served t n k d

/-- What RU makes of an issuance that is cancelled, where no other waits for a tally, in going from `s` to `t`. -/
structure State.WasCancelled (s t : State) (old : Issue) : Prop where
  marked : ∀ k y, s.findTally old = some k → s.tally k = some y → y.state = .uplinking →
    t.tally k = some { y with ended := true }
  freed : ∀ k y, s.findTally old = some k → s.tally k = some y → y.state ≠ .uplinking → s.ru.deferredBut old = [] →
    t.tally k = none

section Told
variable {s s' t t' : State} {old : Issue}

theorem State.entryEnds_gaveWay (s : State) (old : Issue) : s.GaveWay (s.entryEnds old true) old where
  alone none' := by rw [State.entryEnds_of_no_tally none']; rfl
  marked k y found held running := by
    rw [State.entryEnds_of_running found held running]
    exact State.tally_setTally (s := s.undeferred old) (State.inPool_of_tally held) _
  freed k y found held settled empty := by
    have inPool : k < (s.undeferred old).ru.tallies.length := State.inPool_of_tally held
    rw [State.entryEnds_of_settled found held settled, (State.freeTally_tallyFreed inPool).1 empty]
    exact congrArg (fun l => ({ s.ru with
      deferred := l, tallies := s.ru.tallies.set k none, uplinkQueue := s.ru.uplinkQueue.filter fun m => m != k } : Report)) empty
  given k y found held settled all items bounded := by
    have same : s.undeferred old = s := by
      change s.withRu { s.ru with deferred := s.ru.deferredBut old } = s
      rw [all]
      rfl
    rw [all] at items bounded
    rw [State.entryEnds_of_settled found held settled, same]
    obtain ⟨n, d, served, -⟩ := (State.freeTally_tallyFreed (State.inPool_of_tally held)).2 items bounded
    exact ⟨n, d, served⟩

theorem State.entryEnds_wasCancelled (s : State) (old : Issue) : s.WasCancelled (s.entryEnds old false) old where
  marked k y found held uplinking := by
    rw [State.entryEnds_of_uplinking found held uplinking]
    exact State.tally_setTally (s := s.undeferred old) (State.inPool_of_tally held) _
  freed k y found held other empty := by
    have inPool : k < (s.undeferred old).ru.tallies.length := State.inPool_of_tally held
    rw [State.entryEnds_of_other found held other, (State.freeTally_tallyFreed inPool).1 empty]
    exact State.tally_setTally (s := s.undeferred old) inPool none

/-- What this is read off: RU and the station tag before, and RU, time and what draws a delay after. -/
theorem State.GaveWay.congr (h : s.GaveWay t old) (ru : s'.ru = s.ru) (tag : s'.cs.tag = s.cs.tag)
    (ru' : t'.ru = t.ru) (now : t'.now = t.now) (settings : t'.settings = t.settings)
    (quality : t'.ar.quality = t.ar.quality) : s'.GaveWay t' old := by
  have found : s'.findTally old = s.findTally old := by rw [State.findTally, ru]; rfl
  have tally (k : Nat) : s'.tally k = s.tally k := by rw [State.tally, ru]; rfl
  have tally' (k : Nat) : t'.tally k = t.tally k := by rw [State.tally, ru']; rfl
  refine ⟨?_, fun k y => ?_, fun k y => ?_, fun k y => ?_⟩
  · rw [found, ru', ru]; exact h.alone
  · rw [found, tally, tally']; exact h.marked k y
  · rw [found, tally, ru', ru]; exact h.freed k y
  · rw [found, tally, ru]
    intro found held settled all items bounded
    obtain ⟨n, d, served⟩ := h.given k y found held settled all items bounded
    exact ⟨n, d, served.congr ru tag ru' now settings quality⟩

theorem State.WasCancelled.congr (h : s.WasCancelled t old) (ru : s'.ru = s.ru) (ru' : t'.ru = t.ru) :
    s'.WasCancelled t' old := by
  have found : s'.findTally old = s.findTally old := by rw [State.findTally, ru]; rfl
  have tally (k : Nat) : s'.tally k = s.tally k := by rw [State.tally, ru]; rfl
  have tally' (k : Nat) : t'.tally k = t.tally k := by rw [State.tally, ru']; rfl
  refine ⟨fun k y => ?_, fun k y => ?_⟩
  · rw [found, tally, tally']; exact h.marked k y
  · rw [found, tally, tally', ru]; exact h.freed k y

end Told

end Sys2Proof.Machine

/-! The other entry of a key gives way, or is cancelled: its notice, and what RU makes of it (01 R8, R14, R24, R26). -/

namespace Sys2Proof.Machine

/-! ### The notice (01 R8, 07 R151) -/

/-- In going from `s` to `t` the notice is posted where it is due and one more may wait, and is lost where it may not. -/
structure State.Notifies (s t : State) (due : Prop) (n : Notice) : Prop where
  posted : due → s.pu.notices.length < 16 → t.pu.notices = s.pu.notices ++ [n] ∧ t.flags = s.flags
  lost : due → 16 ≤ s.pu.notices.length →
    t.pu.notices = s.pu.notices ∧ t.flags = { s.flags with noticeLost := true }
  quiet : ¬ due → t.pu.notices = s.pu.notices ∧ t.flags = s.flags

theorem State.notifies_post (s : State) (n : Notice) (due : Bool) :
    s.Notifies (if due then s.post n else s) (due = true) n where
  posted is room := by
    rw [State.post_pu, State.post_flags]
    exact ⟨if_pos ⟨is, room⟩, if_neg fun both => by omega⟩
  lost is full := by
    rw [State.post_pu, State.post_flags]
    exact ⟨if_neg fun both => by omega, if_pos ⟨is, full⟩⟩
  quiet isNot := by
    rw [State.post_pu, State.post_flags]
    exact ⟨if_neg fun both => isNot both.1, if_neg fun both => isNot both.1⟩

theorem State.Notifies.congr {s s' t t' : State} {due : Prop} {n : Notice} (h : s.Notifies t due n)
    (notices : s'.pu.notices = s.pu.notices) (flags : s'.flags = s.flags) (notices' : t'.pu.notices = t.pu.notices)
    (flags' : t'.flags = t.flags) : s'.Notifies t' due n := by
  obtain ⟨posted, lost, quiet⟩ := h
  refine ⟨?_, ?_, ?_⟩
  · rw [notices, flags, notices', flags']; exact posted
  · rw [notices, flags, notices', flags']; exact lost
  · rw [notices, flags, notices', flags']; exact quiet

/-! ### The entry goes to FREE (01 R24, R26) -/

section Frees
variable {s x : State} {j : Nat} {old issue : Issue}

theorem State.freeEntry_flags (s : State) (j : Nat) (superseded : Bool) : (s.freeEntry j superseded).flags = s.flags :=
  s.freeEntry_frame j superseded .flags (by decide)

theorem State.dissolved_frame (s : State) (j : Nat) :
    s.onlyChanges [.tb, .table, .free, .ar, .cs, .pu] (s.dissolved j) :=
  State.onlyChanges.step (State.onlyChanges.step ((s.releaseBody_frame j).mono (by decide))
    (State.emptySlot_frame _ j) (by decide)) (s.dissolved_after j) (by decide)

theorem State.dissolved_standing (s : State) (j : Nat) : (s.dissolved j).standing = s.standing := by
  have emptied : ((s.releaseBody j).emptySlot j).standing = (s.releaseBody j).standing :=
    (State.emptySlot_frame _ j).standing (by decide)
  exact ((s.dissolved_after j).standing (by decide)).trans (emptied.trans (s.releaseBody_standing j))

theorem State.freeEntry_of_issue (issued : (s.entry j).issue = some old) (superseded : Bool) :
    s.freeEntry j superseded = (s.dissolved j).entryEnds old superseded := by
  rw [State.freeEntry_eq, issued, State.tellEnded]

/-- The entry's tally is marked, or freed, or not there. -/
theorem State.freeEntry_gaveWay (issued : (s.entry j).issue = some old) : s.GaveWay (s.freeEntry j true) old := by
  rw [State.freeEntry_of_issue issued]
  exact (State.entryEnds_gaveWay (s.dissolved j) old).congr (s.dissolved_frame j .ru (by decide)).symm
    (State.standing_parts (s.dissolved_standing j)).2.1.1.symm rfl rfl rfl rfl

theorem State.freeEntry_wasCancelled (issued : (s.entry j).issue = some old) :
    s.WasCancelled (s.freeEntry j false) old := by
  rw [State.freeEntry_of_issue issued]
  exact (State.entryEnds_wasCancelled (s.dissolved j) old).congr (s.dissolved_frame j .ru (by decide)).symm rfl

theorem State.unreported.congr (unreported : s.unreported issue) (ru : x.ru = s.ru) : x.unreported issue :=
  unreported.kept (congrArg Report.tallies ru) (by rw [ru]; exact List.Subset.refl _)

theorem State.unreported.freeEntry (unreported : s.unreported issue) (issued : (s.entry j).issue = some old)
    (superseded : Bool) : (s.freeEntry j superseded).unreported issue := by
  rw [State.freeEntry_of_issue issued]
  exact (unreported.congr (s.dissolved_frame j .ru (by decide))).entryEnds old superseded

end Frees

/-! ### The step for one other entry of the key -/

/-- The state stands before the step for entry `j` as `s` does. -/
structure State.Poised (s x : State) (j : Nat) : Prop where
  frame : s.onlyChanges [.table, .store, .free, .ar, .pu, .ml, .counters] x
  notices : x.pu.notices = s.pu.notices
  entry : x.entry j = s.entry j

section Steps
variable {s x : State} {j : Nat} {old issue : Issue} (poised : s.Poised x j)
include poised

theorem State.Poised.handle : x.handle j = s.handle j := by
  rw [State.handle, State.handle, poised.entry]

theorem State.Poised.flags : x.flags = s.flags := poised.frame .flags (by decide)

theorem State.Poised.ru : x.ru = s.ru := poised.frame .ru (by decide)

theorem State.Poised.cs : x.cs = s.cs := poised.frame .cs (by decide)

/-- The predecessor's notice, where the host holds it or has shown it. -/
theorem State.Poised.giveWay_notifies (kind : NoticeKind) (successor : Option Nat) :
    s.Notifies (State.giveWay kind successor x j) ((s.entry j).isHeld = true) ⟨kind, s.handle j, successor⟩ := by
  have told := x.notifies_post ⟨kind, x.handle j, successor⟩ (x.entry j).isHeld
  rw [poised.handle, poised.entry] at told
  refine told.congr poised.notices.symm poised.flags.symm ?_ ?_
  · rw [State.giveWay, State.freeEntry_notices, State.postIfHeld, poised.handle, poised.entry]
  · rw [State.giveWay, State.freeEntry_flags, State.postIfHeld, poised.handle, poised.entry]

/-- The notice of a cancelled entry. -/
theorem State.Poised.cancelOther_notifies :
    s.Notifies (x.cancelOther j) ((s.entry j).cancelNoticed = true) ⟨.cancelled, s.handle j, none⟩ := by
  have told := x.notifies_post ⟨.cancelled, x.handle j, none⟩ (x.entry j).cancelNoticed
  rw [poised.handle, poised.entry] at told
  refine told.congr poised.notices.symm poised.flags.symm ?_ ?_
  · rw [State.cancelOther, State.freeEntry_notices, poised.handle, poised.entry]
  · rw [State.cancelOther, State.freeEntry_flags, poised.handle, poised.entry]

theorem State.Poised.giveWay_gaveWay (issued : (s.entry j).issue = some old) (kind : NoticeKind) (successor : Option Nat) :
    s.GaveWay (State.giveWay kind successor x j) old := by
  have frame := x.postIfHeld_frame j kind successor
  refine (State.freeEntry_gaveWay (s := x.postIfHeld j kind successor) (old := old) ?_).congr ?_ ?_ rfl rfl rfl rfl
  · rw [State.postIfHeld_entry, poised.entry, issued]
  · exact (poised.ru.symm.trans (frame .ru (by decide)).symm :)
  · exact congrArg Station.tag (poised.cs.symm.trans (frame .cs (by decide)).symm :)

theorem State.Poised.cancelOther_wasCancelled (issued : (s.entry j).issue = some old) :
    s.WasCancelled (x.cancelOther j) old := by
  have frame := x.post_frame_if ⟨.cancelled, x.handle j, none⟩ (x.entry j).cancelNoticed
  refine (State.freeEntry_wasCancelled (s := if (x.entry j).cancelNoticed then _ else x) (old := old) ?_).congr ?_ rfl
  · rw [State.entry_congr (frame .table (by decide)), poised.entry, issued]
  · exact (poised.ru.symm.trans (frame .ru (by decide)).symm :)

theorem State.Poised.giveWay_unreported (unreported : s.unreported issue) (issued : (s.entry j).issue = some old)
    (kind : NoticeKind) (successor : Option Nat) : (State.giveWay kind successor x j).unreported issue := by
  refine State.unreported.freeEntry (old := old) (unreported.congr ?_) ?_ true
  · exact ((x.postIfHeld_frame j kind successor .ru (by decide)).trans poised.ru :)
  · rw [State.postIfHeld_entry, poised.entry, issued]

theorem State.Poised.cancelOther_unreported (unreported : s.unreported issue) (issued : (s.entry j).issue = some old) :
    (x.cancelOther j).unreported issue := by
  have frame := x.post_frame_if ⟨.cancelled, x.handle j, none⟩ (x.entry j).cancelNoticed
  refine State.unreported.freeEntry (old := old) (unreported.congr ?_) ?_ false
  · exact ((frame .ru (by decide)).trans poised.ru :)
  · rw [State.entry_congr (frame .table (by decide)), poised.entry, issued]

end Steps

end Sys2Proof.Machine

/-! The statement about the other entries of a key whose issuance completes (01 R8, R14, R24 to R26; 06 R134). -/

namespace Sys2Proof.Machine

/-! ### Before the step -/

section Before
variable {s x : State} {i j : Nat}

theorem State.Poised.setEntry (poised : s.Poised x j) (other : j ≠ i) (e : Entry) : s.Poised (x.setEntry i e) j where
  frame := State.onlyChanges.step poised.frame (x.setEntry_frame i e) (by decide)
  notices := poised.notices
  entry := (x.entry_setEntry_ne other e).trans poised.entry

theorem State.Poised.closeEntry (poised : s.Poised x j) (other : j ≠ i) (reason : Reason) :
    s.Poised (x.closeEntry i reason) j where
  frame := State.onlyChanges.step poised.frame (x.closeEntry_frame i reason) (by decide)
  notices := by rw [State.closeEntry_pu, State.emptySlot_pu.1, poised.notices]
  entry := (State.closeEntry_entry_ne x other reason).trans poised.entry

theorem State.goodBody_poised {source : Source} {f : Fragment} {slot n : Nat} {rest : List Nat} (other : j ≠ i) :
    s.Poised (s.goodBody source f slot i n rest) j where
  frame := (s.goodBody_frame source f slot i n rest).mono (by decide)
  notices := congrArg Presentation.notices (s.goodBody_frame source f slot i n rest .pu (by decide))
  entry := State.goodBody_entry_ne other

end Before

/-! ### The one other entry of the key -/

/-- Entry `j` is the one of the key but entry `i`. -/
structure State.OneOther (s : State) (key : Key) (i j : Nat) : Prop where
  other : j ≠ i
  own : (s.entry j).ofKey key = true
  only : ∀ k, k ≠ i → (s.entry k).ofKey key = true → k = j

section One
variable {s x : State} {key : Key} {i j : Nat} (one : s.OneOther key i j)
include one

theorem State.OneOther.othersOf (same : ∀ k, k ≠ i → x.entry k = s.entry k) : x.othersOf i key = [j] :=
  State.othersOf_of_only (by rw [same j one.other]; exact one.own) one.other fun k other own =>
    one.only k other (by rw [← same k other]; exact own)

theorem State.OneOther.supersede (same : ∀ k, k ≠ i → x.entry k = s.entry k) (kind : NoticeKind)
    (successor : Option Nat) : x.supersede i key kind successor = State.giveWay kind successor x j := by
  rw [State.supersede_eq, one.othersOf same]
  rfl

theorem State.OneOther.cancelOthers (same : ∀ k, k ≠ i → x.entry k = s.entry k) :
    x.cancelOthers i key = x.cancelOther j := by
  rw [State.cancelOthers_eq, one.othersOf same]
  rfl

/-- What the successor takes from its one predecessor (01 R25). -/
theorem State.OneOther.replacesFor (same : ∀ k, k ≠ i → x.entry k = s.entry k) :
    x.replacesFor i key = if (s.entry j).isHeld = true then some (s.handle j) else (s.entry j).replaces := by
  have handle : x.handle j = s.handle j := by rw [State.handle, State.handle, same j one.other]
  rw [State.replacesFor, one.othersOf same]
  dsimp only
  rw [List.find?_cons, same j one.other]
  cases (s.entry j).isHeld with
  | true => exact congrArg some handle
  | false => simp [same j one.other]

theorem State.OneOther.followsFor (same : ∀ k, k ≠ i → x.entry k = s.entry k) : x.followsFor i key
    = (((s.entry j).closureReason == some .acknowledged && (s.entry j).state == .closed)
        || (s.entry j).followsAcknowledged) := by
  rw [State.followsFor, one.othersOf same]
  simp only [List.any_cons, List.any_nil, Bool.or_false, same j one.other]
  rw [Bool.and_comm]

end One

/-! ### After the step -/

/-- From the step for the other entry to the end of the completion, RU is told of the new issuance at most. -/
structure State.Concludes (v c : State) : Prop where
  frame : v.onlyChanges [.tb, .table, .free, .cs, .ru, .au] c
  standing : c.standing = v.standing

section Concludes
variable {v w c t : State} {i : Nat} {issue : Issue}

theorem State.Concludes.trans (h : v.Concludes w) (h' : w.Concludes c) : v.Concludes c :=
  ⟨State.onlyChanges.step h.frame h'.frame (by decide), h'.standing.trans h.standing⟩

theorem State.concludes_attend (v : State) : v.Concludes v.attend := ⟨v.attend_frame.mono (by decide), v.attend_standing⟩

theorem State.concludes_startOffer (v : State) (i : Nat) : v.Concludes (v.startOffer i) :=
  ⟨(v.startOffer_frame i).mono (by decide), v.startOffer_standing i⟩

theorem State.concludes_releaseBody (v : State) (i : Nat) : v.Concludes (v.releaseBody i) :=
  ⟨(v.releaseBody_frame i).mono (by decide), v.releaseBody_standing i⟩

theorem State.concludes_entryEnds (v : State) (issue : Issue) (superseded : Bool) :
    v.Concludes (v.entryEnds issue superseded) :=
  ⟨(v.entryEnds_frame issue superseded).mono (by decide), v.entryEnds_standing issue superseded⟩

end Concludes

end Sys2Proof.Machine

/-! The one other entry of a key when an issuance completes: what PU and RU are told (01 R8, R14, R24 to R26; 06 R134). -/

namespace Sys2Proof.Machine

section Outcome
variable {s : State} {source : Source} {f : Fragment} {slot i j n : Nat} {rest : List Nat}
  (completes : s.Completes f i slot rest) (one : s.OneOther f.issue.key i j)
include completes one

/-- A successor with life left. -/
theorem State.Completes.live_tells (successor : (s.entry i).kindWith f ≠ .cancel)
    (live : 0 < (s.entry i).lifeWith f s.tb.alertClock) :
    ∃ v, s.Notifies v ((s.entry j).isHeld = true) ⟨.superseded, s.handle j, some i⟩
      ∧ v.Concludes ((s.filledUp source f slot i rest).completeEntry i n)
      ∧ ∀ old, (s.entry j).issue = some old → s.GaveWay v old
        ∧ ((s.filledUp source f slot i rest).completeEntry i n).ru = v.ru := by
  have poised := (State.goodBody_poised (s := s) (source := source) (f := f) (slot := slot) (n := n) (rest := rest)
    one.other).setEntry one.other { (s.goodBody source f slot i n rest).successor i f.issue.key with
      state := .locating, verdict := .undecided }
  have superseded := one.supersede (x := (s.goodBody source f slot i n rest).succeeding i f.issue)
    (fun k other => (State.entry_setEntry_ne _ other _).trans (State.goodBody_entry_ne other)) .superseded (some i)
  rw [completes.completion, if_neg successor, if_pos live, State.completeLive_eq, State.succeeded, superseded]
  refine ⟨_, poised.giveWay_notifies _ _, (State.concludes_startOffer _ i).trans (State.concludes_attend _),
    fun old issued => ⟨poised.giveWay_gaveWay issued _ _, ?_⟩⟩
  exact (State.attend_frame _ .ru (by decide)).trans (State.startOffer_frame _ i .ru (by decide))

/-- A successor with no life left. -/
theorem State.Completes.lapsed_tells (successor : (s.entry i).kindWith f ≠ .cancel)
    (dead : (s.entry i).lifeWith f s.tb.alertClock = 0) :
    ∃ v, s.Notifies v ((s.entry j).isHeld = true) ⟨.expired, s.handle j, none⟩
      ∧ v.Concludes ((s.filledUp source f slot i rest).completeEntry i n)
      ∧ ∀ old, (s.entry j).issue = some old → s.GaveWay v old
        ∧ (s.unreported f.issue → ((s.filledUp source f slot i rest).completeEntry i n).ru = v.ru) := by
  have poised := ((State.goodBody_poised (s := s) (source := source) (f := f) (slot := slot) (n := n) (rest := rest)
    one.other).setEntry one.other ((s.goodBody source f slot i n rest).successor i f.issue.key)).closeEntry one.other .expired
  have superseded := one.supersede (x := (s.goodBody source f slot i n rest).lapsing i f.issue)
    (fun k other => (State.closeEntry_entry_ne _ other .expired).trans
      ((State.entry_setEntry_ne _ other _).trans (State.goodBody_entry_ne other))) .expired none
  rw [completes.completion, if_neg successor, if_neg (Nat.not_lt_of_ge (Nat.le_of_eq dead)), State.completeExpired_eq,
    State.lapsed, superseded]
  refine ⟨_, poised.giveWay_notifies _ _, ((State.concludes_releaseBody _ i).trans
    (State.concludes_entryEnds _ f.issue false)).trans (State.concludes_attend _),
    fun old issued => ⟨poised.giveWay_gaveWay issued _ _, fun unreported => ?_⟩⟩
  have released := State.releaseBody_frame
    (State.giveWay .expired none ((s.goodBody source f slot i n rest).lapsing i f.issue) j) i .ru (by decide)
  rw [State.entryEnds_of_unreported ((poised.giveWay_unreported unreported issued .expired none).congr released)]
  exact (State.attend_frame _ .ru (by decide)).trans released

/-- A cancel. -/
theorem State.Completes.cancel_tells (cancel : (s.entry i).kindWith f = .cancel) :
    ∃ v, s.Notifies v ((s.entry j).cancelNoticed = true) ⟨.cancelled, s.handle j, none⟩
      ∧ v.Concludes ((s.filledUp source f slot i rest).completeEntry i n)
      ∧ ∀ old, (s.entry j).issue = some old → s.WasCancelled v old
        ∧ (s.unreported f.issue → ((s.filledUp source f slot i rest).completeEntry i n).ru = v.ru) := by
  have poised := (State.goodBody_poised (s := s) (source := source) (f := f) (slot := slot) (n := n) (rest := rest)
    one.other).closeEntry one.other .cancelled
  have cancelled := one.cancelOthers fun k other => (State.closeEntry_entry_ne (s.goodBody source f slot i n rest) other
    .cancelled).trans (State.goodBody_entry_ne other)
  rw [completes.completion, if_pos cancel, State.completeCancel_eq, State.keyCancelled, cancelled]
  refine ⟨_, poised.cancelOther_notifies, ?_, fun old issued => ⟨poised.cancelOther_wasCancelled issued, fun unreported => ?_⟩⟩
  · refine (State.concludes_entryEnds _ f.issue false).trans (State.Concludes.trans ?_ (State.concludes_attend _))
    split
    · exact State.concludes_releaseBody _ i
    · exact State.concludes_startOffer _ i
  · rw [State.entryEnds_of_unreported (poised.cancelOther_unreported unreported issued)]
    refine (State.attend_frame _ .ru (by decide)).trans ?_
    split
    · exact State.releaseBody_frame _ i .ru (by decide)
    · exact State.startOffer_frame _ i .ru (by decide)

/-- What a successor takes from its one predecessor (01 R25). -/
theorem State.Completes.takes_over (successor : (s.entry i).kindWith f ≠ .cancel) :
    let c := (s.filledUp source f slot i rest).completeEntry i n
    (c.entry i).replaces = (if (s.entry j).isHeld = true then some (s.handle j) else (s.entry j).replaces)
      ∧ (c.entry i).followsAcknowledged
        = (((s.entry j).closureReason == some .acknowledged && (s.entry j).state == .closed)
            || (s.entry j).followsAcknowledged) := by
  intro c
  have same : ∀ k, k ≠ i → (s.goodBody source f slot i n rest).entry k = s.entry k := fun k => State.goodBody_entry_ne
  obtain dead | live := Nat.eq_zero_or_pos ((s.entry i).lifeWith f s.tb.alertClock)
  · have done := completes.successor_dead (source := source) (n := n) successor dead
    rw [completes.successor_eq, one.replacesFor same, one.followsFor same] at done
    obtain ⟨offer, released⟩ := Entry.released_form (e := ((s.goodEntry source f slot i n).succeeding _ _).close .expired
      s.uptime) (completes.full_positions (source := source))
    rw [show c.entry i = _ from done.self.trans released]
    exact ⟨rfl, rfl⟩
  · obtain ⟨r, -, done⟩ := completes.successor_live (source := source) (n := n) successor live
    rw [completes.successor_eq, one.replacesFor same, one.followsFor same] at done
    rw [show c.entry i = _ from done.self]
    exact ⟨rfl, rfl⟩

end Outcome

end Sys2Proof.Machine

/-! The statement about the other entries of a key whose issuance completes (01 R8, R14, R24 to R26; 06 R134). -/

namespace Sys2Proof.Machine

section Completion
variable {s : State} {source : Source} {f : Fragment} {slot i j n : Nat} {rest : List Nat}
  (completes : s.Completes f i slot rest)
include completes

/-- However the entry completes, the others of its key are FREE and the rest sound as they did. -/
theorem State.Completes.completedAs :
    ∃ e, s.CompletedAs ((s.filledUp source f slot i rest).completeEntry i n) i f.issue.key e := by
  by_cases cancel : (s.entry i).kindWith f = .cancel
  · obtain dead | live := Nat.eq_zero_or_pos ((s.entry i).lifeWith f s.tb.alertClock)
    · exact ⟨_, completes.cancel_dead cancel dead⟩
    · obtain ⟨_, -, done⟩ := completes.cancel_live (source := source) (n := n) cancel live
      exact ⟨_, done⟩
  · obtain dead | live := Nat.eq_zero_or_pos ((s.entry i).lifeWith f s.tb.alertClock)
    · exact ⟨_, completes.successor_dead cancel dead⟩
    · obtain ⟨_, -, done⟩ := completes.successor_live (source := source) (n := n) cancel live
      exact ⟨_, done⟩

/-- A successor, with life left or with none. -/
theorem State.Completes.successor_tells (one : s.OneOther f.issue.key i j) (successor : (s.entry i).kindWith f ≠ .cancel) :
    ∃ v, s.Notifies v ((s.entry j).isHeld = true)
        (if 0 < (s.entry i).lifeWith f s.tb.alertClock then ⟨.superseded, s.handle j, some i⟩
          else ⟨.expired, s.handle j, none⟩)
      ∧ v.Concludes ((s.filledUp source f slot i rest).completeEntry i n)
      ∧ ∀ old, (s.entry j).issue = some old → s.GaveWay v old
        ∧ (0 < (s.entry i).lifeWith f s.tb.alertClock ∨ s.unreported f.issue →
          ((s.filledUp source f slot i rest).completeEntry i n).ru = v.ru) := by
  obtain dead | live := Nat.eq_zero_or_pos ((s.entry i).lifeWith f s.tb.alertClock)
  · obtain ⟨v, told, concludes, reported⟩ := completes.lapsed_tells one (source := source) (n := n) successor dead
    rw [if_neg (by omega)]
    refine ⟨v, told, concludes, fun old issued => ⟨(reported old issued).1, fun known => (reported old issued).2 ?_⟩⟩
    exact known.resolve_left (by omega)
  · obtain ⟨v, told, concludes, reported⟩ := completes.live_tells one (source := source) (n := n) successor live
    rw [if_pos live]
    exact ⟨v, told, concludes, fun old issued => ⟨(reported old issued).1, fun _ => (reported old issued).2⟩⟩

end Completion

theorem Entry.cancelNoticed_iff {e : Entry} : e.cancelNoticed = true ↔ e.isHeld = true
    ∨ (e.state = .closed ∧ e.closureReason = some .acknowledged ∧ e.heldWhenAcknowledged = true) := by
  simp [Entry.cancelNoticed, and_assoc]

theorem deferredBut_eq (r : Report) {issue : Option Issue} {old : Issue} (issued : issue = some old) :
    (r.deferred.filter fun d => some d.issue != issue) = r.deferredBut old := by
  subst issued
  refine List.filter_congr fun d _ => Bool.eq_iff_iff.mpr ?_
  simp

/-- What is read off the state after the step holds to the end of the run. -/
theorem State.Notifies.concluded {s v c t : State} {due due' : Prop} {m : Notice} (told : s.Notifies v due m)
    (iff : due' ↔ due) (concludes : v.Concludes c) (after : c.onlyChanges [.tb, .cs] t) : s.Notifies t due' m := by
  rw [iff]
  exact told.congr rfl rfl
    (congrArg Presentation.notices ((after .pu (by decide)).trans (concludes.frame .pu (by decide)) :))
    ((after .flags (by decide)).trans (concludes.frame .flags (by decide)))

section End
variable {s v c t : State} {old : Issue} (concludes : v.Concludes c) (after : c.onlyChanges [.tb, .cs] t)
  (standing : t.standing = c.standing) (same : c.ru = v.ru)
include after same

include concludes standing in
theorem State.GaveWay.concluded (gave : s.GaveWay v old) : s.GaveWay t old := by
  have standing' : t.standing = v.standing := standing.trans concludes.standing
  exact gave.congr rfl rfl ((after .ru (by decide)).trans same) (State.standing_parts standing').1.1
    ((after .settings (by decide)).trans (concludes.frame .settings (by decide)))
    (congrArg Resolver.quality ((after .ar (by decide)).trans (concludes.frame .ar (by decide)) :))

theorem State.WasCancelled.concluded (was : s.WasCancelled v old) : s.WasCancelled t old :=
  was.congr rfl ((after .ru (by decide)).trans same)

end End

/-- An issuance that RU does not know: no tally, and no deferred item. -/
theorem State.unreported_of {s : State} {issue : Issue} (none' : s.findTally issue = none)
    (absent : ∀ d ∈ s.ru.deferred, d.issue ≠ issue) : s.unreported issue :=
  ⟨none', State.isDeferred_eq_false_iff.mpr absent⟩

/-- Where only items of another issuance that has a tally are deferred, RU does not know one without a tally. -/
theorem State.unreported_of_deferredBut {s : State} {issue old : Issue} {k : Nat} (none' : s.findTally issue = none)
    (found : s.findTally old = some k) (empty : s.ru.deferredBut old = []) : s.unreported issue := by
  refine State.unreported_of none' fun d mem same => ?_
  have isOld : d.issue = old := by simpa using List.filter_eq_nil_iff.mp empty d mem
  rw [← same, isOld, found] at none'
  cases none'

/-- Settles O20: the entries by `State.CompletedAs`, and the one other entry by what a successor or a cancel tells. -/
theorem completionEndsOthers : Obligations.CompletionEndsOthers := by
  unfold Obligations.CompletionEndsOthers
  intro s source sender record f i slot n rest meet parsed completes agrees good live kind
  obtain ⟨t, ran, after, standing⟩ := exec_arrival_completes (source := source) completes parsed meet
  rw [State.checkBody_of_good (completes.entry_self (source := source)) (completes.packed (source := source) parsed)
    agrees good] at after
  have standing : t.standing = ((s.filledUp source f slot i rest).completeEntry i n).standing :=
    standing.trans ((State.completeEntry_standing _ i n).trans State.filledUp_standing).symm
  have table := State.entry_congr (after .table (by decide))
  obtain ⟨_, done⟩ := completes.completedAs (source := source) (n := n)
  refine ⟨t, ran, fun j other own => (table j).trans (done.ofKey j other own),
    fun j other foreign => table j ▸ done.foreign j other foreign, fun j other own only => ?_⟩
  have one : s.OneOther f.issue.key i j := ⟨other, own, only⟩
  intro e noticed ended succeeds
  by_cases cancel : kind = .cancel
  · obtain ⟨v, told, concludes, reported⟩ := completes.cancel_tells one (source := source) (n := n) cancel
    have iff : noticed ↔ e.cancelNoticed = true := by
      rw [Entry.cancelNoticed_iff]
      exact or_congr_right ⟨And.right, fun is => ⟨cancel, is⟩⟩
    obtain ⟨posted, lost, quiet⟩ := told.concluded iff concludes after
    refine ⟨?_, lost, quiet, absurd cancel, fun old issued => ⟨fun is => absurd cancel is.1, fun k y found held =>
      ⟨fun is => absurd cancel is.1, fun is => absurd cancel is.1, fun is => absurd cancel is.1,
        fun _ empty none' => ?_⟩⟩⟩
    · rw [if_pos cancel]
      exact posted
    · have empty : s.ru.deferredBut old = [] := (deferredBut_eq s.ru issued).symm.trans empty
      obtain ⟨was, same⟩ := reported old issued
      have was := was.concluded after (same (State.unreported_of_deferredBut none' found empty))
      exact ⟨was.marked k y found held, fun other => was.freed k y found held other empty⟩
  · obtain ⟨v, told, concludes, reported⟩ := completes.successor_tells one (source := source) (n := n) cancel
    have iff : noticed ↔ e.isHeld = true := or_iff_left fun is => cancel is.1
    obtain ⟨posted, lost, quiet⟩ := told.concluded iff concludes after
    have taken := completes.takes_over one (source := source) (n := n) cancel
    refine ⟨?_, lost, quiet, fun _ => ?_, fun old issued => ?_⟩
    · rw [if_neg cancel]
      exact posted
    · rw [table i]
      exact taken
    · have all : ended = s.ru.deferredBut old := deferredBut_eq s.ru issued
      obtain ⟨gave, same⟩ := reported old issued
      have gave (is : succeeds) : s.GaveWay t old :=
        gave.concluded concludes after standing (same (is.2.imp_right fun known => State.unreported_of known.1 known.2))
      rw [all]
      exact ⟨fun is => (gave is).alone, fun k y found held => ⟨fun is => (gave is).marked k y found held,
        fun is => (gave is).freed k y found held, fun is => (gave is).given k y found held,
        fun is => absurd is cancel⟩⟩

end Sys2Proof.Machine
